-- ==== Sys2Proof/Word.lean ====
section
/-!
DEFINITION. The words of the Remura HS4 that its manual treats as bits: bytes of streams, units and frames, album sets,
times and chunk fingerprints. Numbers that only count or name (streams, handles, containers, offsets, lengths) are
natural numbers.
-/

namespace Sys2Proof

/-- One byte of a stream, a drive unit, a frame or the external memory. -/
abbrev Byte := BitVec 8

/-- A set of album numbers 0 to 31: bit `i` is set when album `i` is in the set (R196). -/
abbrev Albums := BitVec 32

/-- A value of the 32-bit time counter, in seconds (R167). -/
abbrev Time := BitVec 32

/-- A chunk fingerprint: 32 bits of CRC above 16 bits of length minus one (R10). -/
abbrev Fp := BitVec 48

/-- A CRC-32 register or value (R10). -/
abbrev Crc := BitVec 32

end Sys2Proof
end

