-- ==== Sys2Proof/Syntax.lean ====
section
/-!
DEFINITION. The commands of the Remura HS4: `Instr` has one constructor for each row of spec/opcode_table.json. A request
of the control link carries its tag and the fields of R203; an internal step or an outside event carries what the rule of
its row says it carries. The record types that a command can carry (drive operations, bursts, read requests) stand first.
-/

namespace Sys2Proof

/-- The five classes of drive work, in the order of R97. -/
inductive Cls where
  | read | write | verify | scrub | rebuild
  deriving DecidableEq, Repr

/-- The kinds of a drive operation (R97). -/
inductive OpKind where
  | read | write | standby | labelRead
  deriving DecidableEq, Repr

/-- What a drive operation addresses: a container's unit, a reserved unit, or nothing (R97). -/
inductive OpTarget where
  | nothing
  | container (c : Nat)
  | reserved (u : Nat)
  deriving DecidableEq, Repr

/-- Who submits a drive operation (R97). -/
inductive Requester where
  | ingest (i : Nat)
  | readStream (i : Nat)
  | igu
  | ckr
  | ctm
  deriving DecidableEq, Repr

/-- The piece of work that a drive operation belongs to, so that its requester knows it again when it comes back. -/
inductive Job where
  /-- one read of the read job `id` (a chunk, a record, a directory): part `part`, the unit on position `pos` -/
  | unitRead (id part pos : Nat)
  /-- a unit write of container `c`'s stripe write (R83) -/
  | stripeWrite (c : Nat)
  /-- a zero write of container `c` below the wipe fence (R187) -/
  | zeroStripe (c : Nat)
  /-- a repair write of CTM or CKR, which nobody waits for (R88, R192) -/
  | repair
  | scrubRead | scrubRepair
  | rebuildRead | rebuildWrite
  /-- label reads of forming and attach (R186, R190), by position -/
  | labelRead
  | formLabel | formWipe
  | adoptLabel | adoptLabelSecond | finalLabel
  | ckptBody | ckptHeader
  | copyRead | copyWrite
  /-- the header unit of slot A (`false`) or slot B (`true`) (R191) -/
  | slotHeader (slotB : Bool)
  /-- body unit `u` of the slot being loaded (R191) -/
  | slotBody (u : Nat)
  | scanRead
  /-- an operation submitted by a command of its own -/
  | lone (n : Nat)
  deriving DecidableEq, Repr

/-- An operation record (R97). `data` holds the bytes of a WRITE. -/
structure Op where
  kind : OpKind
  cls : Cls
  target : OpTarget
  start : Nat
  len : Nat
  requester : Requester
  retry : Bool
  data : List Byte
  job : Job
  deriving DecidableEq, Repr

/-- How the drive completes an operation (R103). -/
inductive Completion where
  | ok (bytes : List Byte)
  | mediaError
  deriving DecidableEq, Repr

/-- What the drive sends at the end of a command (R103): which of the channel's commands it answers, and how it ended. -/
structure DriveAnswer where
  command : Nat
  completion : Completion
  deriving DecidableEq, Repr

/-- The failure causes of a member (R95), in the order of that rule. -/
inductive FailCause where
  | power | spinup | errors | write | removed
  deriving DecidableEq, Repr

/-- The reasons that a drop hold carries (R33). -/
inductive HoldReason where
  | difference | unreadable | abort
  deriving DecidableEq, Repr

/-- Who a chunk read is made for (R87): the chunk at a recipe position of a read stream, or a numbered chunk record of an
ingest stream. -/
inductive ReadBy where
  | stream (i position : Nat)
  | verify (i no : Nat)
  deriving DecidableEq, Repr

/-- A chunk read as its requester sends it: a handle, its fingerprint, a class and a requester (R87). -/
structure ChunkReq where
  handle : Nat
  fp : Fp
  cls : Cls
  who : ReadBy
  deriving DecidableEq, Repr

/-- Who asks ORU for a SEGMENT record (R53). -/
inductive SegAsker where
  | stream (i : Nat)
  | walk
  deriving DecidableEq, Repr

/-- Who asks CTM for a chunk placement (R78). -/
inductive PlaceFor where
  | record (i no : Nat)
  | relocation
  deriving DecidableEq, Repr

/-- Who holds or waits for read buffers (R175). -/
inductive BufAsker where
  | readJob (id : Nat)
  | scrub
  | rebuild
  deriving DecidableEq, Repr

/-- The word of the index region that an uncorrectable error hit (R45, R180). -/
inductive IndexWord where
  | way (bucket w : Nat)
  | overflow (o : Nat)
  | header (bucket : Nat) (copy : Bool)
  | hold (copy : Bool)
  deriving DecidableEq, Repr

/-- The word of the container region that an uncorrectable error hit (R182). -/
inductive ContWord where
  | record (c : Nat)
  | link (c : Nat)
  | array
  deriving DecidableEq, Repr

/-- A memory burst (R175): consecutive words read or written. `errors` lists, by word number from the start of the burst,
the words the memory returns with bits in error now: one bit (`false`) or more (`true`) (R179, R180). `piece` marks a
burst by which CKR takes a piece of a checkpoint body (R189). -/
structure Burst where
  isWrite : Bool
  addr : Nat
  len : Nat
  data : List Byte
  errors : List (Nat × Bool)
  piece : Bool
  deriving DecidableEq, Repr

/-- The commands of the HS4, one constructor per row of spec/opcode_table.json, in the table's order. -/
inductive Instr where
  -- requests of the control link (R203); `tag` is the frame's tag
  | openIngest (tag kind owner : Nat) (albums : Albums)
  | ingestData (tag stream offset : Nat) (data : List Byte)
  | closeIngest (tag stream : Nat)
  | abortIngest (tag stream : Nat)
  | setChunking (tag k : Nat)
  | getObject (tag id mode : Nat)
  | setAlbums (tag id : Nat) (albums : Albums)
  | releaseObject (tag id : Nat)
  | putGrant (tag id : Nat) (albums : Albums) (notAfter : Time) (allowance : Option Nat) (limit : Nat)
  | revokeGrant (tag id : Nat)
  | getGrant (tag id : Nat)
  | openRead (tag object grant start count : Nat)
  | stopRead (tag stream : Nat)
  | relocateContainer (tag c : Nat)
  | setScrub (tag period : Nat)
  | adoptMember (tag bay position : Nat)
  | sleep (tag : Nat)
  | setPowerPolicy (tag idle0 idle1 idle2 idle3 limit grace : Nat)
  | setWakePattern (tag number enabled offset length : Nat) (bytes : List Byte) (mask : BitVec 16) (interval : Nat)
  | setStation (tag : Nat) (address : List Byte) (broadcast : Nat)
  | setAlarm (tag off : Nat) (time : Time)
  | setTime (tag : Nat) (time : Time)
  | setLamps (tag mode : Nat)
  | formArray (tag layout bayCount : Nat) (bays : List Nat) (buckets : Nat)
  | attachArray (tag : Nat)
  | checkpoint (tag : Nat)
  | getStatus (tag figures : Nat)
  | setServiceFrame (tag selector f : Nat) (classes : List Nat)
  -- resets and the two lanes
  | powerOnReset
  | warmReset
  | headerReceived (bytes : List Byte)
  | frameReceived (payload : List Byte) (crc : Crc)
  | frameSkipped
  | lineBreak
  | messageBegin
  | replySent
  | dataMessageSent
  | dataBytesRead (stream : Nat) (bad : Bool)
  -- ingest
  | chunkerRun (stream : Nat)
  | lookupIssue (stream : Nat)
  | lookup (fp : Fp) (stream : Nat)
  | verifyComplete (stream no : Nat)
  | chunkCopyDone (stream no : Nat)
  | queueLeave (stream : Nat)
  | streamSealing (stream : Nat)
  | ringWordError (stream position : Nat)
  -- the chunk index
  | insert (fp : Fp) (container offset stream : Nat)
  | collisionInsert (fp : Fp) (container offset stream : Nat)
  | dropHold (handle stream : Nat) (reason : HoldReason)
  | confirmHold (handle stream : Nat)
  | raise (handle : Nat)
  | lower (handle : Nat)
  | replayCreate (handle : Nat) (fp : Fp) (container offset : Nat)
  | removeIfUnreferenced (handle : Nat)
  | stored (handle : Nat) (fp : Fp) (container offset : Nat)
  | damageMark (handle : Nat) (fp : Fp)
  | setMove (handle : Nat) (fp : Fp) (source destination : Nat)
  | switchLocation (handle : Nat) (fp : Fp) (source destination offset : Nat)
  | location (handle : Nat)
  | indexWordError (word : IndexWord)
  | replayMove (handle : Nat) (fp : Fp) (container offset : Nat)
  | sumOfLengths (container : Nat)
  | discardMoveDestinations
  -- objects and recipes
  | recordRead (asker : SegAsker)
  | recordReadDone (asker : SegAsker) (bad : Bool)
  | walkStep
  | releaseRecordCopied (object : Nat)
  | objectWordError (object : Nat)
  -- containers
  | chunkPlacement (who : PlaceFor)
  | recordPlacement
  | placementRetry
  | zeroStripeDone
  | forcedSeal
  | unitWriteDone (container position : Nat)
  | stripeWriteComplete
  | quarantineRelease
  | chunkRead (req : ChunkReq)
  | unitReadDone (id : Nat) (bad : Bool)
  | relocationStep
  | relocationEnd
  | stripeBufferWordError (buffer offset : Nat)
  | containerRecordError (word : ContWord) (otherBad : Bool)
  -- drive channels and bays
  | operationSubmit (position : Nat) (op : Op)
  | dispatch (position : Nat)
  | operationComplete (position : Nat) (result : DriveAnswer)
  | operationTimeout (position : Nat)
  | failMember (position : Nat) (cause : FailCause)
  | standbyRequest (position : Nat)
  | standbyOperationEnd (position : Nat) (success : Bool)
  | spinupRequest (position : Nat)
  | driveReady (position units : Nat)
  | spinupTimeout (position : Nat)
  | readbackExpire (bay : Nat)
  | senseChange (bay : Nat) (on : Bool)
  | presenceChange (bay : Nat) (present : Bool)
  | idleTimerExpire (position : Nat)
  -- time, wake and sleep
  | timeTick
  | grantExpire (grant : Nat)
  | alarmFire
  | lanFrame (bytes : List Byte)
  | buttonShort
  | buttonLong
  | entryDrainDone
  | entrySealDone
  | entryCheckpointDone
  | graceExpire
  | selfRefreshEntered
  | selfRefreshExited
  -- the memory controller
  | memoryInitDone (size : Option Nat)
  | refreshTimerExpire (busy : Bool)
  | memoryBurst (burst : Option Burst)
  | readBufferRequest (asker : BufAsker) (count : Nat)
  | readBufferReturn (asker : BufAsker) (count : Nat)
  | regionMapRequest (buckets containers : Nat)
  | markerRequest
  -- read streams
  | seekStep (stream : Nat)
  | chunkIssue (stream : Nat)
  | chunkReadReport (stream : Nat)
  -- scrub and rebuild
  | scrubTimerExpire
  | scrubStepStart
  | scrubReadsDone (bad : List Nat)
  | repairWriteDone
  | adoptLabelWritten
  | checkpointCopyDone
  | rebuildStep
  | rebuildReadsDone (bad : List Nat)
  | rebuildWriteDone
  | rebuildComplete
  -- forming, checkpoints and attach
  | formDrivesReady
  | formLabelsWritten
  | checkpointQuiet
  | checkpointSealed
  | checkpointUnitWritten (position : Nat)
  | checkpointEnd
  | attachLabelsRead
  | slotHeadersRead
  | slotBodyRead
  | replayScanRead
  | replayApply
  | replayWalksDone
  | frameSync
  | noticeSent
  deriving DecidableEq, Repr

end Sys2Proof
end

