-- ==== Sys2Proof/Machine/Tables.lean ====
section
/-!
DEFINITION. The tables that the HS4 keeps in its external memory, as types: the object table with its segment maps, the
chunk index, the container table with its two lists, and the retained copy of the array record. They survive a warm
reset and a sleep, and a checkpoint body is a copy of them (R174, R185).
-/

namespace Sys2Proof.Machine

/-- A table with sparse keys: pairs of a key and a value, keys strictly rising. A key that is not listed has the table's
unlisted value. -/
abbrev Assoc (α : Type) := List (Nat × α)

/-- The state of an index entry (R27). An EMPTY entry is not listed in the table. -/
inductive EntryState where
  | pending | stored | damaged
  deriving DecidableEq, Repr

/-- An index entry that is not EMPTY (R27). -/
structure IdxEntry where
  state : EntryState
  fp : Fp
  container : Nat
  offset : Nat
  refcount : Nat
  move : Option Nat
  deriving DecidableEq, Repr

/-- A bucket header (R28). The two copies of R28 hold the same content. `lostCount` is meaningful while `lost` is set. -/
structure BucketHeader where
  lost : Bool
  lostCount : Nat
  chain : List Nat
  deriving DecidableEq, Repr

/-- A record of the hold list: a stream and a handle (R33). -/
structure Hold where
  stream : Nat
  handle : Nat
  deriving DecidableEq, Repr

/-- The states of an object in use, in the order of R49. `opened` is OPEN. -/
inductive ObjState where
  | opened | sealed | releasePending | releasing | lost
  deriving DecidableEq, Repr

/-- The phase of a release walk (R49). `ended` marks a walk that has passed its map and its tail list and waits for its
RELEASE record (R62). -/
inductive WalkPhase where
  | segments | tail | ended
  deriving DecidableEq, Repr

/-- A walk position (R49), with the number of handles lowered so far (R56). The record of R49 has no such field; the model keeps
the number with the position, over a reset and an attach too (DESIGN CHOICE, log entry 49). -/
structure Walk where
  phase : WalkPhase
  ordinal : Nat
  index : Nat
  lowered : Nat
  deriving DecidableEq, Repr

/-- A segment location: a recipe container and the record's offset (R51). -/
structure SegLoc where
  container : Nat
  offset : Nat
  deriving DecidableEq, Repr

/-- The record of an object in use (R49). `recorded` says whether the object's release places a RELEASE record: of an OPEN object,
whether its stream has copied a SEGMENT record into a container, one that the pool had no slot for among them (R51, R21), and true
of every other object, so that it is false in RELEASING only for an aborted object whose stream copied none (R62). The record of R49
has no such mark. The model keeps it with the object, over a warm reset and in a checkpoint too, since an attach releases OPEN
objects as by abort (R66; DESIGN CHOICE, log entry 34). -/
structure Obj where
  kind : Nat
  owner : Nat
  state : ObjState
  length : Nat
  chunks : Nat
  albums : Albums
  created : Time
  sealedAt : Time
  map : List SegLoc
  stream : Option Nat
  walk : Option Walk
  tail : Option (List Nat)
  recorded : Bool
  deriving DecidableEq, Repr

/-- The states of a container that is not FREE (R73). `opened` is OPEN. A FREE container is not listed in the table. -/
inductive ContState where
  | opened | sealing | sealed | draining
  deriving DecidableEq, Repr

/-- The kind of a container (R73). -/
inductive ContKind where
  | data | recipe
  deriving DecidableEq, Repr

/-- The record of a container that is not FREE (R73). -/
structure Container where
  state : ContState
  kind : ContKind
  seq : Option Nat
  live : Nat
  segRefs : Nat
  entries : Nat
  fill : Nat
  reads : Nat
  scarred : Bool
  deriving DecidableEq, Repr

/-- The layouts of R68, in its order. -/
inductive Layout where
  | mirror2 | parity3 | parity4
  deriving DecidableEq, Repr

/-- The array record (R68), less its state. -/
structure ArrayRec where
  layout : Layout
  number : Nat
  reserved : Nat
  containers : Nat
  seq : Nat
  fence : Nat
  deriving DecidableEq, Repr

/-- The tables of the external memory. `buckets` is B, and `array` the copy of the array record that the container region
holds; `scrubCursor` and `scrubPass` stand beside it (R174). `bad` lists the addresses of the words of the table regions that are
uncorrectable as they stand (R180). -/
structure Tables where
  objects : Assoc Obj
  buckets : Nat
  entries : Assoc IdxEntry
  headers : Assoc BucketHeader
  holds : List Hold
  containers : Assoc Container
  freeList : List Nat
  quarantine : List Nat
  array : Option ArrayRec
  scrubCursor : Nat
  scrubPass : Nat
  bad : List Nat
  deriving DecidableEq, Repr, Inhabited

end Sys2Proof.Machine
end

