-- ==== Sys2Proof/Machine/Assoc.lean ====
section
/-!
DEFINITION. Sparse tables and the external memory as lists in one canonical form: keys strictly rising, and no entry equal
to what an unlisted key reads as. An unlisted byte of the memory reads as zero, which is what step 3 of R173 writes.
-/

namespace Sys2Proof.Machine

/-- The value listed for a key. -/
def getKey {α : Type} : Assoc α → Nat → Option α
  | [], _ => none
  | (j, v) :: t, k => if j = k then some v else getKey t k

/-- The table with a value listed for a key. -/
def putKey {α : Type} : Assoc α → Nat → α → Assoc α
  | [], k, v => [(k, v)]
  | (j, w) :: t, k, v =>
    if k < j then (k, v) :: (j, w) :: t else if k = j then (k, v) :: t else (j, w) :: putKey t k v

/-- The table with a key no longer listed. -/
def dropKey {α : Type} (m : Assoc α) (k : Nat) : Assoc α := m.filter fun e => e.1 != k

/-- The table with a key listed or not. -/
def setKey {α : Type} (m : Assoc α) (k : Nat) : Option α → Assoc α
  | some v => putKey m k v
  | none => dropKey m k

/-- Whether the keys of a table rise strictly. -/
def keysRise {α : Type} : Assoc α → Bool
  | [] => true
  | [_] => true
  | (j, _) :: (k, w) :: t => decide (j < k) && keysRise ((k, w) :: t)

/-- The canonical form of the memory: addresses strictly rising, no zero byte listed. -/
def Memory.wf (m : List Host.Cell) : Bool := keysRise m && m.all fun c => c.2 != 0

/-- The byte of the memory at an address; zero where none is listed (R173). -/
def Memory.get (m : List Host.Cell) (a : Nat) : Byte := (getKey m a).getD 0

/-- The memory with one byte written. -/
def Memory.put (m : List Host.Cell) (a : Nat) (v : Byte) : List Host.Cell :=
  if v = 0 then dropKey m a else putKey m a v

/-- `n` bytes of the memory from an address. -/
def Memory.read (m : List Host.Cell) (a n : Nat) : List Byte := (List.range n).map fun i => Memory.get m (a + i)

/-- The memory with bytes written from an address. -/
def Memory.write : List Host.Cell → Nat → List Byte → List Host.Cell
  | m, _, [] => m
  | m, a, b :: bs => Memory.write (Memory.put m a b) (a + 1) bs

/-- The memory with a range zero-filled (R76). -/
def Memory.zero (m : List Host.Cell) (a n : Nat) : List Host.Cell :=
  m.filter fun c => decide (c.1 < a) || decide (a + n ≤ c.1)

end Sys2Proof.Machine
end

