-- ==== Sys2Proof/Config.lean ====
section
/-!
DEFINITION. The free values of the model: what the manual leaves open and the model does not choose. Each constant is
opaque, so that no proof can see its value and every claim holds whatever it is. The assumption log names each of them.
-/

namespace Sys2Proof.Config

/-- What a 32-bit count or tally that the manual does not bound otherwise holds after it is raised at 4,294,967,295. The
argument names the tally. Log entry 4. -/
opaque tallyPastTop : Nat → BitVec 32

/-- What the 48-bit sequence counter holds after it is advanced at its largest value. Log entry 4. -/
opaque sequencePastTop : BitVec 48

/-- What the 48-bit count of the bytes delivered under a grant holds once it passes its largest value, by the count before and
the bytes sent. Log entry 4. -/
opaque deliveredPastTop : Nat → Nat → BitVec 48

/-- Whether a GET_OBJECT mode byte that is neither EXACT (0) nor NEXT (1) is taken as NEXT. Log entry 5. -/
opaque unlistedModeIsNext : Nat → Bool

/-- Whether a setting byte that is neither 0 nor 1 (enabled, broadcast wake) is taken as on. Log entry 5. -/
opaque unlistedSettingIsOn : Nat → Bool

/-- The bytes-received figure of an INGEST_DATA reply that names no stream. Log entry 6. -/
opaque noStreamReceived : BitVec 48

/-- The free-space figure of an INGEST_DATA reply that names no stream. Log entry 6. -/
opaque noStreamFree : BitVec 32

/-- A byte of a word that the memory delivers flagged as bad, by its address. Log entry 7. -/
opaque badWordByte : Nat → Byte

/-- What masks the byte at an offset of the four table regions. The manual gives the sizes of the records there and not their
packing, so that no byte's value is known. Log entry 8. -/
opaque packMask : Nat → Byte

/-- What a reply or a notice carries, in a field of the given size, for a figure that is absent at that moment (no bay bound,
no object, an alarm that is off). Log entry 10. -/
opaque absentField : Nat → Nat

/-- What a reply or a notice carries as the unit of a finding whose unit is the parity unit. Log entry 10. -/
opaque parityUnit : Nat

/-- How far above 2^40 the number lies that a reply carries for an unlimited allowance. Log entry 10. -/
opaque unlimitedExcess : Nat

end Sys2Proof.Config
end

