-- ==== Sys2Proof/Machine/State.lean ====
section
/-!
DEFINITION. The state of the Remura HS4, block by block, as plain data; the reasons a step can stop; and the state after a
power-on reset. INVENTORY.md lists every piece with the rule that names it. Fields marked (in flight) hold work that has
begun and not ended, which the manual names through the rules of that work.
-/

namespace Sys2Proof.Machine

/-- One field of a message payload: its size in bytes and its value, carried least significant byte first (R196). -/
structure Field where
  size : Nat
  value : Nat
  deriving DecidableEq, Repr

/-- The status codes of a reply, in the order of R200. -/
inductive Status where
  | ok | busy | malformed | unknownKind | tagInUse | badArgument | wrongState | noSuchObject | noSuchGrant | noStream
  | expired | denied | indexFull | arrayFull | arrayFailed
  deriving DecidableEq, Repr

/-! ## LNK: the link interface (chapter 11) -/

/-- The receiver states of R198. -/
inductive Receiver where
  | hunting | header | payload | skipping
  deriving DecidableEq, Repr

/-- The fields of a frame header that has passed its check (R197). -/
structure Header where
  kind : Nat
  flags : Nat
  tag : Nat
  length : Nat
  deriving DecidableEq, Repr

/-- A pending entry that is taken: tag, kind and refusal mark (R199). -/
structure Entry where
  tag : Nat
  kind : Nat
  refusal : Bool
  deriving DecidableEq, Repr

/-- A reply waiting to be sent (R200). `refusal` says that LNK's own checks made it, for a marked entry. -/
structure Reply where
  tag : Nat
  kind : Nat
  status : Status
  fields : List Field
  refusal : Bool
  deriving DecidableEq, Repr

/-- The message that the outbound lane is sending (R201). -/
inductive OutMsg where
  | reply (r : Reply)
  | notice (slot : Nat) (fields : List Field)
  | data (stream offset : Nat) (bytes : List Byte)
  deriving DecidableEq, Repr

/-- The link record (R196). `gathered` holds the header bytes in hand and `lastSync` whether the last byte hunted was
0xC3; `lane` is the message being sent and `laneBytes` its frame. `dispatched` lists the requests handed to their owners
and not yet applied (R200) (in flight). -/
structure Lnk where
  receiver : Receiver
  gathered : List Byte
  lastSync : Bool
  header : Option Header
  hostPowered : Bool
  hold : Bool
  entries : List Entry
  replyQueue : List Reply
  notices : Vector (Option (List Field)) 37
  roundRobin : Nat
  headerErrors : Nat
  breaks : Nat
  malformed : Nat
  discarded : Nat
  lane : Option OutMsg
  laneBytes : List Byte
  dispatched : List Instr
  deriving DecidableEq, Repr

/-! ## ING: the ingest engine (chapter 1) -/

/-- The states of an ingest stream (R1), in its order. `opened` is OPEN. -/
inductive StreamState where
  | free | opened | draining | sealing | aborting | faulted
  deriving DecidableEq, Repr

/-- The fault causes of an ingest stream (R22), in its order. -/
inductive FaultCause where
  | arrayFull | indexFull | memory | arrayFailed
  deriving DecidableEq, Repr

/-- The stages of a chunk record (R11). -/
inductive Stage where
  | waitingLookup | verifying | resolved
  deriving DecidableEq, Repr

/-- What is under way for a chunk record (in flight): nothing, a lookup sent to the index (R12), a VERIFY read (R15), a
confirm hold or a drop hold sent (R16, R33), a placement asked for or waiting (R13, R14), an insertion at a placed location
(container, offset, directory place), or a copy for a handle at that location. -/
inductive Work where
  | idle
  | lookupSent
  | reading
  | confirm
  | drop (reason : HoldReason)
  | place
  | placeWait
  | insert (container offset place : Nat)
  | copy (handle container offset place : Nat)
  deriving DecidableEq, Repr

/-- A chunk record of the resolve queue (R11). `start` is the stream offset of its first byte, whose ring position is that
number modulo 262,144; `no` tells the stream's records apart. -/
structure ChunkRec where
  no : Nat
  start : Nat
  len : Nat
  fp : Fp
  stage : Stage
  cand : Option Nat
  result : Option Nat
  work : Work
  deriving DecidableEq, Repr

/-- The record of an ingest stream (R1). The three ring points are stream offsets (a ring position is the offset modulo
262,144): `received` is the write point, `chunked` the chunked-up-to point, `oldest` the oldest held point. `freed` lists
the freed spans (start, length) that lie behind a byte still held (R6). The verifies in flight are the records in
VERIFYING. `writingOut` (R18), `closeTag` and `abortTag` (R19, R21), `held` (R24) and `queued` (the aborting stream's object
has joined the release queue) are in flight. `sealAt` is the
place of the stream's SEAL record once it has been placed (R54, R55), and `gone` says that a RELEASE_OBJECT has freed the stream's
LOST object, whose id another object may hold since (R64, R65; log entry 50). -/
structure Stream where
  state : StreamState
  object : Option Nat
  k : Option Nat
  received : Nat
  chunked : Nat
  oldest : Nat
  freed : List (Nat × Nat)
  sumA : BitVec 16
  sumB : BitVec 16
  window : List Byte
  crc : Crc
  curLen : Nat
  queue : List ChunkRec
  recipe : List Nat
  segments : Nat
  cause : Option FaultCause
  writingOut : Bool
  closeTag : Option Nat
  abortTag : Option Nat
  held : Bool
  queued : Bool
  sealAt : Option SegLoc
  gone : Bool
  nextNo : Nat
  deriving DecidableEq, Repr

/-- ING: the eight streams (R1) and the chunking setting (R4). -/
structure Ing where
  streams : Vector Stream 8
  k : Nat
  deriving DecidableEq, Repr

/-! ## IDX: what the chunk index keeps on the device (chapter 2) -/

/-- An answer of IDX to a request (R30 to R46). -/
inductive IdxAnswer where
  | none
  | ok | noEntry | pinned | lost | leaked | removed | kept | exists_ | conflict | indexFull | miss
  | hit (handle : Nat) (state : EntryState) (container offset : Nat)
  | inserted (handle : Nat)
  | found (state : EntryState) (fp : Fp) (container offset : Nat)
  | dataLost (fp : Option Fp)
  | sum (bytes : Nat)
  deriving DecidableEq, Repr

/-- IDX's tallies (R48) and its last answer. The index itself lies in the tables. -/
structure Idx where
  collisions : Nat
  leaked : Nat
  stray : Nat
  answer : IdxAnswer
  deriving DecidableEq, Repr

/-! ## ORU: what the object and recipe unit keeps on the device (chapter 3) -/

/-- How far a SEGMENT read for the release walk has come (in flight): not asked, asked of ORU, or asked of CTM. -/
inductive SegRead where
  | idle | wanted | reading
  deriving DecidableEq, Repr

/-- ORU on the device: reader counts and pending-release marks by object id, a mark holding the tag of its RELEASE_OBJECT
(R49, R58); the id cursor (R50); the release queue (R60); the walk's segment in hand and its outstanding read (R61); whether
walks are paused and whether the outstanding segment is still to be lowered (R63); objects whose RELEASE record has been
asked for or copied (R62) (in flight); the two tallies (R67). -/
structure Oru where
  readers : Assoc Nat
  marks : Assoc Nat
  cursor : Nat
  queue : List Nat
  handles : Option (List Nat)
  walkRead : SegRead
  paused : Bool
  finishing : Bool
  recordAsked : List Nat
  recordCopied : List Nat
  skipped : Nat
  lostCount : Nat
  deriving DecidableEq, Repr

/-! ## CTM: the container manager (chapter 4) -/

/-- The array states (R68), in its order. -/
inductive ArrayState where
  | unformed | attaching | normal | degraded | rebuilding | failed
  deriving DecidableEq, Repr

/-- A recipe record as its requester gives it (R52). -/
inductive RecipeRec where
  | segment (object ordinal : Nat) (handles : List Nat)
  | closing (object length chunks kind owner : Nat) (albums : Albums) (segments : Nat)
  | albums (object : Nat) (albums : Albums)
  | release (object : Nat)
  deriving DecidableEq, Repr

/-- A directory place of a container in its stripe buffer (R74, R79): empty until the copy comes, a chunk entry (NEW or
MOVED), or a record entry. -/
inductive Place where
  | empty
  | chunk (moved : Bool) (handle : Nat) (fp : Fp) (offset : Nat)
  | record (rec : RecipeRec) (offset : Nat)
  deriving DecidableEq, Repr

/-- A stripe buffer that a container holds, with the container's directory places so far (R76). Its bytes lie in the
external memory. -/
structure StripeBuf where
  container : Nat
  places : List Place
  deriving DecidableEq, Repr

/-- A directory entry as it is read back from the drives (R74). -/
structure DirEntry where
  kind : Nat
  handle : Nat
  fp : Fp
  offset : Nat
  deriving DecidableEq, Repr

/-- A record placement that a requester has sent to CTM (R80): a stream's SEGMENT or SEAL, an ALBUMS record with the tag of
its SET_ALBUMS, or an object's RELEASE. -/
inductive RecordReq where
  | segment (stream : Nat)
  | closing (stream : Nat)
  | albums (tag object : Nat) (albums : Albums)
  | release (object : Nat)
  deriving DecidableEq, Repr

/-- A placement that waits (R77). -/
inductive Waiter where
  | chunk (who : PlaceFor)
  | record (req : RecordReq)
  deriving DecidableEq, Repr

/-- Who asks for a forced seal (R81). -/
inductive SealBy where
  | stream (i : Nat) | relocation | checkpoint | sleepEntry
  deriving DecidableEq, Repr

/-- A stripe write of a sealed container that has not been taken (R83): the positions whose unit writes are still out, and the
units written. -/
structure StripeWrite where
  container : Nat
  seq : Nat
  out : List Nat
  written : Nat
  deriving DecidableEq, Repr

/-- What the bytes of a read are checked against: a chunk's fingerprint (R87), a SEGMENT record's object and ordinal (R53),
nothing (a directory, R90), or the area CRC (R182). -/
inductive ReadCheck where
  | chunk (fp : Fp)
  | segment (object ordinal : Nat)
  | directory
  | area
  deriving DecidableEq, Repr

/-- Where a read job stands: waiting for read buffers, reading its parts, or reconstructing part `part` (R88). -/
inductive ReadPhase where
  | waiting
  | reading
  | recon (part : Nat)
  deriving DecidableEq, Repr

/-- One touched unit of a read: data unit, range within it, whether it is served degraded and whether an error made it so
(R89), and its bytes. `failed` marks a range that cannot be had. -/
structure Part where
  unit : Nat
  start : Nat
  len : Nat
  degraded : Bool
  byError : Bool
  got : Option (List Byte)
  failed : Bool
  deriving DecidableEq, Repr

/-- Who a read job answers. -/
inductive ReadWho where
  | chunk (who : ReadBy)
  | seg (asker : SegAsker)
  | relocChunk
  | relocDirectory
  | attachDirectory
  | recover (container : Nat)
  deriving DecidableEq, Repr

/-- A read in progress in CTM (R87 to R89). `out` counts its unit reads that have not been taken back; `reread` says that
it has been made once more after a buffer error; `buffered` holds bytes taken from a stripe buffer. -/
structure ReadJob where
  id : Nat
  who : ReadWho
  handle : Option Nat
  cls : Cls
  container : Nat
  offset : Nat
  length : Nat
  check : ReadCheck
  phase : ReadPhase
  parts : List Part
  out : Nat
  reread : Bool
  buffered : Option (List Byte)
  deriving DecidableEq, Repr

/-- What CTM reports of a read. DATA_LOST carries the bytes as read, where they could be gathered. -/
inductive ReadAnswer where
  | reconstructing
  | bytes (bs : List Byte)
  | dataLost (asRead : Option (List Byte))
  | noEntry
  | arrayFailed
  deriving DecidableEq, Repr

/-- A report of CTM that its requester has not yet taken (in flight), with the number of the read it is about. -/
structure ReadReport where
  job : Nat
  who : ReadWho
  answer : ReadAnswer
  deriving DecidableEq, Repr

/-- Where the relocation walk stands (R90). -/
inductive RelocStage where
  | directory
  | scan
  | chunk
  | place (bytes : List Byte)
  | placeWait (bytes : List Byte)
  | copy (bytes : List Byte) (container offset place : Nat)
  | ending
  deriving DecidableEq, Repr

/-- The relocation record (R90), with the directory as read and the stage of the entry at the cursor. `full` says that a
copy's placement was answered ARRAY_FULL (R91), and `buffer` is the read whose data buffer holds the chunk's bytes until they
are copied (R175). -/
structure Reloc where
  source : Nat
  tag : Nat
  cursor : Nat
  moved : Nat
  left : Nat
  destinations : List Nat
  entries : List DirEntry
  stage : RelocStage
  full : Bool
  buffer : Option Nat
  deriving DecidableEq, Repr

/-- CTM on the device: the array state (R68); the four stripe buffers (R76); whether the checkpoint-needed condition is in
force (R77); the waiting placements (R77); record placements and forced seals sent and not yet taken (in flight); forced
seals not yet answered, each with the containers it waits for (R81); stripe writes in progress, by seal sequence (R83); the
zero stripe in progress: the fence it will give and its unit writes out (R187); whether opening and going FREE are held
back by a checkpoint, and the containers whose going FREE is deferred (R188); chunk reads sent and not yet taken, read
jobs, the next job number and the reports not yet taken (R87); the relocation record (R90), and the source of a relocation that
the array's failure has abandoned, which stays DRAINING until the next attach (R91); containers taken out of service whose kind is
still being read or whose live bytes are still to be summed (R182); the three tallies (R93). -/
structure Ctm where
  state : ArrayState
  buffers : Vector (Option StripeBuf) 4
  checkpointNeeded : Bool
  waiting : List Waiter
  recordReqs : List RecordReq
  sealReqs : List SealBy
  sealJobs : List (SealBy × List Nat)
  writes : List StripeWrite
  zeroing : Option (Nat × Nat)
  noOpen : Bool
  noFree : Bool
  deferred : List Nat
  chunkReqs : List ChunkReq
  reads : Assoc ReadJob
  nextRead : Nat
  reports : List ReadReport
  reloc : Option Reloc
  abandoned : Option Nat
  recovering : List (Nat × Bool)
  repairs : Nat
  dataLost : Nat
  degradedReads : Nat
  deriving DecidableEq, Repr

/-! ## DCH: the drive channels (chapter 5) -/

/-- The member states (R95), in its order. -/
inductive MemberState where
  | absent | off | spinupWait | spinningUp | active | standby | failed | rebuilding
  deriving DecidableEq, Repr

/-- The member record (R95). -/
structure Member where
  state : MemberState
  cause : Option FailCause
  errors : Nat
  deriving DecidableEq, Repr

/-- A requester whose stage stalls at a full class queue (R99): the operation that waits to join the queue, and the operations
that the stage goes on with once it has joined, each with the position that it is for. A stage is what a requester does in one
class (DESIGN CHOICE, log entry 54). -/
structure Stalled where
  op : Op
  rest : List (Nat × Op)
  deriving DecidableEq, Repr

/-- The record of a drive channel (R94). Queues, waiting requesters (each with what its stalled stage holds back, R99) and
underrun counts are indexed by class in the order of R97. The frame's length is F. `command` numbers the commands sent to the
drive, so that a completion of an abandoned one is known (R103). `spinupAsked` says that the channel has asked PWC for a
spin-up (R98); `units` is the size the drive's ready report gave (R148, R186) (in flight). -/
structure Channel where
  bay : Option Nat
  member : Member
  queues : Vector (List Op) 5
  waiting : Vector (List Stalled) 5
  frame : List Cls
  position : Nat
  current : Option Op
  command : Nat
  underruns : Vector Nat 5
  retries : Nat
  idleReported : Bool
  spinupAsked : Bool
  units : Option Nat
  deriving DecidableEq, Repr

/-- How a drive operation was returned to its requester (R97, R98, R103 to R106). -/
inductive OpResult where
  | ok (bytes : List Byte)
  | error
  | memberFailed
  | arrayFailed
  | badArgument
  deriving DecidableEq, Repr

/-- An operation returned to its requester and not yet taken by it (in flight). -/
structure Returned where
  position : Nat
  op : Op
  result : OpResult
  deriving DecidableEq, Repr

/-! ## RDS: the read service (chapter 6) -/

/-- The states of a grant (R116). -/
inductive GrantState where
  | free | active | expired | revoked
  deriving DecidableEq, Repr

/-- A grant record (R116). An allowance is a byte count, or none for unlimited. -/
structure Grant where
  state : GrantState
  albums : Albums
  notAfter : Time
  installed : Option Nat
  remaining : Option Nat
  limit : Nat
  opens : Nat
  delivered : Nat
  deriving DecidableEq, Repr

/-- The states of a read stream (R122). -/
inductive ReadState where
  | free | seeking | running | ending
  deriving DecidableEq, Repr

/-- The end reasons of a read stream (R122), in its order. -/
inductive EndReason where
  | complete | stopped | revoked | expired | allowanceSpent | dataLost | arrayFailed
  deriving DecidableEq, Repr

/-- The states of a chunk in flight (R128). -/
inductive FlightState where
  | reading | reconstructing | ready
  deriving DecidableEq, Repr

/-- A chunk in flight (R127): handle, fingerprint, recipe position, object offset of its first byte, delivered range, state,
its bytes while READY, the object offset up to which it has been sent, whether it has been read again (R181), whether it is
discarded when its read comes back (R130, R131), and the read whose data buffer holds it (R175). -/
structure Flight where
  handle : Nat
  fp : Fp
  position : Nat
  base : Nat
  from_ : Nat
  upto : Nat
  state : FlightState
  bytes : List Byte
  sent : Nat
  reread : Bool
  discarded : Bool
  buffer : Option Nat
  deriving DecidableEq, Repr

/-- The segment in hand of a read stream (R122). -/
structure SegInHand where
  ordinal : Nat
  first : Nat
  handles : List Nat
  deriving DecidableEq, Repr

/-- The offered message (R129): its object offset and length, and its bytes once they are in hand (R181). -/
structure Offered where
  offset : Nat
  length : Nat
  bytes : Option (List Byte)
  deriving DecidableEq, Repr

/-- The record of a read stream (R122). `segRead` is the outstanding SEGMENT read and `endPoint` the end point of R130;
`sending` says that the outbound lane is sending a message of this stream, and of what length (in flight). -/
structure ReadStream where
  state : ReadState
  object : Option Nat
  grant : Option Nat
  start : Nat
  stop : Nat
  position : Nat
  offset : Nat
  seg : Option SegInHand
  segRead : SegRead
  flights : List Flight
  offered : Option Offered
  sending : Option Nat
  delivered : Nat
  sent : Nat
  reason : Option EndReason
  endPoint : Nat
  deriving DecidableEq, Repr

/-- RDS: the grants, the read streams and the counts of streams ended by reason (R116, R122, R135). -/
structure Rds where
  grants : Vector Grant 64
  streams : Vector ReadStream 16
  ends : Vector Nat 7
  deriving DecidableEq, Repr

/-! ## IGU: the integrity unit (chapter 7) -/

/-- What a step has of one position's unit (R140): still out, its bytes, lost at submission, or unavailable through an
error. -/
inductive UnitRead where
  | out
  | bytes (bs : List Byte)
  | lost
  | failed
  deriving DecidableEq, Repr

/-- The outcomes of a scrub step (R141): a REPAIRED step names the data unit repaired, or none for parity. -/
inductive Finding where
  | clean
  | repaired (unit : Option Nat)
  | damaged
  deriving DecidableEq, Repr

/-- The pending scrub step (R136): its container and phase, whether it has been deferred (R139), its units by position and
the positions read again (R140), whether it holds its read buffers, and its outcome while a repair write is out (R144). -/
structure ScrubStep where
  container : Nat
  reading : Bool
  deferred : Bool
  started : Bool
  units : Vector UnitRead 4
  reread : List Nat
  outcome : Option Finding
  deriving DecidableEq, Repr

/-- The rebuild of one container (R150): its units by position, the positions read again, whether the reads have begun and
whether the write is out, and whether the walk was abandoned meanwhile (R152). -/
structure RebuildJob where
  container : Nat
  started : Bool
  writing : Bool
  units : Vector UnitRead 4
  reread : List Nat
  abandoned : Bool
  deriving DecidableEq, Repr

/-- An adoption in progress (R148): position, bay, the tag while ADOPT_MEMBER is unanswered, whether step 3 has completed,
the adoption sequence, whether the walk has started, and whether the final label write has been submitted (R151). -/
structure Adoption where
  position : Nat
  bay : Nat
  tag : Option Nat
  labelled : Bool
  seq : Option Nat
  walking : Bool
  closing : Bool
  deriving DecidableEq, Repr

/-- IGU (R136, R153). The cursor and the pass count lie in the tables (R174). -/
structure Igu where
  period : Nat
  timer : Nat
  step : Option ScrubStep
  lag : Nat
  deferred : Nat
  foundRepaired : Nat
  foundDamaged : Nat
  lastFinding : Option (Nat × Finding)
  cleanTotal : Nat
  repairedTotal : Nat
  damagedTotal : Nat
  chunksMarked : Nat
  recordsFailed : Nat
  adoption : Option Adoption
  rebuildCursor : Nat
  rebuild : Option RebuildJob
  rebuildDamage : Nat
  deriving DecidableEq, Repr

/-! ## PWC: the power and wake controller (chapters 5 and 8) -/

/-- The box states (R154), in its order. -/
inductive BoxState where
  | run | sleepEntry | asleep | waking
  deriving DecidableEq, Repr

/-- A wake cause with its details (R161). -/
inductive CauseKind where
  | lan (pattern : Nat) (source : List Byte)
  | button (long : Bool)
  | alarm (time : Time)
  | presence (bay : Nat) (present : Bool)
  deriving DecidableEq, Repr

/-- The wake cause record: its origin (the entry step for SLEEP_ENTRY, none for SLEEP) and its kind (R160, R161). -/
structure WakeCause where
  entryStep : Option Nat
  kind : CauseKind
  deriving DecidableEq, Repr

/-- A filtered input line: its last three samples and its filtered level (R170). -/
structure Line where
  samples : Bool × Bool × Bool
  level : Bool
  deriving DecidableEq, Repr

/-- A bay record (R109): the presence line's level is true for present, the sense line's for on. -/
structure Bay where
  enable : Bool
  sense : Line
  presence : Line
  window : Bool
  powerFault : Bool
  deriving DecidableEq, Repr

/-- An entry of the spin-up queue (R163): a position, its attempt, and whether the member was OFF before it was queued. -/
structure SpinEntry where
  position : Nat
  attempt : Nat
  fromOff : Bool
  deriving DecidableEq, Repr

/-- A spin-up that runs (R163): its attempt, whether it began from OFF, and whether the start command has been sent. -/
structure Spinning where
  attempt : Nat
  fromOff : Bool
  commanded : Bool
  deriving DecidableEq, Repr

/-- Who asked a channel for standby (R108) (in flight): the idle timer or sleep entry; `held` is a sleep-entry request that
was answered NOT_IDLE and waits for the next report of idleness (R158). -/
inductive StandbyAsk where
  | idleTimer | sleepEntry | held
  deriving DecidableEq, Repr

/-- The standby operation in progress on a channel: who asked, and whether it is the second sending (R108). -/
structure StandbyOp where
  asker : StandbyAsk
  second : Bool
  deriving DecidableEq, Repr

/-- A LAN wake pattern (R168). -/
structure WakePattern where
  enabled : Bool
  offset : Nat
  length : Nat
  bytes : List Byte
  mask : BitVec 16
  interval : Nat
  lastWake : Option Time
  deriving DecidableEq, Repr

/-- The lamp modes (R113), in its order. -/
inductive LampMode where
  | normal | test | dark
  deriving DecidableEq, Repr

/-- PWC: the box record (R154), the spin-up queue and running spin-ups by position (R163), standby requests sent and
standby operations by position (R108), bays (R109), lamps (R113), time and alarm (R167), station and patterns (R168), the
button line (R170) and the tallies (R115, R171). `sleepTag` holds the tag of an unanswered SLEEP, `entryCheckpoint` the
outcome recorded at step 4 (R157), and `lateCause` a cause that arrived during step 7 (R160) (in flight). -/
structure Pwc where
  box : BoxState
  hostPower : Bool
  entryStep : Option Nat
  grace : Nat
  graceTimer : Option Nat
  limitAsked : Nat
  limit : Nat
  idleTimes : Vector Nat 4
  idleTimers : Vector Bool 4
  cause : Option WakeCause
  laterCauses : Nat
  sleeps : Nat
  wakes : Vector Nat 4
  sleepTag : Option Nat
  entryCheckpoint : Bool
  lateCause : Option CauseKind
  spinQueue : List SpinEntry
  spinning : Vector (Option Spinning) 4
  standbyAsks : Vector (Option StandbyAsk) 4
  standbyOps : Vector (Option StandbyOp) 4
  bays : Vector Bay 4
  powerFaults : Nat
  lampMode : LampMode
  bayLampsDriven : Bool
  time : Time
  alarm : Option Time
  station : List Byte
  broadcast : Bool
  patterns : Vector WakePattern 8
  filterActive : Bool
  rejected : Nat
  suppressed : Nat
  button : Line
  deriving DecidableEq, Repr

/-! ## MEC: the memory controller (chapter 9) -/

/-- The states of MEC (R172), in its order. -/
inductive MecState where
  | initialising | ready | selfRefresh | failed
  deriving DecidableEq, Repr

/-- The regions of the memory (R174), in map order. -/
inductive Region where
  | rings | stripes | readBuffers | objects | index | containers | pool
  deriving DecidableEq, Repr

/-- The region map in force (R174): B, C and P. -/
structure RegionMap where
  buckets : Nat
  containers : Nat
  pool : Nat
  deriving DecidableEq, Repr

/-- The retained-image marker while valid (R172). -/
structure Marker where
  number : Nat
  buckets : Nat
  containers : Nat
  pool : Nat
  deriving DecidableEq, Repr

/-- How MEC answered the last burst (R175, R180): the bytes delivered and the word numbers flagged as bad. -/
inductive BurstAnswer where
  | none
  | delivered (bytes : List Byte) (flagged : List Nat)
  | written
  | refused
  deriving DecidableEq, Repr

/-- The controller record (R172). `lent` lists the read buffers lent and `bufferQueue` the waiting askers (R175); `bursts` the
bursts that wait; `bad` the addresses of the words that are uncorrectable as they stand, but for those of the table regions,
which stand with the tables, and `reports` the errors reported to their owners and not yet acted on (R180); `entryAsked` and
`exitAsked` what PWC has asked (R177) (in flight); `mapAnswer` the answer to the last map or marker request (R174, R178). -/
structure Mec where
  state : MecState
  size : Option Nat
  refreshRunning : Bool
  owed : Nat
  map : Option RegionMap
  marker : Option Marker
  lent : List (BufAsker × Nat)
  bufferQueue : List (BufAsker × Nat)
  corrected : Nat
  uncorrectable : Vector Nat 7
  overflows : Nat
  bursts : List Burst
  bad : List Nat
  reports : List (Option Region × Nat)
  burstAnswer : BurstAnswer
  entryAsked : Bool
  exitAsked : Bool
  mapAnswer : Option Nat
  deriving DecidableEq, Repr

/-! ## CKR: the checkpoint and replay unit (chapter 10) -/

/-- The two checkpoint slots (R185). -/
inductive Slot where
  | a | b
  deriving DecidableEq, Repr

/-- The operations of CKR (R185), in its order. -/
inductive CkrOp where
  | none | forming | checkpoint | attaching
  deriving DecidableEq, Repr

/-- A member label (R184). -/
structure Label where
  number : Nat
  layout : Layout
  position : Nat
  reserved : Nat
  containers : Nat
  buckets : Nat
  memory : Nat
  incomplete : Bool
  adoption : Option Nat
  deriving DecidableEq, Repr

/-- A slot header (R185), less its own CRC. -/
structure SlotHeader where
  number : Nat
  seq : Nat
  q : Nat
  buckets : Nat
  containers : Nat
  pool : Nat
  fence : Nat
  cursor : Nat
  pass : Nat
  freeHead : Nat
  freeLength : Nat
  quarantineHead : Nat
  quarantineLength : Nat
  bodyLength : Nat
  bodyCrc : Crc
  deriving DecidableEq, Repr

/-- What a checkpoint is written for: a CHECKPOINT request with its tag, sleep entry, forming, or the close of an attach. -/
inductive CkptWhy where
  | request (tag : Nat)
  | sleepEntry
  | forming
  | closing
  deriving DecidableEq, Repr

/-- Where a checkpoint stands (R188): holding the streams, waiting for its forced seal, or copying its slot. -/
inductive CkptPhase where
  | holding | sealing | copying
  deriving DecidableEq, Repr

/-- The checkpoint in progress (R188, R189): the slot and sequence it writes and its Q; the members still written to; the
piece being written, with its CRC so far; the positions whose body write of this piece is out; whether the body has been
taken again, or is to be; the positions whose header write is out, the number of headers written, and whether the
quarantine has been released (step 5 of R188). -/
structure Ckpt where
  why : CkptWhy
  phase : CkptPhase
  slot : Slot
  seq : Nat
  q : Nat
  members : List Nat
  piece : Nat
  crc : Crc
  out : List Nat
  retaken : Bool
  retake : Bool
  headersOut : List Nat
  headersWritten : Nat
  released : Bool
  deriving DecidableEq, Repr

/-- Where forming stands (R186). -/
inductive FormStage where
  | drives | labels | slot
  deriving DecidableEq, Repr

/-- A forming in progress (R186). -/
structure Forming where
  tag : Nat
  layout : Layout
  bays : List Nat
  buckets : Nat
  stage : FormStage
  deriving DecidableEq, Repr

/-- A slot header as read from a member (R191). -/
structure HeadRead where
  position : Nat
  slotB : Bool
  header : SlotHeader
  deriving DecidableEq, Repr

/-- A container that the replay scan accepted (R192), with its directory and, for a recipe container, its records. -/
structure Accepted where
  container : Nat
  kind : ContKind
  seq : Nat
  count : Nat
  entries : List DirEntry
  records : List (Nat × Option RecipeRec)
  deriving DecidableEq, Repr

/-- One thing replay applies (R193): a directory entry of a DATA container, or a record of a RECIPE container at its offset
(none when its record CRC failed). -/
inductive ReplayItem where
  | entry (container : Nat) (e : DirEntry)
  | record (container offset : Nat) (r : Option RecipeRec)
  deriving DecidableEq, Repr

/-- The replay figures (R185, R194): scanned, accepted and applied containers; objects created, sealed and released; and the
counted answers: CONFLICT, LOST, PINNED, NO_ENTRY and records passed over for their CRC. -/
structure Figures where
  scanned : Nat
  accepted : Nat
  applied : Nat
  created : Nat
  sealed : Nat
  released : Nat
  conflicts : Nat
  lost : Nat
  pinned : Nat
  noEntries : Nat
  badRecords : Nat
  deriving DecidableEq, Repr

/-- Where an attach stands (R190 to R195). -/
inductive AttachStage where
  | labels | headers | body | scan | apply | walks | directories | closing
  deriving DecidableEq, Repr

/-- An attach in progress (R190 to R195): the bays tried, the usable positions, whether it is a warm attach, the headers
read, the slot and sequence chosen and whether the other slot has been tried, the members that can supply the body and the
units gathered, the container being scanned and those after it, the unaccepted containers in a row, the accepted
containers, the items still to apply, the containers applied, the object being walked for a replayed RELEASE, the applied DATA
containers whose directories are still to be read again (R194), and the array state derived before the closing checkpoint
(R194, R195). -/
structure Attach where
  tag : Nat
  stage : AttachStage
  bays : List Nat
  usable : List Nat
  warm : Bool
  label : Option Label
  heads : List HeadRead
  slot : Slot
  seq : Nat
  otherTried : Bool
  sources : List Nat
  whole : List Nat
  units : Assoc (List Byte)
  scanning : Option Nat
  rest : List Nat
  misses : Nat
  accepted : List Accepted
  items : List ReplayItem
  applied : List Accepted
  walking : Option Nat
  directories : List Nat
  derived : ArrayState
  figures : Figures
  deriving DecidableEq, Repr

/-- The copy of a slot onto an adopted member (R149): the slot, the unit number within it, whether that unit's write is out,
and the position it is read from while a read is out. -/
structure SlotCopy where
  slot : Slot
  unit : Nat
  writing : Bool
  source : Option Nat
  deriving DecidableEq, Repr

/-- CKR (R185): the current slot with its sequence and Q, the operation in progress, the replay figures, and the work in
flight. -/
structure Ckr where
  slot : Option Slot
  seq : Nat
  q : Nat
  op : CkrOp
  figures : Figures
  ckpt : Option Ckpt
  form : Option Forming
  attach : Option Attach
  copy : Option SlotCopy
  deriving DecidableEq, Repr

/-! ## The whole device -/

/-- The state of the HS4. `tables` and `mem` lie in the external memory; `inUse` says that the tables are in force (they
are retained and not used between a warm reset and ATTACH_ARRAY, R29, R49, R73); `returns` lists operations returned to
their requesters and not yet taken. `pending` is the queue of the commands that wait, first in, first out. -/
structure State where
  lnk : Lnk
  ing : Ing
  idx : Idx
  oru : Oru
  ctm : Ctm
  chans : Vector Channel 4
  rds : Rds
  igu : Igu
  pwc : Pwc
  mec : Mec
  ckr : Ckr
  tables : Tables
  inUse : Bool
  mem : List Host.Cell
  returns : List Returned
  pending : List Instr
  deriving DecidableEq, Repr

/-- Why a command stops with a fault. -/
inductive Fault where
  /-- raised by MEMORY_BURST for a burst that runs past the end of the memory found by R173; safe -/
  | noSuchAddress
  /-- raised by MEMORY_BURST for a burst that R175 does not admit: not 8 to 4,096 bytes of consecutive words, or not within
  one region; safe -/
  | notABurst
  deriving DecidableEq, Repr

/-- Why a command is refused by the model. -/
inductive Refusal where
  /-- raised by an arm of exec whose command has no meaning yet; safe. No arm raises it. -/
  | notModelled (mnemonic : String)
  deriving DecidableEq, Repr

/-- The outcome of a command. -/
abbrev Out := Host.Outcome State Fault Refusal

/-! ## The state after a power-on reset -/

/-- An ingest stream in FREE (R1). -/
def Stream.freeRecord : Stream :=
  { state := .free, object := none, k := none, received := 0, chunked := 0, oldest := 0, freed := [], sumA := 0, sumB := 0,
    window := List.replicate 32 0, crc := 0xFFFFFFFF, curLen := 0, queue := [], recipe := [], segments := 0, cause := none,
    writingOut := false, closeTag := none, abortTag := none, held := false, queued := false, sealAt := none,
    gone := false, nextNo := 0 }

/-- A grant in FREE (R116). -/
def Grant.freeRecord : Grant :=
  { state := .free, albums := 0, notAfter := 0, installed := some 0, remaining := some 0, limit := 1, opens := 0,
    delivered := 0 }

/-- A read stream in FREE (R122). -/
def ReadStream.freeRecord : ReadStream :=
  { state := .free, object := none, grant := none, start := 0, stop := 0, position := 0, offset := 0, seg := none,
    segRead := .idle, flights := [], offered := none, sending := none, delivered := 0, sent := 0, reason := none,
    endPoint := 0 }

/-- An ABSENT member (R95). -/
def Member.absentRecord : Member := { state := .absent, cause := none, errors := 0 }

/-- The service frame after every reset (R100): R W R V R W R B R W V R S W V B. -/
def Channel.defaultFrame : List Cls :=
  [.read, .write, .read, .verify, .read, .write, .read, .rebuild,
   .read, .write, .verify, .read, .scrub, .write, .verify, .rebuild]

/-- A channel after a reset (R94), bound to bay `b`. -/
def Channel.resetRecord (b : Nat) : Channel :=
  { bay := some b, member := Member.absentRecord, queues := Vector.replicate 5 [], waiting := Vector.replicate 5 [],
    frame := Channel.defaultFrame, position := 0, current := none, command := 0,
    underruns := Vector.replicate 5 0, retries := 0,
    idleReported := false, spinupAsked := false, units := none }

/-- A filtered line after a reset: released, absent, off (R109, R170). -/
def Line.low : Line := { samples := (false, false, false), level := false }

/-- A bay after a reset (R109). -/
def Bay.resetRecord : Bay :=
  { enable := false, sense := Line.low, presence := Line.low, window := false, powerFault := false }

/-- A wake pattern after a reset (R168). -/
def WakePattern.resetRecord : WakePattern :=
  { enabled := false, offset := 0, length := 0, bytes := List.replicate 16 0, mask := 0, interval := 0, lastWake := none }

/-- No replay figures (R185). -/
def Figures.zero : Figures :=
  { scanned := 0, accepted := 0, applied := 0, created := 0, sealed := 0, released := 0, conflicts := 0, lost := 0,
    pinned := 0, noEntries := 0, badRecords := 0 }

/-- Empty tables: what a memory of zeros holds before an array is formed or attached. -/
def Tables.blank : Tables :=
  { objects := [], buckets := 0, entries := [], headers := [], holds := [], containers := [], freeList := [],
    quarantine := [], array := none, scrubCursor := 0, scrubPass := 0, bad := [] }

/-- LNK after a reset (R196), with the given content of START. -/
def Lnk.resetRecord (start : List Field) : Lnk :=
  { receiver := .hunting, gathered := [], lastSync := false, header := none, hostPowered := true, hold := false,
    entries := [], replyQueue := [], notices := (Vector.replicate 37 none).set 0 (some start), roundRobin := 15,
    headerErrors := 0, breaks := 0, malformed := 0, discarded := 0, lane := none, laneBytes := [], dispatched := [] }

/-- ING after a reset (R1, R4). -/
def Ing.resetRecord : Ing := { streams := Vector.replicate 8 Stream.freeRecord, k := 13 }

/-- IDX on the device after a reset (R29). -/
def Idx.resetRecord : Idx := { collisions := 0, leaked := 0, stray := 0, answer := .none }

/-- ORU on the device after a reset (R49). -/
def Oru.resetRecord : Oru :=
  { readers := [], marks := [], cursor := 0, queue := [], handles := none, walkRead := .idle, paused := false,
    finishing := false, recordAsked := [], recordCopied := [], skipped := 0, lostCount := 0 }

/-- CTM on the device after a reset (R68). -/
def Ctm.resetRecord : Ctm :=
  { state := .unformed, buffers := Vector.replicate 4 none, checkpointNeeded := false, waiting := [], recordReqs := [],
    sealReqs := [], sealJobs := [], writes := [], zeroing := none, noOpen := false, noFree := false, deferred := [],
    chunkReqs := [], reads := [], nextRead := 0, reports := [], reloc := none, abandoned := none, recovering := [], repairs := 0,
    dataLost := 0, degradedReads := 0 }

/-- RDS after a reset (R116, R122, R135). -/
def Rds.resetRecord : Rds :=
  { grants := Vector.replicate 64 Grant.freeRecord, streams := Vector.replicate 16 ReadStream.freeRecord,
    ends := Vector.replicate 7 0 }

/-- IGU after a reset (R136). -/
def Igu.resetRecord : Igu :=
  { period := 30, timer := 30, step := none, lag := 0, deferred := 0, foundRepaired := 0, foundDamaged := 0,
    lastFinding := none, cleanTotal := 0, repairedTotal := 0, damagedTotal := 0, chunksMarked := 0, recordsFailed := 0,
    adoption := none, rebuildCursor := 0, rebuild := none, rebuildDamage := 0 }

/-- PWC after a reset that leaves the time counter at `time` (R109, R113, R154, R167, R168). -/
def Pwc.resetRecord (time : Time) : Pwc :=
  { box := .run, hostPower := true, entryStep := none, grace := 50, graceTimer := none, limitAsked := 2, limit := 2,
    idleTimes := Vector.replicate 4 20, idleTimers := Vector.replicate 4 false, cause := none, laterCauses := 0,
    sleeps := 0, wakes := Vector.replicate 4 0, sleepTag := none, entryCheckpoint := false, lateCause := none,
    spinQueue := [], spinning := Vector.replicate 4 none, standbyAsks := Vector.replicate 4 none,
    standbyOps := Vector.replicate 4 none, bays := Vector.replicate 4 Bay.resetRecord, powerFaults := 0,
    lampMode := .normal, bayLampsDriven := false, time := time, alarm := none, station := List.replicate 6 0,
    broadcast := false, patterns := Vector.replicate 8 WakePattern.resetRecord, filterActive := false, rejected := 0,
    suppressed := 0, button := Line.low }

/-- MEC after a power-on reset (R172). -/
def Mec.powerOn : Mec :=
  { state := .initialising, size := none, refreshRunning := false, owed := 0, map := none, marker := none, lent := [],
    bufferQueue := [], corrected := 0, uncorrectable := Vector.replicate 7 0, overflows := 0, bursts := [], bad := [],
    reports := [], burstAnswer := .none, entryAsked := false, exitAsked := false, mapAnswer := none }

/-- CKR after a reset (R185). -/
def Ckr.resetRecord : Ckr :=
  { slot := none, seq := 0, q := 0, op := .none, figures := Figures.zero, ckpt := none, form := none, attach := none,
    copy := none }

/-- The content of START after a power-on reset (R196): reason POWER_ON, retained flag clear, INITIALISING, and no memory size
found yet (log entry 10). -/
def startPowerOn : List Field := [⟨1, 0⟩, ⟨1, 0⟩, ⟨1, 0⟩, ⟨6, Config.absentField 6⟩]

/-- The four channels after a reset: channel p is bound to bay p (R94). -/
def resetChannels : Vector Channel 4 := Vector.ofFn fun p => Channel.resetRecord p.val

/-- The HS4 right after a power-on reset, with nothing commanded yet. -/
def State.reset : State :=
  { lnk := Lnk.resetRecord startPowerOn, ing := Ing.resetRecord, idx := Idx.resetRecord, oru := Oru.resetRecord,
    ctm := Ctm.resetRecord, chans := resetChannels, rds := Rds.resetRecord, igu := Igu.resetRecord,
    pwc := Pwc.resetRecord 0, mec := Mec.powerOn, ckr := Ckr.resetRecord, tables := Tables.blank, inUse := false,
    mem := [], returns := [], pending := [] }

end Sys2Proof.Machine
end

