-- ==== Sys2Proof/Machine/Operands.lean ====
section
/-!
DEFINITION. The forms of the HS4's data: the CRC-32 (R10), fields carried least significant byte first (R196), the
geometry of stripes (R70 to R74), and the drive formats of recipe records, directories, labels and slot headers (R52, R74,
R184, R185).
-/

namespace Sys2Proof.Machine

/-! ## CRC-32 (R10) -/

/-- Step 3 of R10, once: shift right, and XOR when a one was shifted out. -/
def crcShift (r : Crc) : Crc := if r.getLsbD 0 then (r >>> 1) ^^^ 0xEDB88320 else r >>> 1

/-- The CRC register after one byte (R10, steps 2 and 3). -/
def crcByte (r : Crc) (b : Byte) : Crc :=
  crcShift (crcShift (crcShift (crcShift (crcShift (crcShift (crcShift (crcShift (r ^^^ b.setWidth 32))))))))

/-- The CRC register after a run of bytes. -/
def crcRun (r : Crc) (bs : List Byte) : Crc := bs.foldl crcByte r

/-- The register at the start of a chunk, frame or record (R10, step 1). -/
def crcStart : Crc := 0xFFFFFFFF

/-- The CRC that a register gives after the last byte (R10, step 4). -/
def crcFinish (r : Crc) : Crc := r ^^^ 0xFFFFFFFF

/-- The CRC-32 of a run of bytes (R10). -/
def crc32 (bs : List Byte) : Crc := crcFinish (crcRun crcStart bs)

/-- The fingerprint of a chunk with the given CRC and length: CRC × 65,536 + (length − 1) (R10). -/
def fingerprint (crc : Crc) (length : Nat) : Fp := BitVec.ofNat 48 (crc.toNat * 65536 + (length - 1))

/-- The CRC part of a fingerprint (R10). -/
def fpCrc (f : Fp) : Nat := f.toNat / 65536

/-- The chunk length that a fingerprint holds (R27). -/
def fpLength (f : Fp) : Nat := f.toNat % 65536 + 1

/-- Whether bytes match a fingerprint in CRC and length (R87). -/
def matchesFp (f : Fp) (bs : List Byte) : Bool :=
  decide (bs.length = fpLength f) && decide ((crc32 bs).toNat = fpCrc f)

/-! ## Fields -/

/-- A number as bytes, least significant first (R196). -/
def leBytes : Nat → Nat → List Byte
  | 0, _ => []
  | n + 1, v => BitVec.ofNat 8 v :: leBytes n (v / 256)

/-- The number that bytes carry, least significant first. -/
def leValue : List Byte → Nat
  | [] => 0
  | b :: bs => b.toNat + 256 * leValue bs

/-- The bytes of a list of fields. -/
def fieldBytes (fs : List Field) : List Byte := (fs.map fun f => leBytes f.size f.value).flatten

/-- The numbers that a run of bytes carries in fields of the given sizes. -/
def readFields : List Nat → List Byte → List Nat
  | [], _ => []
  | n :: ns, bs => leValue (bs.take n) :: readFields ns (bs.drop n)

/-- The byte-wise XOR of two runs (R72). -/
def xorBytes (a b : List Byte) : List Byte := List.zipWith (· ^^^ ·) a b

/-- The byte-wise XOR of several runs of `n` bytes. -/
def xorAll (n : Nat) (rs : List (List Byte)) : List Byte := rs.foldl xorBytes (List.replicate n 0)

/-- A run of bytes cut or zero-filled to `n` bytes. -/
def padTo (n : Nat) (bs : List Byte) : List Byte := bs.take n ++ List.replicate (n - bs.length) 0

/-- A run of bytes with a range replaced. -/
def splice (bs : List Byte) (at_ : Nat) (new : List Byte) : List Byte :=
  bs.take at_ ++ new ++ bs.drop (at_ + new.length)

/-- 2^40: an allowance field at or above it means unlimited (R203). -/
def unlimitedFrom : Nat := 1099511627776

/-- An allowance as a request carries it (R203). -/
def allowanceOf (v : Nat) : Option Nat := if unlimitedFrom ≤ v then none else some v

/-! ## Stripes (R68 to R74) -/

/-- The size of a unit (R70). -/
def unitSize : Nat := 65536

/-- The directory's size (R74). -/
def directorySize : Nat := 4096

/-- The member count n of a layout (R68). -/
def Layout.members : Layout → Nat
  | .mirror2 => 2
  | .parity3 => 3
  | .parity4 => 4

/-- The data units d of a layout (R68). -/
def Layout.dataUnits (l : Layout) : Nat := l.members - 1

/-- The layout that a layout byte names (R186, R196). -/
def layoutOf : Nat → Option Layout
  | 0 => some .mirror2
  | 1 => some .parity3
  | 2 => some .parity4
  | _ => none

/-- The chunk space of a layout, which is also the directory's offset (R74). -/
def Layout.chunkSpace (l : Layout) : Nat := l.dataUnits * unitSize - directorySize

/-- The member that holds the parity unit of stripe `s` (R71). -/
def parityMember (n s : Nat) : Nat := n - 1 - s % n

/-- The member that holds data unit `j` of stripe `s` (R71). -/
def dataMember (n s j : Nat) : Nat := (parityMember n s + 1 + j) % n

/-- The data unit of stripe `s` that lies on a member, or none for the parity unit (R71). -/
def unitOn (n s position : Nat) : Option Nat :=
  (List.range (n - 1)).find? fun j => dataMember n s j = position

/-- The member unit of stripe `c`'s units when each checkpoint slot has `r` units (R70). -/
def stripeUnit (r c : Nat) : Nat := 1 + 2 * r + c

/-- R for a memory size in bytes (R185). -/
def reservedFor (memory : Nat) : Nat := memory / 65536 - 175

/-! ## Recipe records (R52) -/

/-- A run of bytes followed by its CRC-32. -/
def withCrc (bs : List Byte) : List Byte := bs ++ leBytes 4 (crc32 bs).toNat

/-- Whether the last four bytes of a run are the CRC-32 of the bytes before them, the least significant byte first (log entries 9
and 62). -/
def crcHolds (bs : List Byte) : Bool :=
  decide (4 ≤ bs.length) &&
    decide ((crc32 (bs.take (bs.length - 4))).toNat = leValue (bs.drop (bs.length - 4)))

/-- The bytes of a recipe record (R52). Log entry 9 gives the field sizes and the numbers of the kinds. -/
def RecipeRec.bytes : RecipeRec → List Byte
  | .segment o ord hs =>
    withCrc (leBytes 2 0 ++ leBytes 2 o ++ leBytes 2 ord ++ leBytes 2 hs.length ++ (hs.map (leBytes 4)).flatten)
  | .closing o len chunks kind owner al segs =>
    withCrc (leBytes 2 1 ++ leBytes 2 o ++ leBytes 6 len ++ leBytes 4 chunks ++ leBytes 1 kind ++ leBytes 1 owner ++
      leBytes 4 al.toNat ++ leBytes 4 segs)
  | .albums o al => withCrc (leBytes 2 2 ++ leBytes 2 o ++ leBytes 4 al.toNat)
  | .release o => withCrc (leBytes 2 3 ++ leBytes 2 o)

/-- The size of a recipe record (R52). -/
def RecipeRec.size : RecipeRec → Nat
  | .segment _ _ hs => 12 + 4 * hs.length
  | .closing .. => 28
  | .albums .. => 12
  | .release _ => 8

/-- The record kind as a directory entry carries it: R74 names the kinds and gives no number for them (DESIGN CHOICE, log entry
9). -/
def RecipeRec.kind : RecipeRec → Nat
  | .segment .. => 0
  | .closing .. => 1
  | .albums .. => 2
  | .release _ => 3

/-- The largest SEGMENT record (R52). -/
def maxRecordSize : Nat := 16396

/-- The size of the record that begins a run of bytes, by its kind and count fields. -/
def recordSizeAt (bs : List Byte) : Nat :=
  match readFields [2, 2, 2, 2] bs with
  | [0, _, _, count] => 12 + 4 * count
  | [1, _, _, _] => 28
  | [2, _, _, _] => 12
  | _ => 8

/-- The record that begins a run of bytes, when its record CRC holds and its fields are in range (R52, R53). -/
def RecipeRec.parse (bs : List Byte) : Option RecipeRec :=
  let r := bs.take (recordSizeAt bs)
  if crcHolds r = false ∨ r.length ≠ recordSizeAt bs then none
  else match readFields [2] r with
    | [0] =>
      match readFields [2, 2, 2, 2] r with
      | [_, o, ord, count] =>
        if 1 ≤ count ∧ count ≤ 4096 then some (.segment o ord (readFields (List.replicate count 4) (r.drop 8))) else none
      | _ => none
    | [1] =>
      match readFields [2, 2, 6, 4, 1, 1, 4, 4] r with
      | [_, o, len, chunks, kind, owner, al, segs] => some (.closing o len chunks kind owner (BitVec.ofNat 32 al) segs)
      | _ => none
    | [2] =>
      match readFields [2, 2, 4] r with
      | [_, o, al] => some (.albums o (BitVec.ofNat 32 al))
      | _ => none
    | [3] =>
      match readFields [2, 2] r with
      | [_, o] => some (.release o)
      | _ => none
    | _ => none

/-! ## Directories (R74) -/

/-- The number of a container's kind: R74 gives none (DESIGN CHOICE, log entry 9). -/
def ContKind.code : ContKind → Nat
  | .data => 0
  | .recipe => 1

/-- The handle that marks an empty place, which is no handle (R79). -/
def noHandle : Nat := 4294967295

/-- A directory place as bytes (R74, R79). Log entry 9 gives the field sizes, the numbers of the kinds NEW and MOVED, and the
fingerprint and offset of an empty place, all of which R74 and R79 leave open (DESIGN CHOICE). -/
def Place.bytes : Place → List Byte
  | .empty => leBytes 2 0 ++ leBytes 4 noHandle ++ leBytes 6 0 ++ leBytes 4 0
  | .chunk moved h fp off =>
    leBytes 2 (if moved then 1 else 0) ++ leBytes 4 h ++ leBytes 6 fp.toNat ++ leBytes 4 off
  | .record r off => leBytes 2 r.kind ++ leBytes 4 0 ++ leBytes 6 0 ++ leBytes 4 off

/-- A directory header, its area CRC field given (R74). -/
def directoryHeader (kind : ContKind) (seq count : Nat) (area : Crc) : List Byte :=
  leBytes 2 kind.code ++ leBytes 6 seq ++ leBytes 4 count ++ leBytes 4 area.toNat

/-- The directory of a container: header, places, zeros to 4,096 bytes (R74). -/
def directoryBytes (kind : ContKind) (seq : Nat) (area : Crc) (places : List Place) : List Byte :=
  padTo directorySize (directoryHeader kind seq places.length area ++ (places.map Place.bytes).flatten)

/-- Where the area CRC field lies in a data area (R74). -/
def areaCrcAt (l : Layout) : Nat := l.chunkSpace + 12

/-- The area CRC of a data area: the CRC-32 of the whole area with its CRC field taken as zero (R74). -/
def areaCrc (l : Layout) (area : List Byte) : Crc := crc32 (splice area (areaCrcAt l) (List.replicate 4 0))

/-- Whether a data area's CRC field holds its area CRC (R74). -/
def areaGood (l : Layout) (area : List Byte) : Bool :=
  decide (leValue ((area.drop (areaCrcAt l)).take 4) = (areaCrc l area).toNat)

/-- The kind, seal sequence and entry count that a directory's header gives; none for a kind that no container has. -/
def parseHeader (dir : List Byte) : Option (ContKind × Nat × Nat) :=
  match readFields [2, 6, 4] dir with
  | [0, seq, count] => some (.data, seq, count)
  | [1, seq, count] => some (.recipe, seq, count)
  | _ => none

/-- One place read back (R74). -/
def parseEntry (bs : List Byte) : DirEntry :=
  match readFields [2, 4, 6, 4] bs with
  | [k, h, f, o] => ⟨k, h, BitVec.ofNat 48 f, o⟩
  | _ => ⟨0, noHandle, 0, 0⟩

/-- The places of a directory as it is read, as many as its count field says, at most 255 (R74, R142). -/
def parseEntries (dir : List Byte) : List DirEntry :=
  let count := leValue ((dir.drop 8).take 4)
  (List.range (min count 255)).map fun i => parseEntry ((dir.drop (16 + 16 * i)).take 16)

/-! ## Labels and slot headers (R184, R185) -/

/-- The code of a layout (R196). -/
def Layout.code : Layout → Nat
  | .mirror2 => 0
  | .parity3 => 1
  | .parity4 => 2

/-- A member label as the whole of unit 0 (R184). Log entry 9 gives the field sizes. -/
def Label.bytes (l : Label) : List Byte :=
  padTo unitSize (withCrc (fieldBytes
    [⟨4, l.number⟩, ⟨1, l.layout.code⟩, ⟨1, l.layout.members⟩, ⟨1, l.position⟩, ⟨4, l.reserved⟩, ⟨4, l.containers⟩,
     ⟨4, l.buckets⟩, ⟨6, l.memory⟩, ⟨1, if l.incomplete then 1 else 0⟩, ⟨1, if l.adoption.isSome then 1 else 0⟩,
     ⟨6, l.adoption.getD 0⟩]))

/-- The bucket counts that an array may have: the powers of two from 65,536 to 4,194,304 (R186). -/
def bucketCounts : List Nat := [65536, 131072, 262144, 524288, 1048576, 2097152, 4194304]

/-- Whether a number is one of the bucket counts. -/
def bucketCountGood (b : Nat) : Bool := bucketCounts.contains b

/-- The four memory sizes (R172). -/
def memorySizes : List Nat := [536870912, 1073741824, 2147483648, 4294967296]

/-- The label that unit 0 holds, when its CRC checks and its fields are in range (R184). -/
def Label.parse (bs : List Byte) : Option Label :=
  if crcHolds (bs.take 37) = false then none
  else match readFields [4, 1, 1, 1, 4, 4, 4, 6, 1, 1, 6] bs with
    | [number, lay, n, p, r, c, b, m, inc, has, adopt] =>
      match layoutOf lay with
      | some l =>
        if n = l.members ∧ p < n ∧ 1 ≤ c ∧ c ≤ 67108864 ∧ bucketCountGood b = true ∧ memorySizes.contains m = true ∧
            r = reservedFor m ∧ inc ≤ 1 ∧ has ≤ 1 then
          some ⟨number, l, p, r, c, b, m, decide (inc = 1), if has = 1 then some adopt else none⟩
        else none
      | none => none
    | _ => none

/-- A slot header as a unit (R185). Log entry 9 gives the field sizes. -/
def SlotHeader.bytes (h : SlotHeader) : List Byte :=
  padTo unitSize (withCrc (fieldBytes
    [⟨4, h.number⟩, ⟨6, h.seq⟩, ⟨6, h.q⟩, ⟨4, h.buckets⟩, ⟨4, h.containers⟩, ⟨4, h.pool⟩, ⟨4, h.fence⟩, ⟨4, h.cursor⟩,
     ⟨4, h.pass⟩, ⟨4, h.freeHead⟩, ⟨4, h.freeLength⟩, ⟨4, h.quarantineHead⟩, ⟨4, h.quarantineLength⟩, ⟨6, h.bodyLength⟩,
     ⟨4, h.bodyCrc.toNat⟩]))

/-- The slot header that a header unit holds, when its header CRC checks (R185). -/
def SlotHeader.parse (bs : List Byte) : Option SlotHeader :=
  if crcHolds (bs.take 70) = false then none
  else match readFields [4, 6, 6, 4, 4, 4, 4, 4, 4, 4, 4, 4, 4, 6, 4] bs with
    | [number, seq, q, b, c, p, v, cur, pass, fh, fl, qh, ql, len, crc] =>
      some ⟨number, seq, q, b, c, p, v, cur, pass, fh, fl, qh, ql, len, BitVec.ofNat 32 crc⟩
    | _ => none

/-! ## The region map (R174) -/

/-- The bytes of the rings, the stripe buffers, the read buffers and the object table (R174). -/
def fixedRegions : Nat := 15859648

/-- Where the object table begins, after rings, stripe buffers and read buffers (R174, R185). -/
def tablesBase : Nat := 11534336

/-- The size of the index region (R174). -/
def indexRegion (b : Nat) : Nat := 320 * b + 512

/-- The size of the container region (R174). -/
def containerRegion (c : Nat) : Nat := 40 * c + 256

/-- P for B, C and a memory size: the space left divided by 8, capped at 67,108,864; none when below 65,536 (R174). -/
def poolFor (memory b c : Nat) : Option Nat :=
  let used := fixedRegions + indexRegion b + containerRegion c
  let p := min ((memory - used) / 8) 67108864
  if p < 65536 then none else some p

/-- The body's length: the object table, the index, the container region and the pool (R185). -/
def bodyLength (m : RegionMap) : Nat :=
  fixedRegions - tablesBase + indexRegion m.buckets + containerRegion m.containers + 8 * m.pool

/-- The region that an address lies in, or none (R174). With no map in force only the first four regions, whose places do not follow
from B and C, have a place: R174 does not say which regions there are while the map is absent (DESIGN CHOICE, log entry 79). -/
def regionAt (map : Option RegionMap) (a : Nat) : Option Region :=
  if a < 2097152 then some .rings
  else if a < 3145728 then some .stripes
  else if a < tablesBase then some .readBuffers
  else match map with
    | none => if a < fixedRegions then some .objects else none
    | some m =>
      let i := fixedRegions + indexRegion m.buckets
      let c := i + containerRegion m.containers
      if a < fixedRegions then some .objects
      else if a < i then some .index
      else if a < c then some .containers
      else if a < c + 8 * m.pool then some .pool
      else none

/-- The number of a region, in map order. -/
def Region.number : Region → Nat
  | .rings => 0
  | .stripes => 1
  | .readBuffers => 2
  | .objects => 3
  | .index => 4
  | .containers => 5
  | .pool => 6

/-- The first address of a region. -/
def regionBase (m : RegionMap) : Region → Nat
  | .rings => 0
  | .stripes => 2097152
  | .readBuffers => 3145728
  | .objects => tablesBase
  | .index => fixedRegions
  | .containers => fixedRegions + indexRegion m.buckets
  | .pool => fixedRegions + indexRegion m.buckets + containerRegion m.containers

/-- The size of a staging ring, and of a stripe buffer (R6, R76). -/
def ringSize : Nat := 262144

/-- The address of ring position `offset` modulo 262,144 of stream `i` (R174). -/
def ringAddress (i offset : Nat) : Nat := i * ringSize + offset % ringSize

/-- The address of a byte of stripe buffer `k` (R174). -/
def bufferAddress (k offset : Nat) : Nat := 2097152 + k * ringSize + offset

end Sys2Proof.Machine
end

