-- ==== Sys2Proof/Decode.lean ====
section
/-!
DEFINITION. What spells a command. The rows of spec/opcode_table.json give no bits, so that no word of the table spells one;
on the control link a request is spelled by a frame's kind and payload (R203).
-/

namespace Sys2Proof

/-- The command that a word spells by the table's bits. No row of the table gives bits, so no word spells a command. -/
def decodeTableWord (_nbits _w : Nat) : Option Instr := none

end Sys2Proof

namespace Sys2Proof.Machine

/-- Whether a message kind is one of the requests of R203. -/
def isRequestKind (kind : Nat) : Bool := decide (1 ≤ kind) && decide (kind ≤ 0x1C)

/-- The sizes of the fields of each request kind, in order (R203); INGEST_DATA's data follows its fixed fields. -/
def requestFields : Nat → List Nat
  | 0x01 => [1, 1, 4]
  | 0x02 => [1, 6]
  | 0x03 => [1]
  | 0x04 => [1]
  | 0x05 => [1]
  | 0x06 => [2, 1]
  | 0x07 => [2, 4]
  | 0x08 => [2]
  | 0x09 => [1, 4, 4, 6, 1]
  | 0x0A => [1]
  | 0x0B => [1]
  | 0x0C => [2, 1, 6, 6]
  | 0x0D => [1]
  | 0x0E => [4]
  | 0x0F => [4]
  | 0x10 => [1, 1]
  | 0x11 => []
  | 0x12 => [2, 2, 2, 2, 1, 2]
  | 0x13 => [1, 1, 1, 1, 16, 2, 2]
  | 0x14 => [6, 1]
  | 0x15 => [1, 4]
  | 0x16 => [4]
  | 0x17 => [1]
  | 0x18 => [1, 1, 4, 4]
  | 0x19 => []
  | 0x1A => []
  | 0x1B => [1]
  | 0x1C => [1, 1, 32]
  | _ => []

/-- The sum of a kind's field sizes. -/
def requestSize (kind : Nat) : Nat := (requestFields kind).foldl (· + ·) 0

/-- Whether a payload length is the one that a kind's fields give (R203): INGEST_DATA carries 0 to 16,377 bytes of data. -/
def lengthGood (kind length : Nat) : Bool :=
  if kind = 0x02 then decide (7 ≤ length ∧ length ≤ 16384) else decide (length = requestSize kind)

/-- The values of a run of bytes, one each. -/
def byteValues (bs : List Byte) : List Nat := bs.map fun b => b.toNat

/-- The request that a kind, a tag and a payload of the kind's length stand for (R203). -/
def requestOf (kind tag : Nat) (payload : List Byte) : Option Instr :=
  match kind, readFields (requestFields kind) payload with
  | 0x01, [k, o, al] => some (.openIngest tag k o (BitVec.ofNat 32 al))
  | 0x02, [i, off] => some (.ingestData tag i off (payload.drop 7))
  | 0x03, [i] => some (.closeIngest tag i)
  | 0x04, [i] => some (.abortIngest tag i)
  | 0x05, [k] => some (.setChunking tag k)
  | 0x06, [o, mode] => some (.getObject tag o mode)
  | 0x07, [o, al] => some (.setAlbums tag o (BitVec.ofNat 32 al))
  | 0x08, [o] => some (.releaseObject tag o)
  | 0x09, [g, al, na, all, lim] =>
    some (.putGrant tag g (BitVec.ofNat 32 al) (BitVec.ofNat 32 na) (allowanceOf all) lim)
  | 0x0A, [g] => some (.revokeGrant tag g)
  | 0x0B, [g] => some (.getGrant tag g)
  | 0x0C, [o, g, start, count] => some (.openRead tag o g start count)
  | 0x0D, [i] => some (.stopRead tag i)
  | 0x0E, [c] => some (.relocateContainer tag c)
  | 0x0F, [p] => some (.setScrub tag p)
  | 0x10, [b, p] => some (.adoptMember tag b p)
  | 0x11, [] => some (.sleep tag)
  | 0x12, [a, b, c, d, lim, grace] => some (.setPowerPolicy tag a b c d lim grace)
  | 0x13, [n, en, off, len, _, mask, iv] =>
    some (.setWakePattern tag n en off len ((payload.drop 4).take 16) (BitVec.ofNat 16 mask) iv)
  | 0x14, [_, bw] => some (.setStation tag (payload.take 6) bw)
  | 0x15, [off, t] => some (.setAlarm tag off (BitVec.ofNat 32 t))
  | 0x16, [t] => some (.setTime tag (BitVec.ofNat 32 t))
  | 0x17, [m] => some (.setLamps tag m)
  | 0x18, [l, n, _, b] => some (.formArray tag l n (byteValues ((payload.drop 2).take 4)) b)
  | 0x19, [] => some (.attachArray tag)
  | 0x1A, [] => some (.checkpoint tag)
  | 0x1B, [n] => some (.getStatus tag n)
  | 0x1C, [sel, f, _] => some (.setServiceFrame tag sel f (byteValues ((payload.drop 2).take 32)))
  | _, _ => none

end Sys2Proof.Machine
end

