-- ==== Sys2Proof/Machine/Flags.lean ====
section
/-!
DEFINITION. The codes by which states, causes and statuses are carried on the link (R196, R200), the counting of tallies,
and the notice slots and kinds (R202, R203).
-/

namespace Sys2Proof.Machine

/-! ## Codes: a value of a named list is carried as its position in the list (R196) -/

/-- The status byte (R200). -/
def Status.code : Status → Nat
  | .ok => 0
  | .busy => 1
  | .malformed => 2
  | .unknownKind => 3
  | .tagInUse => 4
  | .badArgument => 5
  | .wrongState => 6
  | .noSuchObject => 7
  | .noSuchGrant => 8
  | .noStream => 9
  | .expired => 10
  | .denied => 11
  | .indexFull => 12
  | .arrayFull => 13
  | .arrayFailed => 14

/-- A truth value as a byte. -/
def flag (b : Bool) : Nat := if b then 1 else 0

/-- The code of a stream state (R1). -/
def StreamState.code : StreamState → Nat
  | .free => 0
  | .opened => 1
  | .draining => 2
  | .sealing => 3
  | .aborting => 4
  | .faulted => 5

/-- The code of a fault cause (R1). -/
def FaultCause.code : FaultCause → Nat
  | .arrayFull => 0
  | .indexFull => 1
  | .memory => 2
  | .arrayFailed => 3

/-- The status by which a pending CLOSE_INGEST is answered for a fault cause (R19). -/
def FaultCause.status : FaultCause → Status
  | .arrayFull => .arrayFull
  | .indexFull => .indexFull
  | .memory => .wrongState
  | .arrayFailed => .arrayFailed

/-- The code of an object state (R49). -/
def ObjState.code : ObjState → Nat
  | .opened => 0
  | .sealed => 1
  | .releasePending => 2
  | .releasing => 3
  | .lost => 4

/-- The code of a walk phase (R49); a walk that has ended is past its tail list. -/
def WalkPhase.code : WalkPhase → Nat
  | .segments => 0
  | .tail => 1
  | .ended => 1

/-- The code of an array state (R68). -/
def ArrayState.code : ArrayState → Nat
  | .unformed => 0
  | .attaching => 1
  | .normal => 2
  | .degraded => 3
  | .rebuilding => 4
  | .failed => 5

/-- The code of a member state (R95). -/
def MemberState.code : MemberState → Nat
  | .absent => 0
  | .off => 1
  | .spinupWait => 2
  | .spinningUp => 3
  | .active => 4
  | .standby => 5
  | .failed => 6
  | .rebuilding => 7

/-- The code of a failure cause (R95). -/
def failCauseCode : FailCause → Nat
  | .power => 0
  | .spinup => 1
  | .errors => 2
  | .write => 3
  | .removed => 4

/-- The number of a class, in the order of R97. -/
def classNumber : Cls → Nat
  | .read => 0
  | .write => 1
  | .verify => 2
  | .scrub => 3
  | .rebuild => 4

/-- The class that a slot class byte names (R100). -/
def classOf : Nat → Option Cls
  | 0 => some .read
  | 1 => some .write
  | 2 => some .verify
  | 3 => some .scrub
  | 4 => some .rebuild
  | _ => none

/-- The code of an operation kind (R97). -/
def opKindCode : OpKind → Nat
  | .read => 0
  | .write => 1
  | .standby => 2
  | .labelRead => 3

/-- The code of a grant state (R116). -/
def GrantState.code : GrantState → Nat
  | .free => 0
  | .active => 1
  | .expired => 2
  | .revoked => 3

/-- The code of a read stream state (R122). -/
def ReadState.code : ReadState → Nat
  | .free => 0
  | .seeking => 1
  | .running => 2
  | .ending => 3

/-- The code of an end reason (R122). -/
def EndReason.code : EndReason → Nat
  | .complete => 0
  | .stopped => 1
  | .revoked => 2
  | .expired => 3
  | .allowanceSpent => 4
  | .dataLost => 5
  | .arrayFailed => 6

/-- The code of a chunk's state in flight (R128). -/
def FlightState.code : FlightState → Nat
  | .reading => 0
  | .reconstructing => 1
  | .ready => 2

/-- The code of a box state (R154). -/
def BoxState.code : BoxState → Nat
  | .run => 0
  | .sleepEntry => 1
  | .asleep => 2
  | .waking => 3

/-- The code of an MEC state (R172). -/
def MecState.code : MecState → Nat
  | .initialising => 0
  | .ready => 1
  | .selfRefresh => 2
  | .failed => 3

/-- The code of a lamp mode (R113). -/
def LampMode.code : LampMode → Nat
  | .normal => 0
  | .test => 1
  | .dark => 2

/-- The code of a receiver state (R196). -/
def Receiver.code : Receiver → Nat
  | .hunting => 0
  | .header => 1
  | .payload => 2
  | .skipping => 3

/-- The code of an operation of CKR (R185). -/
def CkrOp.code : CkrOp → Nat
  | .none => 0
  | .forming => 1
  | .checkpoint => 2
  | .attaching => 3

/-- The code of a slot (R185). -/
def Slot.code : Slot → Nat
  | .a => 0
  | .b => 1

/-- The number of a wake cause kind, in the order of R161. -/
def CauseKind.code : CauseKind → Nat
  | .lan .. => 0
  | .button _ => 1
  | .alarm _ => 2
  | .presence .. => 3

/-- The wake cause record as it is carried: origin, entry step, cause kind and seven bytes of details (R203). -/
def causeFields (c : WakeCause) : List Field :=
  [⟨1, match c.entryStep with | some _ => 0 | none => 1⟩, ⟨1, c.entryStep.getD 0⟩, ⟨1, c.kind.code⟩] ++
    match c.kind with
    | .lan p src => [⟨1, p⟩, ⟨6, leValue src⟩]
    | .button long => [⟨1, flag long⟩, ⟨6, 0⟩]
    | .alarm t => [⟨4, t.toNat⟩, ⟨3, 0⟩]
    | .presence b l => [⟨1, b⟩, ⟨1, if l then 0 else 1⟩, ⟨5, 0⟩]

/-! ## Tallies -/

/-- The largest value of a 32-bit count. -/
def countTop : Nat := 4294967295

/-- A 32-bit count raised by one. The manual does not say what a count holds past its top (log entry 4); `which` tells the
counts apart. -/
def tallyUp (which n : Nat) : Nat := if n < countTop then n + 1 else (Config.tallyPastTop which).toNat

/-- An underrun count raised by one: it stops at its top (R102). -/
def underrunUp (n : Nat) : Nat := if n < countTop then n + 1 else countTop

/-- The 48-bit count of the bytes delivered under a grant raised by a message's length (R116, R129). Past its top the manual is
silent (log entry 4). -/
def deliveredUp (n len : Nat) : Nat :=
  if n + len < 281474976710656 then n + len else (Config.deliveredPastTop n len).toNat

/-- The sequence counter advanced by one (R68, R82). Past its top the manual is silent (log entry 4). -/
def sequenceUp (n : Nat) : Nat := if n + 1 < 281474976710656 then n + 1 else Config.sequencePastTop.toNat

/-! ## Notice slots (R202) -/

/-- START. -/
def slotStart : Nat := 0
/-- LINK. -/
def slotLink : Nat := 1
/-- ARRAY. -/
def slotArray : Nat := 2
/-- MEMBER of a position. -/
def slotMember (p : Nat) : Nat := 3 + p
/-- INGEST_END of a stream. -/
def slotIngestEnd (i : Nat) : Nat := 7 + i
/-- STREAM_END of a read stream. -/
def slotStreamEnd (i : Nat) : Nat := 15 + i
/-- SCRUB. -/
def slotScrub : Nat := 31
/-- WAKE. -/
def slotWake : Nat := 32
/-- SLEEP_READY. -/
def slotSleepReady : Nat := 33
/-- MEMORY. -/
def slotMemory : Nat := 34
/-- BUTTON. -/
def slotButton : Nat := 35
/-- ALARM. -/
def slotAlarm : Nat := 36

/-- The message kind of the notice in a slot (R203). -/
def noticeKind (slot : Nat) : Nat :=
  if slot = 0 then 0x40 else if slot = 1 then 0x41 else if slot = 2 then 0x42 else if slot < 7 then 0x43
  else if slot < 15 then 0x44 else if slot < 31 then 0x45 else 0x46 + (slot - 31)

/-- The message kinds of the requests (R203). -/
def kindOpenIngest : Nat := 0x01
def kindIngestData : Nat := 0x02
def kindCloseIngest : Nat := 0x03
def kindAbortIngest : Nat := 0x04
def kindSetChunking : Nat := 0x05
def kindGetObject : Nat := 0x06
def kindSetAlbums : Nat := 0x07
def kindReleaseObject : Nat := 0x08
def kindPutGrant : Nat := 0x09
def kindRevokeGrant : Nat := 0x0A
def kindGetGrant : Nat := 0x0B
def kindOpenRead : Nat := 0x0C
def kindStopRead : Nat := 0x0D
def kindRelocateContainer : Nat := 0x0E
def kindSetScrub : Nat := 0x0F
def kindAdoptMember : Nat := 0x10
def kindSleep : Nat := 0x11
def kindSetPowerPolicy : Nat := 0x12
def kindSetWakePattern : Nat := 0x13
def kindSetStation : Nat := 0x14
def kindSetAlarm : Nat := 0x15
def kindSetTime : Nat := 0x16
def kindSetLamps : Nat := 0x17
def kindFormArray : Nat := 0x18
def kindAttachArray : Nat := 0x19
def kindCheckpoint : Nat := 0x1A
def kindGetStatus : Nat := 0x1B
def kindSetServiceFrame : Nat := 0x1C

end Sys2Proof.Machine
end

