-- ==== Sys2Proof/Machine/Packing.lean ====
section
/-!
DEFINITION. The four table regions of the memory byte by byte (R174, R185): the object table with its tail lists, the index with
its bucket headers and hold list, the container region, and the segment map pool. The manual gives every record's size and no
packing inside it: the packing here is the model's own (DESIGN CHOICE, log entry 8), and every byte is masked by a free value,
so that no byte's value is known while a body read back still gives the tables that were written.
-/

namespace Sys2Proof.Machine

/-! ## Records -/

/-- A byte of a run; zero past its end. -/
def byteOf (bs : List Byte) (k : Nat) : Byte := bs[k]?.getD 0

/-- A field that may be absent: a byte that says whether it is present, and its value. -/
def maybeFields (size : Nat) : Option Nat → List Field
  | some v => [⟨1, 1⟩, ⟨size, v⟩]
  | none => [⟨1, 0⟩, ⟨size, 0⟩]

/-- An absent field read back. -/
def maybeOf (present v : Nat) : Option Nat := if present = 1 then some v else none

/-- The code of a walk phase in a record, where a walk that has ended is told apart (R49, R62). -/
def WalkPhase.packed : WalkPhase → Nat
  | .segments => 0
  | .tail => 1
  | .ended => 2

/-- A walk phase read back. -/
def walkPhaseOf : Nat → WalkPhase
  | 0 => .segments
  | 1 => .tail
  | _ => .ended

/-- An object state read back. -/
def objStateOf : Nat → ObjState
  | 0 => .opened
  | 1 => .sealed
  | 2 => .releasePending
  | 3 => .releasing
  | _ => .lost

/-- The 64 bytes of an object's record (R49): its map's length stands for the map, which lies in the pool, and its tail list's
length for the tail list. A free slot begins with a zero byte. -/
def Obj.packed (r : Obj) : List Byte :=
  let w := r.walk.getD { phase := .segments, ordinal := 0, index := 0, lowered := 0 }
  fieldBytes
    ([⟨1, r.state.code + 1⟩, ⟨1, r.kind⟩, ⟨1, r.owner⟩, ⟨1, flag r.recorded⟩, ⟨6, r.length⟩, ⟨4, r.chunks⟩,
      ⟨4, r.albums.toNat⟩, ⟨4, r.created.toNat⟩, ⟨4, r.sealedAt.toNat⟩, ⟨4, r.map.length⟩] ++ maybeFields 1 r.stream ++
     [⟨1, flag r.walk.isSome⟩, ⟨1, w.phase.packed⟩, ⟨4, w.ordinal⟩, ⟨4, w.index⟩, ⟨4, w.lowered⟩] ++
     maybeFields 2 (r.tail.map List.length))

/-- The sizes of the fields of an object's record. -/
def objSizes : List Nat := [1, 1, 1, 1, 6, 4, 4, 4, 4, 4, 1, 1, 1, 1, 4, 4, 4, 1, 2]

/-- The code of a container state; 0 is FREE. -/
def ContState.packed : ContState → Nat
  | .opened => 1
  | .sealing => 2
  | .sealed => 3
  | .draining => 4

/-- A container state read back. -/
def contStateOf : Nat → ContState
  | 1 => .opened
  | 2 => .sealing
  | 3 => .sealed
  | _ => .draining

/-- The 16 bytes of a container's record (R73). -/
def Container.packed (r : Container) : List Byte :=
  fieldBytes
    [⟨1, r.state.packed + 8 * r.kind.code + 16 * flag r.seq.isSome + 32 * flag r.scarred⟩, ⟨6, r.seq.getD 0⟩, ⟨3, r.live⟩,
     ⟨1, r.segRefs⟩, ⟨1, r.entries⟩, ⟨3, r.fill⟩, ⟨1, r.reads⟩]

/-- A container's record read back; none when it is FREE. -/
def Container.unpacked (bs : List Byte) : Option Container :=
  match readFields [1, 6, 3, 1, 1, 3, 1] bs with
  | [head, seq, live, refs, entries, fill, reads] =>
    if head % 8 = 0 then none
    else some
      { state := contStateOf (head % 8), kind := if head / 8 % 2 = 0 then .data else .recipe,
        seq := if head / 16 % 2 = 1 then some seq else none, live := live, segRefs := refs, entries := entries, fill := fill,
        reads := reads, scarred := decide (head / 32 % 2 = 1) }
  | _ => none

/-- The code of an entry state; 0 is EMPTY. -/
def EntryState.packed : EntryState → Nat
  | .pending => 1
  | .stored => 2
  | .damaged => 3

/-- An entry state read back. -/
def entryStateOf : Nat → EntryState
  | 1 => .pending
  | 2 => .stored
  | _ => .damaged

/-- The 32 bytes of an index entry that is not EMPTY (R27). An EMPTY one begins with a zero byte. -/
def IdxEntry.packed (e : IdxEntry) : List Byte :=
  fieldBytes
    ([⟨1, e.state.packed⟩, ⟨6, e.fp.toNat⟩, ⟨4, e.container⟩, ⟨4, e.offset⟩, ⟨2, e.refcount⟩] ++ maybeFields 4 e.move)

/-- The sizes of the fields of an index entry. -/
def entrySizes : List Nat := [1, 6, 4, 4, 2, 1, 4]

/-- An index entry read back; none when it is EMPTY. -/
def unpackedEntry (bs : List Byte) : Option IdxEntry :=
  match readFields entrySizes bs with
  | [st, fp, c, off, count, hasMove, move] =>
    if st = 0 then none
    else some
      { state := entryStateOf st, fp := BitVec.ofNat 48 fp, container := c, offset := off, refcount := count,
        move := maybeOf hasMove move }
  | _ => none

/-- A bucket header that no table lists: not lost, with an empty chain. -/
def BucketHeader.blank : BucketHeader := { lost := false, lostCount := 0, chain := [] }

/-- The 16 bytes of a copy of the header of bucket b (R28), with the overflow entry that follows overflow entry b on its
chain. The chain is given by its head and these links, so that it lies in no word of an entry and stands when an entry's words
are bad (R47). -/
def BucketHeader.packed (h : BucketHeader) (next : Option Nat) : List Byte :=
  fieldBytes ([⟨1, flag h.lost⟩, ⟨4, h.lostCount⟩] ++ maybeFields 4 h.chain.head? ++ maybeFields 4 next)

/-- The sizes of the fields of a copy of a bucket header. -/
def headerSizes : List Nat := [1, 4, 1, 4, 1, 4]

/-- The array record with the heads and lengths of the two lists and IGU's cursor and pass count (R174). -/
def Tables.packedArray (t : Tables) : List Byte :=
  let lists : List Field :=
    [⟨4, t.freeList.headD 0⟩, ⟨4, t.freeList.length⟩, ⟨4, t.quarantine.headD 0⟩, ⟨4, t.quarantine.length⟩,
     ⟨4, t.scrubCursor⟩, ⟨4, t.scrubPass⟩]
  fieldBytes (lists ++ match t.array with
    | some a =>
      [⟨1, 1⟩, ⟨1, a.layout.code⟩, ⟨4, a.number⟩, ⟨4, a.reserved⟩, ⟨4, a.containers⟩, ⟨6, a.seq⟩, ⟨4, a.fence⟩]
    | none => [])

/-! ## Regions written -/

/-- What follows a number in a list. -/
def nextIn : List Nat → Nat → Option Nat
  | x :: rest, o => if x = o then rest.head? else nextIn rest o
  | [], _ => none

/-- The overflow entry that follows another on its chain. -/
def Tables.chainNext (t : Tables) (o : Nat) : Option Nat := t.headers.findSome? fun e => nextIn e.2.chain o

/-- The first overflow handle, 2^31 (R26). -/
def overflowBase : Nat := 2147483648

/-- The bytes that the object records take. -/
def objectRecords : Nat := 4194240

/-- A byte of the object table region (R174): 65,535 records of 64 bytes, then 8 tail lists of 4,096 handles. -/
def Tables.objectByte (t : Tables) (k : Nat) : Byte :=
  if k < objectRecords then byteOf (((getKey t.objects (k / 64 + 1)).map Obj.packed).getD []) (k % 64)
  else
    let j := k - objectRecords
    let tails := t.objects.filterMap fun e => e.2.tail
    byteOf (leBytes 4 ((tails[j / 16384]?.getD [])[j % 16384 / 4]?.getD 0)) (j % 4)

/-- A byte of the index region (R174): 9 × B entries of 32 bytes, the ways first, then two copies of each bucket header, then
two copies of the hold list. -/
def Tables.indexByte (t : Tables) (k : Nat) : Byte :=
  let b := t.buckets
  let entry (h : Nat) : List Byte := ((getKey t.entries h).map IdxEntry.packed).getD []
  if k < 256 * b then byteOf (entry (k / 32)) (k % 32)
  else if k < 288 * b then byteOf (entry (overflowBase + (k / 32 - 8 * b))) (k % 32)
  else if k < 320 * b then
    let n := (k - 288 * b) / 32
    byteOf (((getKey t.headers n).getD BucketHeader.blank).packed (t.chainNext n)) (k % 16)
  else
    let j := (k - 320 * b) % 256
    byteOf (((t.holds[j / 8]?).map fun h => fieldBytes [⟨1, 1⟩, ⟨1, h.stream⟩, ⟨4, h.handle⟩]).getD []) (j % 8)

/-- A byte of the container region (R174): for each container two copies of its record and two of its list link, then two
copies of the array record. -/
def Tables.containerByte (t : Tables) (containers k : Nat) : Byte :=
  if k < 40 * containers then
    let c := k / 40
    if k % 40 < 32 then byteOf (((getKey t.containers c).map Container.packed).getD []) (k % 40 % 16)
    else byteOf (leBytes 4 (((nextIn t.freeList c).or (nextIn t.quarantine c)).getD noHandle)) (k % 40 % 4)
  else byteOf t.packedArray ((k - 40 * containers) % 128)

/-- A byte of the segment map pool (R51, R174): the locations of every map, object after object, in slots of 8 bytes. -/
def Tables.poolByte (t : Tables) (k : Nat) : Byte :=
  let maps := (t.objects.map fun e => e.2.map).flatten
  byteOf (((maps[k / 8]?).map fun l => fieldBytes [⟨4, l.container⟩, ⟨4, l.offset⟩]).getD []) (k % 8)

/-- The size of the object table region (R174). -/
def objectRegion : Nat := fixedRegions - tablesBase

/-- The byte at an offset of the four table regions, when the tables are as given (R174, R185; log entry 8). -/
def tableByte (t : Tables) (k : Nat) : Byte :=
  let containers := (t.array.map fun a => a.containers).getD 0
  let i := objectRegion + indexRegion t.buckets
  let c := i + containerRegion containers
  Config.packMask k ^^^
    if k < objectRegion then t.objectByte k
    else if k < i then t.indexByte (k - objectRegion)
    else if k < c then t.containerByte containers (k - i)
    else t.poolByte (k - c)

/-! ## Regions read back -/

/-- `n` bytes from an offset of a body. -/
def bytesFrom (f : Nat → Byte) (k n : Nat) : List Byte := (List.range n).map fun j => f (k + j)

/-- A list that begins at a head and goes on by links, of a given length. -/
def followLinks (link : Nat → Nat) : Nat → Nat → List Nat
  | 0, _ => []
  | n + 1, h => h :: followLinks link n (link h)

/-- A chain that begins at a head and goes on while there is a next entry. The fuel is the number of overflow entries. -/
def followChain (next : Nat → Option Nat) : Nat → Option Nat → List Nat
  | n + 1, some o => o :: followChain next n (next o)
  | _, _ => []

/-- An object's record read back, its map being the next locations of the pool and its tail list the next tail list. -/
def unpackedObj (bs : List Byte) (map : Nat → List SegLoc) (tail : Nat → List Nat) : Option Obj :=
  match readFields objSizes bs with
  | [st, kind, owner, rec, len, chunks, al, created, sealedAt, n, hasStream, stream, hasWalk, phase, ord, idx, low, hasTail,
      tailLen] =>
    if st = 0 then none
    else some
      { kind := kind, owner := owner, state := objStateOf (st - 1), length := len, chunks := chunks,
        albums := BitVec.ofNat 32 al, created := BitVec.ofNat 32 created, sealedAt := BitVec.ofNat 32 sealedAt,
        map := map n, stream := maybeOf hasStream stream,
        walk := if hasWalk = 1 then
            some { phase := walkPhaseOf phase, ordinal := ord, index := idx, lowered := low } else none,
        tail := if hasTail = 1 then some (tail tailLen) else none, recorded := decide (rec = 1) }
  | _ => none

/-- The objects of a body: `pool` is the offset of the segment map pool. The walk over the slots carries the objects found, the
pool slots used and the tail lists used. -/
def unpackedObjects (f : Nat → Byte) (pool : Nat) : Assoc Obj :=
  let step (acc : Assoc Obj × Nat × Nat) (i : Nat) : Assoc Obj × Nat × Nat :=
    let map (n : Nat) : List SegLoc := (List.range n).map fun j =>
      match readFields [4, 4] (bytesFrom f (pool + 8 * (acc.2.1 + j)) 8) with
      | [c, off] => { container := c, offset := off }
      | _ => { container := 0, offset := 0 }
    let tail (n : Nat) : List Nat := (List.range n).map fun j =>
      leValue (bytesFrom f (objectRecords + 16384 * acc.2.2 + 4 * j) 4)
    match unpackedObj (bytesFrom f (64 * i) 64) map tail with
    | some r => ((i + 1, r) :: acc.1, acc.2.1 + r.map.length, acc.2.2 + if r.tail.isSome then 1 else 0)
    | none => acc
  ((List.range 65535).foldl step ([], 0, 0)).1.reverse

/-- The tables that a body stands for, for B buckets and C containers (R191): the inverse of `tableByte` on tables whose fields
lie in their ranges. -/
def tablesOfBody (body : List Byte) (buckets containers : Nat) : Tables :=
  let f (k : Nat) : Byte := byteOf body k ^^^ Config.packMask k
  let entry (n : Nat) : Option IdxEntry := unpackedEntry (bytesFrom f (objectRegion + 32 * n) 32)
  let header (b : Nat) : List Nat := readFields headerSizes (bytesFrom f (objectRegion + 288 * buckets + 32 * b) 16)
  let next (o : Nat) : Option Nat := match header o with
    | [_, _, _, _, has, o'] => maybeOf has o'
    | _ => none
  let i := objectRegion + indexRegion buckets
  let headers := (List.range buckets).filterMap fun b =>
    match header b with
    | [lost, m, has, head, _, _] =>
      let h : BucketHeader :=
        { lost := decide (lost = 1), lostCount := m, chain := followChain next buckets (maybeOf has head) }
      if h = BucketHeader.blank then none else some (b, h)
    | _ => none
  let holds := (List.range 32).filterMap fun j =>
    match readFields [1, 1, 4] (bytesFrom f (objectRegion + 320 * buckets + 8 * j) 8) with
    | [1, stream, handle] => some { stream := stream, handle := handle }
    | _ => none
  let link (c : Nat) : Nat := leValue (bytesFrom f (i + 40 * c + 32) 4)
  let array := readFields [4, 4, 4, 4, 4, 4, 1, 1, 4, 4, 4, 6, 4] (bytesFrom f (i + 40 * containers) 128)
  let lists : Nat × Nat × Nat × Nat × Nat × Nat := match array with
    | fh :: fl :: qh :: ql :: cur :: pass :: _ => (fh, fl, qh, ql, cur, pass)
    | _ => (0, 0, 0, 0, 0, 0)
  { objects := unpackedObjects f (i + containerRegion containers), buckets := buckets,
    entries :=
      (List.range (8 * buckets)).filterMap (fun h => (entry h).map fun e => (h, e)) ++
        (List.range buckets).filterMap fun o => (entry (8 * buckets + o)).map fun e => (overflowBase + o, e),
    headers := headers, holds := holds,
    containers := (List.range containers).filterMap fun c =>
      (Container.unpacked (bytesFrom f (i + 40 * c) 16)).map fun r => (c, r),
    freeList := followLinks link lists.2.1 lists.1, quarantine := followLinks link lists.2.2.2.1 lists.2.2.1,
    array := match array with
      | [_, _, _, _, _, _, 1, lay, number, r, c, seq, fence] =>
        (layoutOf lay).map fun l =>
          { layout := l, number := number, reserved := r, containers := c, seq := seq, fence := fence }
      | _ => none,
    scrubCursor := lists.2.2.2.2.1, scrubPass := lists.2.2.2.2.2, bad := [] }

end Sys2Proof.Machine
end

