-- ==== Sys2Proof/Machine/TableOps.lean ====
section
/-!
DEFINITION. The writes of the tables, each with the words of the memory that it writes (R180): a bad word of a table region is
good from the moment at which the block that owns the region writes it. Log entry 8 gives the places of the records.
-/

namespace Sys2Proof.Machine

/-- Whether the word at address `w` overlaps `n` bytes from address `a`. -/
def wordTouches (a n w : Nat) : Bool := decide (w < a + n) && decide (a < w + 8)

/-- The bytes of the word of the table regions at an address. -/
def Tables.wordAt (t : Tables) (w : Nat) : List Byte := (List.range 8).map fun i => tableByte t (w - tablesBase + i)

/-- The tables after one write of theirs: a bad word is good from then on when the write touches it, or changes its bytes
(R180). -/
def Tables.write (t : Tables) (touch : Nat → Bool) (new : Tables) : Tables :=
  { new with bad := t.bad.filter fun w => !touch w && decide (t.wordAt w = new.wordAt w) }

/-! ## Where the records lie (R174) -/

/-- The address of an object's record. -/
def objectAt (o : Nat) : Nat := tablesBase + 64 * (o - 1)

/-- The address of the first of the tail lists. -/
def tailsAt : Nat := tablesBase + objectRecords

/-- The address of the record of the entry that a handle names (R26). -/
def Tables.entryAt (t : Tables) (h : Nat) : Nat :=
  fixedRegions + if h < overflowBase then 32 * h else 256 * t.buckets + 32 * (h - overflowBase)

/-- The address of the two copies of a bucket's header. -/
def Tables.headerAt (t : Tables) (b : Nat) : Nat := fixedRegions + 288 * t.buckets + 32 * b

/-- The address of the two copies of the hold list. -/
def Tables.holdsAt (t : Tables) : Nat := fixedRegions + 320 * t.buckets

/-- The address of the two copies of a container's record, its two link copies following them in one word. -/
def Tables.contAt (t : Tables) (c : Nat) : Nat := fixedRegions + indexRegion t.buckets + 40 * c

/-- The address of the two copies of the array record, with what stands beside it. -/
def Tables.arrayAt (t : Tables) : Nat := t.contAt ((t.array.map fun a => a.containers).getD 0)

/-- The address of the segment map pool. -/
def Tables.poolAt (t : Tables) : Nat := t.arrayAt + 256

/-! ## The writes -/

/-- The words that a write of an object's record writes: the record, and with a changed map or tail list the pool slots or the
lists from the object's own on. -/
def Tables.objWords (t : Tables) (o : Nat) (new : Option Obj) (w : Nat) : Bool :=
  let old := getKey t.objects o
  let before := t.objects.filter fun e => e.1 < o
  let maps := decide ((old.map fun r => r.map).getD [] ≠ (new.map fun r => r.map).getD [])
  let tails := decide ((old.bind fun r => r.tail) ≠ new.bind fun r => r.tail)
  wordTouches (objectAt o) 64 w ||
    (maps && decide (t.poolAt + 8 * (before.map fun e => e.2.map.length).sum ≤ w)) ||
    (tails && decide (tailsAt + 16384 * (before.filter fun e => e.2.tail.isSome).length ≤ w) && decide (w < fixedRegions))

/-- The tables with an object's record replaced, or its slot made FREE. -/
def Tables.setObj (t : Tables) (o : Nat) (v : Option Obj) : Tables :=
  t.write (t.objWords o v) { t with objects := setKey t.objects o v }

/-- The tables with a container's record replaced, or made FREE: both copies are written in one burst (R180). -/
def Tables.setCont (t : Tables) (c : Nat) (v : Option Container) : Tables :=
  t.write (wordTouches (t.contAt c) 32) { t with containers := setKey t.containers c v }

/-- The tables with both copies of a container's record written again as they should be (R182). -/
def Tables.rewriteCont (t : Tables) (c : Nat) : Tables := t.write (wordTouches (t.contAt c) 32) t

/-- Whether one of the two lists holds a container. -/
def Tables.listed (t : Tables) (c : Nat) : Bool := t.freeList.contains c || t.quarantine.contains c

/-- The tables with what stands in the array record's copies changed (R174). -/
def Tables.setArea (t new : Tables) : Tables := t.write (wordTouches t.arrayAt 256) new

/-- The tables with the free list and the quarantine list replaced: their heads and lengths are written, and the links of the
containers that join or leave them or are followed by another. -/
def Tables.setLists (t : Tables) (free quarantine : List Nat) : Tables :=
  let new := { t with freeList := free, quarantine := quarantine }
  t.write (fun w =>
    let c := (w - t.contAt 0) / 40
    wordTouches t.arrayAt 256 w || (decide (w = t.contAt c + 32) && decide (t.listed c ≠ new.listed c))) new

/-- The tables with an entry set, or made EMPTY. -/
def Tables.setEntry (t : Tables) (h : Nat) (e : Option IdxEntry) : Tables :=
  t.write (wordTouches (t.entryAt h) 32) { t with entries := setKey t.entries h e }

/-- The tables with a bucket header replaced, both copies in one burst (R28, R180); a blank header is not listed. -/
def Tables.setHeader (t : Tables) (b : Nat) (h : BucketHeader) : Tables :=
  t.write (wordTouches (t.headerAt b) 32)
    { t with headers := if h = BucketHeader.blank then dropKey t.headers b else putKey t.headers b h }

/-- The tables with the hold list replaced, both copies in one burst (R33, R180). -/
def Tables.setHolds (t : Tables) (hs : List Hold) : Tables := t.write (wordTouches t.holdsAt 512) { t with holds := hs }

end Sys2Proof.Machine
end

