-- ==== Sys2Proof/Machine/Ops.lean ====
section
/-!
DEFINITION. The operations that every block of the HS4 shares: reading and replacing one numbered record of a block, the
array's figures, raising a notice (R202), and answering a request (R200).
-/

namespace Sys2Proof.Machine

/-! ## Records by number -/

/-- Ingest stream `i`. -/
def State.stream (s : State) (i : Nat) : Stream := s.ing.streams[i]?.getD Stream.freeRecord

/-- The state with ingest stream `i` replaced; a number above 7 names no stream. -/
def State.setStream (s : State) (i : Nat) (v : Stream) : State :=
  { s with ing := { s.ing with streams := s.ing.streams.setIfInBounds i v } }

/-- The state with ingest stream `i` changed. -/
def State.modStream (s : State) (i : Nat) (f : Stream → Stream) : State := s.setStream i (f (s.stream i))

/-- Channel `p`. -/
def State.chan (s : State) (p : Nat) : Channel := s.chans[p]?.getD (Channel.resetRecord p)

/-- The state with channel `p` replaced; a number above 3 names no channel. -/
def State.setChan (s : State) (p : Nat) (v : Channel) : State := { s with chans := s.chans.setIfInBounds p v }

/-- The state with channel `p` changed. -/
def State.modChan (s : State) (p : Nat) (f : Channel → Channel) : State := s.setChan p (f (s.chan p))

/-- Grant `g`. -/
def State.grant (s : State) (g : Nat) : Grant := s.rds.grants[g]?.getD Grant.freeRecord

/-- The state with grant `g` replaced; a number above 63 names no record (R117). -/
def State.setGrant (s : State) (g : Nat) (v : Grant) : State :=
  { s with rds := { s.rds with grants := s.rds.grants.setIfInBounds g v } }

/-- Read stream `i`. -/
def State.reader (s : State) (i : Nat) : ReadStream := s.rds.streams[i]?.getD ReadStream.freeRecord

/-- The state with read stream `i` replaced; a number above 15 names no stream. -/
def State.setReader (s : State) (i : Nat) (v : ReadStream) : State :=
  { s with rds := { s.rds with streams := s.rds.streams.setIfInBounds i v } }

/-- The state with read stream `i` changed. -/
def State.modReader (s : State) (i : Nat) (f : ReadStream → ReadStream) : State := s.setReader i (f (s.reader i))

/-- Bay `b`. -/
def State.bay (s : State) (b : Nat) : Bay := s.pwc.bays[b]?.getD Bay.resetRecord

/-- The state with bay `b` replaced. -/
def State.setBay (s : State) (b : Nat) (v : Bay) : State :=
  { s with pwc := { s.pwc with bays := s.pwc.bays.setIfInBounds b v } }

/-- The object with a number, when it is in use (R49). -/
def State.obj (s : State) (o : Nat) : Option Obj := getKey s.tables.objects o

/-- The state with an object's record replaced, or its slot made FREE. -/
def State.setObj (s : State) (o : Nat) (v : Option Obj) : State :=
  { s with tables := s.tables.setObj o v }

/-- The record of a container that is not FREE (R73). -/
def State.cont (s : State) (c : Nat) : Option Container := getKey s.tables.containers c

/-- The state with a container's record replaced, or made FREE. -/
def State.setCont (s : State) (c : Nat) (v : Option Container) : State :=
  { s with tables := s.tables.setCont c v }

/-- The state with a container's record changed, if it is not FREE. -/
def State.modCont (s : State) (c : Nat) (f : Container → Container) : State :=
  match s.cont c with
  | some v => s.setCont c (some (f v))
  | none => s

/-! ## The blocks' own records, changed -/

/-- The state with LNK's record changed. -/
def State.onLnk (s : State) (f : Lnk → Lnk) : State := { s with lnk := f s.lnk }
/-- The state with ORU's record changed. -/
def State.onOru (s : State) (f : Oru → Oru) : State := { s with oru := f s.oru }
/-- The state with CTM's record changed. -/
def State.onCtm (s : State) (f : Ctm → Ctm) : State := { s with ctm := f s.ctm }
/-- The state with IGU's record changed. -/
def State.onIgu (s : State) (f : Igu → Igu) : State := { s with igu := f s.igu }
/-- The state with PWC's record changed. -/
def State.onPwc (s : State) (f : Pwc → Pwc) : State := { s with pwc := f s.pwc }
/-- The state with MEC's record changed. -/
def State.onMec (s : State) (f : Mec → Mec) : State := { s with mec := f s.mec }
/-- The state with CKR's record changed. -/
def State.onCkr (s : State) (f : Ckr → Ckr) : State := { s with ckr := f s.ckr }
/-- The state with the tables changed. -/
def State.onTables (s : State) (f : Tables → Tables) : State := { s with tables := f s.tables }
/-- The state with the array record changed, if there is one. -/
def State.onArray (s : State) (f : ArrayRec → ArrayRec) : State :=
  s.onTables fun t => t.setArea { t with array := t.array.map f }

/-- The state after one operation for each number of a list, in its order. -/
def State.each (s : State) (ns : List Nat) (f : State → Nat → State) : State := ns.foldl f s

/-! ## The array's figures (R68) -/

/-- The array record, while the tables are in force. -/
def State.arr (s : State) : Option ArrayRec := if s.inUse then s.tables.array else none

/-- The member count n, or 0 with no array record. -/
def State.nMembers (s : State) : Nat := (s.arr.map fun a => a.layout.members).getD 0

/-- The positions of the array's members. -/
def State.positions (s : State) : List Nat := List.range s.nMembers

/-- The layout in force; with no array record the smallest. -/
def State.layout (s : State) : Layout := (s.arr.map fun a => a.layout).getD .mirror2

/-- R, the reserved units of each slot. -/
def State.reserved (s : State) : Nat := (s.arr.map fun a => a.reserved).getD 0

/-- C, the container count. -/
def State.containerCount (s : State) : Nat := (s.arr.map fun a => a.containers).getD 0

/-- The state of the member at position `p` (R95). -/
def State.member (s : State) (p : Nat) : MemberState := (s.chan p).member.state

/-! ## Notices and answers -/

/-- Raising a notice (R202). -/
def State.notice (s : State) (slot : Nat) (fields : List Field) : State :=
  s.onLnk fun l => { l with notices := l.notices.setIfInBounds slot (some fields) }

/-- The LINK notice with the four tallies as they stand (R202). -/
def State.noticeLink (s : State) : State :=
  s.notice slotLink
    [⟨4, s.lnk.headerErrors⟩, ⟨4, s.lnk.breaks⟩, ⟨4, s.lnk.malformed⟩, ⟨4, s.lnk.discarded⟩]

/-- Whether a request with this tag and kind holds a pending entry without the refusal mark (R199). -/
def Lnk.holds (l : Lnk) (tag kind : Nat) : Bool :=
  l.entries.any fun e => e.tag = tag && e.kind = kind && !e.refusal

/-- An owner's answer joins the tail of the reply queue; an answer for a freed entry is dropped (R200). -/
def State.answer (s : State) (tag kind : Nat) (status : Status) (fields : List Field) : State :=
  if s.lnk.holds tag kind then
    s.onLnk fun l =>
      { l with replyQueue := l.replyQueue ++
          [{ tag := tag, kind := kind, status := status, fields := fields, refusal := false }] }
  else s

/-- A refusal by a request's owner: the status byte alone (R200). -/
def State.refuse (s : State) (tag kind : Nat) (status : Status) : State := s.answer tag kind status []

/-- A request that its owner has taken is no longer waiting to be handed over (R200). -/
def State.taken (s : State) (c : Instr) : State :=
  s.onLnk fun l => { l with dispatched := l.dispatched.erase c }

/-! ## Words of the memory (R180) -/

/-- Whether an address lies in one of the four table regions while they hold the tables (R174; log entry 8). -/
def State.tableAddress (s : State) (a : Nat) : Bool :=
  s.tables.array.isSome &&
    match regionAt s.mec.map a with
    | some .objects | some .index | some .containers | some .pool => true
    | _ => false

/-- The byte that the memory holds at an address: a table byte in a table region. -/
def State.byteAt (s : State) (a : Nat) : Byte :=
  if s.tableAddress a then tableByte s.tables (a - tablesBase) else Memory.get s.mem a

/-- Whether the word at an address is bad as it stands (R180). -/
def State.wordBad (s : State) (w : Nat) : Bool := s.mec.bad.contains w || s.tables.bad.contains w

/-- A byte as MEC delivers it: unknown in a word that is bad as it stands (R180; log entry 7). -/
def State.readByte (s : State) (a : Nat) : Byte :=
  if s.wordBad (a / 8 * 8) then Config.badWordByte a else s.byteAt a

/-- `n` bytes from an address as MEC delivers them. -/
def State.readBytes (s : State) (a n : Nat) : List Byte := (List.range n).map fun i => s.readByte (a + i)

/-- The words for which `touch` holds are about to be written, which makes a bad one among them good again (R180). What the
write leaves of such a word is not known (log entry 7). -/
def State.rewords (s : State) (touch : Nat → Bool) : State :=
  { s with
    mem := (s.mec.bad.filter touch).foldl (fun m w =>
      Memory.write m w ((List.range 8).map fun i => Config.badWordByte (w + i))) s.mem,
    mec := { s.mec with bad := s.mec.bad.filter fun w => !touch w } }

/-- The table regions written whole, as forming and the load of a body do: no word of them is bad (R180, R186, R191). -/
def State.tablesWritten (s : State) (t : Tables) : State :=
  { s with tables := { t with bad := [] }, inUse := true,
           mec := { s.mec with bad := s.mec.bad.filter fun w => decide (w < tablesBase) } }

/-- Bytes that a block writes to the memory: the words written are good from then on (R180). -/
def State.writeMem (s : State) (a : Nat) (bs : List Byte) : State :=
  let s := s.rewords (wordTouches a bs.length)
  { s with mem := Memory.write s.mem a bs }

/-- A range of the memory that a block fills with zeros (R76, R180). -/
def State.zeroMem (s : State) (a n : Nat) : State :=
  let s := s.rewords (wordTouches a n)
  { s with mem := Memory.zero s.mem a n }

/-- The oldest report of a memory error in some regions (R180). -/
def Mec.reportOf (m : Mec) (rs : List Region) : Option (Option Region × Nat) :=
  m.reports.find? fun e => rs.any fun r => e.1 = some r

/-- The state with the oldest memory error report of some regions acted on by their owner (R180). -/
def State.reportTakenOf (s : State) (rs : List Region) : State :=
  s.onMec fun m =>
    match m.reportOf rs with
    | some e => { m with reports := m.reports.erase e }
    | none => m

/-- The state with the oldest memory error report of a region acted on. -/
def State.reportTaken (s : State) (r : Region) : State := s.reportTakenOf [r]

/-- The oldest report of some table regions acted on by an owner that writes the word reported, which is good from then on
(R180, R45, R64, R182). -/
def State.wordRewritten (s : State) (rs : List Region) : State :=
  match s.mec.reportOf rs with
  | some e => (s.reportTakenOf rs).onTables fun t => { t with bad := t.bad.filter fun w => w ≠ e.2 }
  | none => s

/-- A report of an error in a read buffer acted on by the asker: the unit or chunk read once more writes the word, and a second
error leaves it as it stands (R87, R140, R150, R180, R181). Buffers have no numbers (log entry 101), so that the report which an asker
takes is the oldest of the region, and the word made good is that report's (DESIGN CHOICE, log entry 101). -/
def State.bufferError (s : State) (again : Bool) : State :=
  s.onMec fun m =>
    match m.reportOf [.readBuffers] with
    | some e => { m with reports := m.reports.erase e, bad := if again then m.bad.filter fun w => w ≠ e.2 else m.bad }
    | none => m

/-! ## Sampled lines (R170) -/

/-- A line after one more sample of its input: the last three samples move on, and when they agree and differ from the filtered
level, that level follows (R170). -/
def Line.sample (l : Line) (x : Bool) : Line :=
  let last := (l.samples.2.1, l.samples.2.2, x)
  { samples := last, level := if last.1 = x ∧ last.2.1 = x then x else l.level }

/-- A line whose input has settled at a level: after three samples its filtered level follows (R170). -/
def Line.follow (l : Line) (x : Bool) : Line := ((l.sample x).sample x).sample x

/-- The first number of a list for which a test holds, with a default. -/
def firstOf (ns : List Nat) (f : Nat → Bool) : Option Nat := ns.find? f

/-- A byte taken as a setting (0 off, 1 on); for other bytes the manual is silent (log entry 5). -/
def settingOn (v : Nat) : Bool :=
  if v = 0 then false else if v = 1 then true else Config.unlistedSettingIsOn v

/-- A number brought into a range. -/
def clamp (lo hi v : Nat) : Nat := max lo (min hi v)

end Sys2Proof.Machine
end

