-- ==== Sys2Proof/Machine/ChannelOps.lean ====
section
/-!
DEFINITION. What a drive channel does with an operation record, short of a member failure (R97 to R102, R107): submitting,
queueing and waiting, giving an operation back to its requester, dispatching by the service frame, and reporting idleness.
-/

namespace Sys2Proof.Machine

/-- A field for a figure that may be absent (log entry 10). -/
def optField (size : Nat) : Option Nat → Field
  | some v => ⟨size, v⟩
  | none => ⟨size, Config.absentField size⟩

/-! ## Class queues -/

/-- The queue of a class (R94). -/
def Channel.queue (c : Channel) (k : Cls) : List Op := c.queues[classNumber k]?.getD []

/-- The waiting requesters of a class, oldest first (R99). -/
def Channel.waitingFor (c : Channel) (k : Cls) : List Stalled := c.waiting[classNumber k]?.getD []

/-- The channel with the queue of a class replaced. -/
def Channel.setQueue (c : Channel) (k : Cls) (q : List Op) : Channel :=
  { c with queues := c.queues.setIfInBounds (classNumber k) q }

/-- The channel with the waiting list of a class replaced. -/
def Channel.setWaiting (c : Channel) (k : Cls) (q : List Stalled) : Channel :=
  { c with waiting := c.waiting.setIfInBounds (classNumber k) q }

/-- An operation joins the tail of its class queue, or waits behind a full one, or behind those that wait already (R99). -/
def Channel.enqueue (c : Channel) (o : Op) : Channel :=
  if (c.waitingFor o.cls).isEmpty ∧ (c.queue o.cls).length < 16 then c.setQueue o.cls (c.queue o.cls ++ [o])
  else c.setWaiting o.cls (c.waitingFor o.cls ++ [{ op := o, rest := [] }])

/-- The five classes in the order of R97. -/
def allClasses : List Cls := [.read, .write, .verify, .scrub, .rebuild]

/-- The classes in the fallback order of R101. -/
def fallbackOrder : List Cls := [.read, .write, .verify, .rebuild, .scrub]

/-- Every queued operation, class by class and oldest first, then every waiting requester's operation in the same order
(R105, R106). -/
def Channel.allQueued (c : Channel) : List Op :=
  (allClasses.map c.queue).flatten ++ (allClasses.map fun k => (c.waitingFor k).map fun w => w.op).flatten

/-- What the stalled stages of the channel's waiting requesters hold back, in the same order (R99). -/
def Channel.heldBack (c : Channel) : List (Nat × Op) :=
  (allClasses.map fun k => ((c.waitingFor k).map fun w => w.rest).flatten).flatten

/-- The channel with empty queues and nobody waiting. -/
def Channel.emptied (c : Channel) : Channel :=
  { c with queues := Vector.replicate 5 [], waiting := Vector.replicate 5 [] }

/-- Whether the channel has no operation in progress, empty queues and no requester waiting. -/
def Channel.quiet (c : Channel) : Bool := c.current.isNone && c.allQueued.isEmpty

/-- Whether a channel is idle (R107). -/
def Channel.idle (c : Channel) : Bool := decide (c.member.state = .active) && c.quiet

/-! ## Idleness (R107, R165, R158) -/

/-- The channel reports the start or the end of its idleness to PWC when one of them has come about. PWC starts the idle
timer when the position's idle time is above 0 and stops it at the end (R165); a sleep-entry standby request that was
answered NOT_IDLE is sent again at the next start (R158). -/
def State.idleUpdate (s : State) (p : Nat) : State :=
  let c := s.chan p
  if c.idle && !c.idleReported then
    (s.modChan p fun c => { c with idleReported := true }).onPwc fun w =>
      { w with
        idleTimers := w.idleTimers.setIfInBounds p (decide (0 < w.idleTimes[p]?.getD 0)),
        standbyAsks :=
          if w.standbyAsks[p]?.getD none = some .held then w.standbyAsks.setIfInBounds p (some .sleepEntry)
          else w.standbyAsks }
  else if !c.idle && c.idleReported then
    (s.modChan p fun c => { c with idleReported := false }).onPwc fun w =>
      { w with idleTimers := w.idleTimers.setIfInBounds p false }
  else s

/-! ## Submission (R97, R98) -/

/-- C for the range check of R97: the array record's, or the label's while an attach has no array record yet. -/
def State.opContainers (s : State) : Nat :=
  match s.arr with
  | some a => a.containers
  | none => ((s.ckr.attach.bind fun a => a.label).map fun l => l.containers).getD 0

/-- R for the range check and the addressing of R97. -/
def State.opReserved (s : State) : Nat :=
  match s.arr with
  | some a => a.reserved
  | none => ((s.ckr.attach.bind fun a => a.label).map fun l => l.reserved).getD 0

/-- Whether an operation record is one that a requester may submit (R97): a LABEL_READ has no target or range to check, a
STANDBY is made only by the channel. -/
def State.opValid (s : State) (o : Op) : Bool :=
  match o.kind with
  | .labelRead => true
  | .standby => false
  | _ =>
    (match o.target with
     | .nothing => false
     | .container c => decide (c < s.opContainers)
     | .reserved u => decide (u ≤ 2 * s.opReserved)) &&
    decide (1 ≤ o.len ∧ o.start + o.len ≤ unitSize)

/-- The member unit that an operation addresses (R97). -/
def State.opUnit (s : State) (o : Op) : Nat :=
  match o.target with
  | .nothing => 0
  | .container c => stripeUnit s.opReserved c
  | .reserved u => u

/-- Whether a requester takes an operation of this job back. A repair write's outcome concerns nobody (R88, R192), and what
follows an error on an adopted member's second label write is applied when the error comes back (R149). -/
def jobAwaited : Job → Bool
  | .repair => false
  | .adoptLabelSecond => false
  | _ => true

/-- An operation is returned to its requester. -/
def State.giveBack (s : State) (p : Nat) (o : Op) (r : OpResult) : State :=
  if jobAwaited o.job then { s with returns := s.returns ++ [{ position := p, op := o, result := r }] } else s

/-- Each operation of a list is returned with one result. -/
def State.giveBackAll (s : State) (p : Nat) (os : List Op) (r : OpResult) : State :=
  os.foldl (fun s o => s.giveBack p o r) s

/-- A queued submission: it joins its class queue, or waits behind a full one (R99), and ends the channel's idleness. -/
def State.enqueue (s : State) (p : Nat) (o : Op) : State := (s.modChan p fun c => c.enqueue o).idleUpdate p

/-- The channel at which the stage of a requester in a class stalls, if it does (R99). -/
def State.stalledAt (s : State) (r : Requester) (k : Cls) : Option Nat :=
  (List.range 4).find? fun p => ((s.chan p).waitingFor k).any fun w => w.op.requester = r

/-- An operation of a stage that stalls at channel `q` is held back behind what the stage holds back already (R99). -/
def State.holdBack (s : State) (q p : Nat) (o : Op) : State :=
  s.modChan q fun c => c.setWaiting o.cls ((c.waitingFor o.cls).map fun w =>
    if w.op.requester = o.requester then { w with rest := w.rest ++ [(p, o)] } else w)

/-- An operation record as it is made: the retry flag clear, a LABEL_READ under the READ class (R97). -/
def madeOp (o : Op) : Op := { o with retry := false, cls := if o.kind = .labelRead then .read else o.cls }

/-- A submission as it reaches the channel (R97, R98). A record that R97 refuses is answered BAD_ARGUMENT whatever its member
(DESIGN CHOICE, log entry 22). -/
def State.arrive (s : State) (p : Nat) (o : Op) : State :=
  if !s.opValid o then s.giveBack p o .badArgument
  else match s.member p with
    | .failed | .absent => s.giveBack p o .memberFailed
    | .standby | .off => (s.enqueue p o).modChan p fun c => { c with spinupAsked := true }
    | _ => s.enqueue p o

/-- A requester submits an operation to channel `p` (R97, R98). In a FAILED array every submission is answered ARRAY_FAILED
(R106). While the requester's stage stalls it submits nothing: the operation follows once the stage goes on (R99). -/
def State.submit (s : State) (p : Nat) (o : Op) : State :=
  let o := madeOp o
  if s.ctm.state = .failed then s.giveBack p o .arrayFailed
  else match s.stalledAt o.requester o.cls with
    | some q => s.holdBack q p o
    | none => s.arrive p o

/-- Operations submitted one after another, each to its position. -/
def State.submitAll (s : State) (os : List (Nat × Op)) : State := os.foldl (fun s o => s.submit o.1 o.2) s

/-- The waiting requesters of a class join its queue while that holds fewer than 16 operations, the oldest first, and the stage
of each goes on (R99). The fuel is the most that can join. -/
def State.joinWaiters (p : Nat) (k : Cls) : Nat → State → State
  | 0, s => s
  | fuel + 1, s =>
    match (s.chan p).waitingFor k with
    | w :: ws =>
      if ((s.chan p).queue k).length < 16 then
        State.joinWaiters p k fuel
          ((s.modChan p fun c => (c.setQueue k (c.queue k ++ [w.op])).setWaiting k ws).submitAll w.rest)
      else s
    | [] => s

/-! ## Making operation records -/

/-- A READ of a range of a container's unit. -/
def readOp (cls : Cls) (c start len : Nat) (who : Requester) (j : Job) : Op :=
  { kind := .read, cls := cls, target := .container c, start := start, len := len, requester := who, retry := false,
    data := [], job := j }

/-- A WRITE over a range of a container's unit. -/
def writeOp (cls : Cls) (c start : Nat) (data : List Byte) (who : Requester) (j : Job) : Op :=
  { kind := .write, cls := cls, target := .container c, start := start, len := data.length, requester := who,
    retry := false, data := data, job := j }

/-- A READ of a whole reserved unit by CKR. -/
def readUnitOp (cls : Cls) (u : Nat) (j : Job) : Op :=
  { kind := .read, cls := cls, target := .reserved u, start := 0, len := unitSize, requester := .ckr, retry := false,
    data := [], job := j }

/-- A WRITE of a whole reserved unit. -/
def writeUnitOp (cls : Cls) (u : Nat) (data : List Byte) (who : Requester) (j : Job) : Op :=
  { kind := .write, cls := cls, target := .reserved u, start := 0, len := unitSize, requester := who, retry := false,
    data := data, job := j }

/-- A LABEL_READ by CKR (R97). -/
def labelReadOp (j : Job) : Op :=
  { kind := .labelRead, cls := .read, target := .nothing, start := 0, len := unitSize, requester := .ckr, retry := false,
    data := [], job := j }

/-- The STANDBY operation, made by the channel (R108). -/
def standbyOp : Op :=
  { kind := .standby, cls := .read, target := .nothing, start := 0, len := unitSize, requester := .ctm, retry := false,
    data := [], job := .lone 0 }

/-! ## Returned operations -/

/-- The returned operations whose job satisfies a test, oldest first. -/
def State.returned (s : State) (f : Job → Bool) : List Returned := s.returns.filter fun r => f r.op.job

/-- The state with the returned operations whose job satisfies a test taken by their requester. -/
def State.dropReturned (s : State) (f : Job → Bool) : State :=
  { s with returns := s.returns.filter fun r => !f r.op.job }

/-- Whether some channel still queues, carries or keeps waiting an operation whose job satisfies a test. -/
def State.stillOut (s : State) (f : Job → Bool) : Bool :=
  (List.range 4).any fun p =>
    (s.chan p).allQueued.any (fun o => f o.job) || ((s.chan p).heldBack.any fun e => f e.2.job) ||
      ((s.chan p).current.any fun o => f o.job)

/-! ## Dispatch (R101, R102) -/

/-- The class of the slot at the frame position. -/
def Channel.slotClass (c : Channel) : Cls := c.frame[c.position]?.getD .read

/-- The class that a dispatch serves: the slot's own, or the first of the fallback order whose queue holds an operation. -/
def Channel.served (c : Channel) : Option Cls :=
  if (c.queue c.slotClass).isEmpty then fallbackOrder.find? fun k => !(c.queue k).isEmpty else some c.slotClass

/-- One dispatch by the service frame; the command sent has the next number (R103). -/
def Channel.dispatch (c : Channel) : Channel :=
  match c.served with
  | none => c
  | some k =>
    match c.queue k with
    | [] => c
    | o :: rest =>
      let own := c.slotClass
      { c.setQueue k rest with
        current := some o,
        command := c.command + 1,
        position := (c.position + 1) % c.frame.length,
        underruns :=
          if k = own then c.underruns
          else c.underruns.setIfInBounds (classNumber own) (underrunUp (c.underruns[classNumber own]?.getD 0)) }

/-- A dispatch on channel `p`, after which the waiting requesters of the class served join its queue (R99, R101). -/
def State.dispatch (s : State) (p : Nat) : State :=
  let s' := s.modChan p Channel.dispatch
  match (s.chan p).served with
  | some k => State.joinWaiters p k 16 s'
  | none => s'

/-- Whether a channel may dispatch: its member is ACTIVE or REBUILDING and nothing is in progress. -/
def Channel.mayDispatch (c : Channel) : Bool :=
  (decide (c.member.state = .active) || decide (c.member.state = .rebuilding)) && c.current.isNone

end Sys2Proof.Machine
end

