-- ==== Sys2Proof/Machine/IndexOps.lean ====
section
/-!
DEFINITION. The chunk index (chapter 2) and the container figures that follow it (R85, R86): each request to IDX as an
operation that changes the tables and leaves IDX's answer. No operation asks whether the tables are in force: between a warm
reset and the attach, and after an attach that fails, IDX holds no index (R29) and no rule says what a request does, so that one
reads and changes the retained tables as it would change those of an index (DESIGN CHOICE, log entry 83).
-/

namespace Sys2Proof.Machine

/-! ## Containers going FREE, live bytes, reads in flight (R85, R86) -/

/-- Whether a container is the source of the relocation in progress, which goes FREE only at its end (R86), or of the relocation
that the array's failure has abandoned, which stays DRAINING until the next attach (R91). That holds a source back whose record is
recovered meanwhile too (R182 has such a container go FREE by R86: DESIGN CHOICE, log entry 72). -/
def State.isSource (s : State) (c : Nat) : Bool := (s.ctm.reloc.any fun r => r.source = c) || decide (s.ctm.abandoned = some c)

/-- Whether a container's record meets the conditions of R86. -/
def Container.spent (r : Container) : Bool :=
  (decide (r.state = .sealed) || decide (r.state = .draining)) && decide (r.reads = 0) &&
    (match r.kind with
     | .data => decide (r.live = 0)
     | .recipe => decide (r.segRefs = 0))

/-- Whether replay is applying a container (R193): its references stand at what has been applied so far, so that it is tested
only when the containers are adjusted (R92). -/
def State.beingReplayed (s : State) (c : Nat) : Bool :=
  s.ckr.attach.any fun a => decide (a.stage = .apply) && a.applied.any fun x => x.container = c

/-- The test of R86: a container that meets it goes FREE and joins the quarantine list, unless it is the source of a
relocation or being replayed (R91, R193). While a checkpoint copies its slot the change is held back (R188). -/
def State.testFree (s : State) (c : Nat) : State :=
  match s.cont c with
  | none => s
  | some r =>
    if r.spent && !s.isSource c && !s.beingReplayed c then
      if s.ctm.noFree then
        s.onCtm fun m => { m with deferred := if m.deferred.contains c then m.deferred else m.deferred ++ [c] }
      else (s.setCont c none).onTables fun t => t.setLists t.freeList (t.quarantine ++ [c])
    else s

/-- A container's live bytes raised (R85). -/
def State.liveRaise (s : State) (c n : Nat) : State := s.modCont c fun r => { r with live := r.live + n }

/-- A container's live bytes lowered, and the container tested (R85, R86). -/
def State.liveLower (s : State) (c n : Nat) : State :=
  (s.modCont c fun r => { r with live := r.live - n }).testFree c

/-- A segment location joins a map (R51, R85). -/
def State.segRefRaise (s : State) (c : Nat) : State := s.modCont c fun r => { r with segRefs := r.segRefs + 1 }

/-- A segment location leaves a map (R51, R85). -/
def State.segRefLower (s : State) (c : Nat) : State :=
  (s.modCont c fun r => { r with segRefs := r.segRefs - 1 }).testFree c

/-- Reads in flight raised (R85). -/
def State.readRaise (s : State) (c : Nat) : State := s.modCont c fun r => { r with reads := r.reads + 1 }

/-- Reads in flight lowered, never below 0, and the container tested (R85, R86). -/
def State.readLower (s : State) (c : Nat) : State :=
  (s.modCont c fun r => { r with reads := r.reads - 1 }).testFree c

/-! ## Handles, buckets, headers (R26 to R28, R45) -/

/-- A pinned refcount (R39). -/
def pinned : Nat := 65535

/-- Whether a number is a handle (R26). -/
def Tables.isHandle (t : Tables) (h : Nat) : Bool :=
  decide (h < 8 * t.buckets) || (decide (overflowBase ≤ h) && decide (h < overflowBase + t.buckets))

/-- The entry of a handle, or none for an EMPTY one or a number that is not a handle. -/
def Tables.entry (t : Tables) (h : Nat) : Option IdxEntry := if t.isHandle h then getKey t.entries h else none

/-- The bucket of a fingerprint (R26). -/
def Tables.bucketOf (t : Tables) (f : Fp) : Nat := fpCrc f % t.buckets

/-- The header of a bucket (R28). -/
def Tables.header (t : Tables) (b : Nat) : BucketHeader := (getKey t.headers b).getD BucketHeader.blank

/-- The bucket of a handle whose entry is given: its own for a way, its fingerprint's for an overflow entry. -/
def Tables.bucketOfHandle (t : Tables) (h : Nat) (e : IdxEntry) : Nat :=
  if h < overflowBase then h / 8 else t.bucketOf e.fp

/-- The overflow entries that some chain lists. -/
def Tables.chained (t : Tables) : List Nat := (t.headers.map fun e => e.2.chain).flatten

/-- The lowest number from `o` that a list does not hold, looking at no more than `fuel` numbers. -/
def lowestFree (used : List Nat) : Nat → Nat → Nat
  | 0, o => o
  | fuel + 1, o => if used.contains o then lowestFree used fuel (o + 1) else o

/-- The lowest-numbered free overflow entry, if there is one (R28). -/
def Tables.freeOverflow (t : Tables) : Option Nat :=
  let o := lowestFree t.chained t.chained.length 0
  if o < t.buckets then some o else none

/-- Whether a handle lies in the lost part of a lost bucket (R45). An overflow entry is on the chain of its own fingerprint's
bucket and on no other (R26, R28); the chain that lists it is looked for here, since its fingerprint may lie in a word that
has been lost (R47). -/
def Tables.lostPart (t : Tables) (h : Nat) : Bool :=
  t.isHandle h &&
    if h < overflowBase then (t.header (h / 8)).lost
    else t.headers.any fun e => e.2.lost && (e.2.chain.take e.2.lostCount).contains (h - overflowBase)

/-- The handles of a bucket in the search order of R31: its ways, then its chain. -/
def Tables.searchOrder (t : Tables) (b : Nat) : List Nat :=
  (List.range 8).map (fun w => 8 * b + w) ++ (t.header b).chain.map fun o => overflowBase + o

/-- Whether a handle is a candidate for a fingerprint (R31). -/
def Tables.candidate (t : Tables) (f : Fp) (h : Nat) : Bool :=
  match t.entry h with
  | none => false
  | some e => decide (e.fp = f) && !decide (e.state = .damaged)

/-! ## The requests

With no index in force a request acts on the retained tables (DESIGN CHOICE, log entry 83). -/

/-- The state with IDX's answer noted. -/
def State.idxAnswer (s : State) (a : IdxAnswer) : State := { s with idx := { s.idx with answer := a } }

/-- A refcount raised, never past pinned (R32, R37). -/
def raiseCount (n : Nat) : Nat := if n < pinned then n + 1 else n

/-- The candidate that a lookup finds, if it is a hit (R31); a lost bucket is not read. -/
def Tables.lookupHit (t : Tables) (f : Fp) : Option Nat :=
  let b := t.bucketOf f
  if (t.header b).lost then none else (t.searchOrder b).find? (t.candidate f)

/-- The holds of a stream in the hold list (R33). -/
def Tables.holdsOf (t : Tables) (i : Nat) : Nat := (t.holds.filter fun h => h.stream = i).length

/-- A lookup (R31) with its verify hold (R32). -/
def State.idxLookup (s : State) (f : Fp) (i : Nat) : State :=
  match s.tables.lookupHit f with
  | none => s.idxAnswer .miss
  | some h =>
    match s.tables.entry h with
    | none => s.idxAnswer .miss
    | some e =>
      (s.onTables fun t =>
        (t.setEntry h (some { e with refcount := raiseCount e.refcount })).setHolds
          (t.holds ++ [{ stream := i, handle := h }])).idxAnswer (.hit h e.state e.container e.offset)

/-- The entry that an insert takes: the lowest EMPTY way, or a free overflow entry; only an overflow entry in a lost bucket
(R34, R36). -/
def Tables.chooseEntry (t : Tables) (f : Fp) : Option Nat :=
  let b := t.bucketOf f
  let way := ((List.range 8).map fun w => 8 * b + w).find? fun h => (t.entry h).isNone
  let spareWay := t.freeOverflow.map fun o => overflowBase + o
  if (t.header b).lost then spareWay else way.or spareWay

/-- The tables with an overflow entry appended to its bucket's chain; a way joins no chain (R28). -/
def Tables.joinChain (t : Tables) (h : Nat) (f : Fp) : Tables :=
  if h < overflowBase then t
  else
    let b := t.bucketOf f
    let hd := t.header b
    t.setHeader b { hd with chain := hd.chain ++ [h - overflowBase] }

/-- The tables with an overflow entry off its bucket's chain (R28). -/
def Tables.leaveChain (t : Tables) (h : Nat) (f : Fp) : Tables :=
  if h < overflowBase then t
  else
    let b := t.bucketOf f
    let hd := t.header b
    t.setHeader b { hd with chain := hd.chain.erase (h - overflowBase) }

/-- An insert, and a collision insert, which is applied in the same way (R34 to R36). -/
def State.idxInsert (s : State) (f : Fp) (c off : Nat) : State :=
  match s.tables.chooseEntry f with
  | none => s.idxAnswer .indexFull
  | some h =>
    let e : IdxEntry :=
      { state := .pending, fp := f, container := c, offset := off, refcount := 1, move := none }
    ((s.onTables fun t => (t.joinChain h f).setEntry h (some e)).liveRaise c (fpLength f)).idxAnswer (.inserted h)

/-- The removal of an entry (R40). -/
def State.removeEntry (s : State) (h : Nat) (e : IdxEntry) : State :=
  (s.onTables fun t => (t.leaveChain h e.fp).setEntry h none).liveLower e.container (fpLength e.fp)

/-- A lower (R38). An entry that replay created and no raise has reached stands at refcount 0: a lower leaves it and is answered
OK (R38 says that it stays, and gives no answer: DESIGN CHOICE, log entry 45). -/
def State.idxLower (s : State) (h : Nat) : State :=
  if s.tables.lostPart h then
    { s with idx := { s.idx with leaked := tallyUp 5 s.idx.leaked, answer := .leaked } }
  else match s.tables.entry h with
    | none => { s with idx := { s.idx with stray := tallyUp 6 s.idx.stray, answer := .noEntry } }
    | some e =>
      if e.refcount = pinned then s.idxAnswer .pinned
      else if e.refcount = 0 then s.idxAnswer .ok
      else if e.refcount = 1 then (s.removeEntry h e).idxAnswer .removed
      else (s.onTables fun t => t.setEntry h (some { e with refcount := e.refcount - 1 })).idxAnswer .ok

/-- A list with the first record of a stream and handle taken out, if it holds one (R33). -/
def dropFirstHold (i h : Nat) (hs : List Hold) : List Hold := hs.erase { stream := i, handle := h }

/-- A confirm hold (R33). A record of the list leaves it and is answered OK whatever its handle names, an EMPTY entry too: R30 has a
request that names one answered NO_ENTRY, R33 names no answer, and by R32 the case does not arise (DESIGN CHOICE, log entry 92). A
drop hold is answered as the lowering of its handle is (R38). -/
def State.idxConfirm (s : State) (h i : Nat) : State :=
  if s.tables.holds.contains { stream := i, handle := h } then
    (s.onTables fun t => t.setHolds (dropFirstHold i h t.holds)).idxAnswer .ok
  else s.idxAnswer .noEntry

/-- A drop hold (R33). -/
def State.idxDrop (s : State) (h i : Nat) (r : HoldReason) : State :=
  if s.tables.holds.contains { stream := i, handle := h } then
    let s := (s.onTables fun t => t.setHolds (dropFirstHold i h t.holds)).idxLower h
    if r = .difference then { s with idx := { s.idx with collisions := tallyUp 4 s.idx.collisions } } else s
  else s.idxAnswer .noEntry

/-- A raise (R37). -/
def State.idxRaise (s : State) (h : Nat) : State :=
  if s.tables.lostPart h then s.idxAnswer .lost
  else match s.tables.entry h with
    | none => s.idxAnswer .noEntry
    | some e =>
      if e.refcount = pinned then s.idxAnswer .pinned
      else (s.onTables fun t => t.setEntry h (some { e with refcount := raiseCount e.refcount })).idxAnswer .ok

/-- A replay create (R37). An offset or a container number that the entry's field cannot hold is stored as it is (R27 does not
say: DESIGN CHOICE, log entry 46). -/
def State.idxCreate (s : State) (h : Nat) (f : Fp) (c off : Nat) : State :=
  if !s.tables.isHandle h then s.idxAnswer .noEntry
  else if s.tables.lostPart h then s.idxAnswer .lost
  else match s.tables.entry h with
    | some e => s.idxAnswer (if e.fp = f then .exists_ else .conflict)
    | none =>
      let e : IdxEntry :=
        { state := .stored, fp := f, container := c, offset := off, refcount := 0, move := none }
      ((s.onTables fun t => (t.joinChain h f).setEntry h (some e)).liveRaise c (fpLength f)).idxAnswer .ok

/-- A remove-if-unreferenced (R40, R46). -/
def State.idxRemoveIf (s : State) (h : Nat) : State :=
  if s.tables.lostPart h then s.idxAnswer .lost
  else match s.tables.entry h with
    | none => s.idxAnswer .noEntry
    | some e => if e.refcount = 0 then (s.removeEntry h e).idxAnswer .removed else s.idxAnswer .kept

/-- A stored request (R41, R46). -/
def State.idxStored (s : State) (h : Nat) (f : Fp) (c off : Nat) : State :=
  if s.tables.lostPart h then s.idxAnswer .noEntry
  else match s.tables.entry h with
    | none => s.idxAnswer .noEntry
    | some e =>
      if e.fp = f ∧ e.container = c ∧ e.offset = off then
        match e.state with
        | .pending => (s.onTables fun t => t.setEntry h (some { e with state := .stored })).idxAnswer .ok
        | .damaged => s.idxAnswer .ok
        | .stored => s.idxAnswer .noEntry
      else s.idxAnswer .noEntry

/-- A damage mark (R42). -/
def State.idxDamage (s : State) (h : Nat) (f : Fp) : State :=
  if s.tables.lostPart h then s.idxAnswer .lost
  else match s.tables.entry h with
    | none => s.idxAnswer .noEntry
    | some e =>
      if e.fp = f then
        (s.onTables fun t => t.setEntry h (some { e with state := .damaged })).idxAnswer .ok
      else s.idxAnswer .noEntry

/-- A set move (R43, R46). A destination of more than the 26 bits of a container number is stored as it is (R27 and R43 do not say:
DESIGN CHOICE, log entry 46). -/
def State.idxSetMove (s : State) (h : Nat) (f : Fp) (source dest : Nat) : State :=
  if s.tables.lostPart h then s.idxAnswer .noEntry
  else match s.tables.entry h with
    | none => s.idxAnswer .noEntry
    | some e =>
      if e.fp = f ∧ e.container = source then
        (s.onTables fun t => t.setEntry h (some { e with move := some dest })).idxAnswer .ok
      else s.idxAnswer .noEntry

/-- A switch location (R43, R46); a number past its field as in a replay create (DESIGN CHOICE, log entry 46). -/
def State.idxSwitch (s : State) (h : Nat) (f : Fp) (source dest off : Nat) : State :=
  if s.tables.lostPart h then s.idxAnswer .noEntry
  else match s.tables.entry h with
    | none => s.idxAnswer .noEntry
    | some e =>
      if e.fp = f ∧ e.container = source ∧ e.move = some dest then
        (((s.onTables fun t =>
          t.setEntry h (some { e with container := dest, offset := off, move := none })).liveRaise dest
            (fpLength f)).liveLower source (fpLength f)).idxAnswer .ok
      else s.idxAnswer .noEntry

/-- What IDX answers to a location request (R44). -/
def Tables.locate (t : Tables) (h : Nat) : IdxAnswer :=
  if t.lostPart h then .dataLost none
  else match t.entry h with
    | none => .noEntry
    | some e => if e.state = .damaged then .dataLost (some e.fp) else .found e.state e.fp e.container e.offset

/-- A location request (R44). -/
def State.idxLocate (s : State) (h : Nat) : State := s.idxAnswer (s.tables.locate h)

/-- A bucket becomes lost, or a lost bucket's lost count is raised to the chain's length (R45). -/
def Tables.loseBucket (t : Tables) (b : Nat) : Tables :=
  let hd := t.header b
  t.setHeader b { hd with lost := true, lostCount := hd.chain.length }

/-- Whether IDX writes the word of an error report again (R45): a copy of a header or of the hold list from the other copy, and
a free overflow entry as EMPTY. -/
def Tables.rewritesWord (t : Tables) : IndexWord → Bool
  | .way _ _ => false
  | .overflow o => !t.chained.contains o
  | .header _ _ => true
  | .hold _ => true

/-- An uncorrectable word of the index region (R45). A header copy and a hold-list copy are rewritten from the other copy,
so the tables stay as they are. -/
def State.idxWordError (s : State) : IndexWord → State
  | .way b _ =>
    if b < s.tables.buckets ∧ (s.tables.header b).lost = false then s.onTables fun t => t.loseBucket b else s
  | .overflow o =>
    match (s.tables.headers.find? fun e => e.2.chain.contains o).map fun e => e.1 with
    | none => s.onTables fun t => t.setEntry (overflowBase + o) none
    | some b =>
      let hd := s.tables.header b
      if hd.lost = true ∧ (hd.chain.take hd.lostCount).contains o = true then s
      else s.onTables fun t => t.loseBucket b
  | .header _ _ => s
  | .hold _ => s

/-- The sum of the lengths of the entries located in a container (R182). -/
def Tables.sumOf (t : Tables) (c : Nat) : Nat :=
  (t.entries.filter fun e => e.2.container = c).foldl (fun n e => n + fpLength e.2.fp) 0

/-- Every move destination in the index is discarded (R92): the entries that hold one are written (R180). -/
def Tables.dropMoves (t : Tables) : Tables :=
  t.write (fun w => t.entries.any fun e => e.2.move.isSome && wordTouches (t.entryAt e.1) 32 w)
    { t with entries := t.entries.map fun e => (e.1, { e.2 with move := none }) }

end Sys2Proof.Machine
end

