-- ==== Sys2Proof/Machine/StreamOps.lean ====
section
/-!
DEFINITION. What ING and ORU do with streams and objects whatever the request: faults (R22), the progress of an abort (R21),
readers and releases (R57 to R60, R62, R65), and the INGEST_END notice (R25).
-/

namespace Sys2Proof.Machine

/-! ## Objects: readers and releases -/

/-- The reader count of an object (R57). -/
def State.readersOf (s : State) (o : Nat) : Nat := (getKey s.oru.readers o).getD 0

/-- The state with an object's reader count set; a count of 0 is not listed. -/
def State.setReaders (s : State) (o n : Nat) : State :=
  s.onOru fun u => { u with readers := if n = 0 then dropKey u.readers o else putKey u.readers o n }

/-- ORU raises a reader count (R57). -/
def State.readerRaise (s : State) (o : Nat) : State := s.setReaders o (s.readersOf o + 1)

/-- An object joins the tail of the release queue, at most once (R60). -/
def State.joinRelease (s : State) (o : Nat) : State :=
  s.onOru fun u => { u with queue := if u.queue.contains o then u.queue else u.queue ++ [o] }

/-- A walk position at the start (R60). -/
def Walk.start : Walk := { phase := .segments, ordinal := 0, index := 0, lowered := 0 }

/-- An object enters RELEASING with the given tail list, its RELEASE record to be placed, and joins the release queue (R60, R62). -/
def State.beginRelease (s : State) (o : Nat) (tail : Option (List Nat)) : State :=
  match s.obj o with
  | none => s
  | some r =>
    (s.setObj o (some { r with
      state := .releasing, stream := none, walk := some Walk.start, tail := tail, recorded := true })).joinRelease o

/-- ORU asks CTM for the placement of an object's RELEASE record (R62, R65). -/
def State.askRelease (s : State) (o : Nat) : State :=
  if s.oru.recordAsked.contains o then s
  else
    (s.onOru fun u => { u with recordAsked := u.recordAsked ++ [o] }).onCtm fun m =>
      { m with recordReqs := m.recordReqs ++ [.release o] }

/-- ORU lowers a reader count, which may begin a release (R57, R59, R65). -/
def State.readerLower (s : State) (o : Nat) : State :=
  let n := s.readersOf o
  if n = 0 then s
  else
    let s := s.setReaders o (n - 1)
    if n ≠ 1 then s
    else match s.obj o with
      | none => s
      | some r =>
        match r.state with
        | .releasePending => s.beginRelease o none
        | .lost => if (getKey s.oru.marks o).isSome then s.askRelease o else s
        | _ => s

/-! ## Streams -/

/-- Whether a stream takes part in the ingest of R19: OPEN or DRAINING. -/
def Stream.active (t : Stream) : Bool := decide (t.state = .opened) || decide (t.state = .draining)

/-- The free space of a stream's ring (R6). -/
def Stream.freeSpace (t : Stream) : Nat := ringSize - (t.received - t.oldest)

/-- The records in VERIFYING: the verifies in flight (R1). -/
def Stream.verifying (t : Stream) : Nat := (t.queue.filter fun r => r.stage = .verifying).length

/-- The oldest held point moved past the freed spans at the front of the ring (R6). The fuel is the number of spans. -/
def advanceOldest : Nat → Nat → List (Nat × Nat) → Nat × List (Nat × Nat)
  | 0, o, fs => (o, fs)
  | fuel + 1, o, fs =>
    match fs.find? fun f => f.1 = o with
    | none => (o, fs)
    | some f => advanceOldest fuel (o + f.2) (fs.erase f)

/-- A span of the ring freed (R6). -/
def Stream.freeSpan (t : Stream) (start len : Nat) : Stream :=
  if start < t.oldest then t
  else
    let fs := if t.freed.contains (start, len) then t.freed else t.freed ++ [(start, len)]
    let r := advanceOldest fs.length t.oldest fs
    { t with oldest := r.1, freed := r.2 }

/-- Whether a byte of a stream, by its stream offset, is held (R6). -/
def Stream.byteHeld (t : Stream) (o : Nat) : Bool :=
  decide (t.oldest ≤ o) && decide (o < t.received) && !(t.freed.any fun f => f.1 ≤ o && o < f.1 + f.2)

/-- The stream with its numbered record changed. -/
def Stream.modRec (t : Stream) (no : Nat) (f : ChunkRec → ChunkRec) : Stream :=
  { t with queue := t.queue.map fun r => if r.no = no then f r else r }

/-- The stream with its numbered record discarded and the record's span freed (R6, R21). -/
def Stream.discard (t : Stream) (no : Nat) : Stream :=
  match t.queue.find? fun r => r.no = no with
  | none => t
  | some r => { t with queue := t.queue.filter fun r => r.no ≠ no }.freeSpan r.start r.len

/-- The numbered record of a stream. -/
def Stream.record (t : Stream) (no : Nat) : Option ChunkRec := t.queue.find? fun r => r.no = no

/-- The byte at an offset of a stream, as MEC delivers it from the stream's ring (R5, R180). -/
def State.ringByte (s : State) (i o : Nat) : Byte := s.readByte (ringAddress i o)

/-- The bytes of a span of a stream's ring. -/
def State.ringBytes (s : State) (i start len : Nat) : List Byte :=
  (List.range len).map fun k => s.ringByte i (start + k)

/-- The object that a stream fills, with its record, while it is there: an object that has been freed is not, whoever holds its id
since. -/
def State.filled (s : State) (i : Nat) : Option (Nat × Obj) :=
  if (s.stream i).gone then none else (s.stream i).object.bind fun o => (s.obj o).map fun r => (o, r)

/-- The chunk count of the object that a stream fills, while that is there. -/
def State.chunkCount (s : State) (i : Nat) : Option Nat := (s.filled i).map fun e => e.2.chunks

/-- The outcomes of an INGEST_END notice, in the order of R25. -/
inductive EndOutcome where
  | faulted | sealed | aborted
  deriving DecidableEq, Repr

/-- The code of an outcome. -/
def EndOutcome.code : EndOutcome → Nat
  | .faulted => 0
  | .sealed => 1
  | .aborted => 2

/-- The INGEST_END notice of a stream, with the figures as they stand (R25). The chunk count of an object that has been freed is
absent (log entries 10 and 50). -/
def State.noticeIngestEnd (s : State) (i : Nat) (e : EndOutcome) : State :=
  let t := s.stream i
  s.notice (slotIngestEnd i)
    ([⟨1, i⟩, optField 2 t.object, ⟨1, e.code⟩] ++
      (match e, t.cause with
       | .faulted, some c => [⟨1, c.code⟩]
       | _, _ => []) ++
      [⟨6, t.received⟩, optField 4 (s.chunkCount i)])

/-- A record as a fault leaves it (R22): work that has not begun at CTM or IDX, or that waits for a placement, goes back to
WAITING_LOOKUP. A placement that has been made goes on to its insertion and its copy, where R22 speaks of the copy alone (DESIGN
CHOICE, log entry 64). -/
def ChunkRec.faulted (r : ChunkRec) : ChunkRec :=
  match r.work with
  | .lookupSent | .place | .placeWait => { r with stage := .waitingLookup, cand := none, work := .idle }
  | _ => r

/-- Whether a waiting placement belongs to a stream. -/
def Waiter.ofStream (i : Nat) : Waiter → Bool
  | .chunk (.record j _) => j = i
  | .record (.segment j) => j = i
  | .record (.closing j) => j = i
  | _ => false

/-- Whether a record placement belongs to a stream. -/
def RecordReq.ofStream (i : Nat) : RecordReq → Bool
  | .segment j => j = i
  | .closing j => j = i
  | _ => false

/-- The placements that a stream has asked for or waits for are withdrawn (R21, R77). -/
def State.withdrawPlacements (s : State) (i : Nat) : State :=
  s.onCtm fun m =>
    { m with
      waiting := m.waiting.filter fun w => !w.ofStream i,
      recordReqs := m.recordReqs.filter fun r => !r.ofStream i,
      sealReqs := m.sealReqs.filter fun r => r ≠ .stream i }

/-- A stream faults: an OPEN, DRAINING or SEALING stream enters FAULTED with the cause, its pending CLOSE_INGEST is answered
by the cause, and INGEST_END is raised (R19, R22, R25). Every other stream is left as it is. -/
def State.streamFault (s : State) (i : Nat) (cause : FaultCause) : State :=
  let t := s.stream i
  if t.active || decide (t.state = .sealing) then
    let s := (s.setStream i
      { t with state := .faulted, cause := some cause, closeTag := none, writingOut := false,
               queue := t.queue.map ChunkRec.faulted }).withdrawPlacements i
    let s := s.noticeIngestEnd i .faulted
    match t.closeTag with
    | some tag => s.refuse tag kindCloseIngest cause.status
    | none => s
  else s

/-- A stream becomes FREE with its record at the values of R1. -/
def State.freeStream (s : State) (i : Nat) : State := s.setStream i Stream.freeRecord

/-- The end of an abort (R21, R25): the INGEST_END notice, the answer to ABORT_INGEST, and the stream FREE. -/
def State.abortEnds (s : State) (i : Nat) : State :=
  let s := s.noticeIngestEnd i .aborted
  let s := match (s.stream i).abortTag with
    | some tag => s.answer tag kindAbortIngest .ok []
    | none => s
  s.freeStream i

/-- The progress of an abort (R21, R60, R64): once the resolve queue of an ABORTING stream is empty, its object enters
RELEASING with the recipe buffer as its tail list, or stays LOST with that tail list, and joins the release queue. A RELEASE
record will be placed if the stream copied a SEGMENT record, and always for a LOST object. R65 does not say what becomes of the
abort when a RELEASE_OBJECT has been taken for the stream's LOST object (DESIGN CHOICE, log entry 50): one that has freed it leaves
nothing to release, and the abort ends; one whose record is still to be copied makes no walk, and the abort ends with it. In a
FAILED array no abort ends (R22). -/
def State.abortSettle (s : State) (i : Nat) : State :=
  let t := s.stream i
  if t.state = .aborting ∧ t.queue = [] ∧ t.queued = false then
    let e := s.filled i
    let s := s.setStream i { t with queued := true, recipe := [] }
    match e with
    | none => if s.ctm.state = .failed then s else s.abortEnds i
    | some (o, r) =>
      if r.state = .lost then
        if (getKey s.oru.marks o).isSome then s
        else
          (s.setObj o (some { r with
            stream := none, recorded := true, tail := some t.recipe,
            walk := some { Walk.start with phase := .tail } })).joinRelease o
      else
        (s.setObj o (some { r with
          state := .releasing, stream := none, tail := some t.recipe,
          walk := some Walk.start })).joinRelease o
  else s

/-- The ABORTING stream of an object, if there is one. -/
def State.abortingStreamOf (s : State) (o : Nat) : Option Nat :=
  (List.range 8).find? fun i => (s.stream i).state = .aborting && (s.stream i).object = some o && !(s.stream i).gone

/-- A stream as it stands when object `o` has been freed: one that filled it has no object from then on (R65). -/
def Stream.objectFreed (t : Stream) (o : Nat) : Stream :=
  if (t.state = .faulted ∨ t.state = .aborting) ∧ t.object = some o then { t with gone := true } else t

/-- The end of an object's release (R62, R65): its locations leave the map, the mark is cleared, the slot is freed, and the
RELEASE_OBJECT or the ABORT_INGEST is answered. A stream whose resolve queue has not emptied is still aborting (R21), and a
SEGMENT read that is outstanding is still to be answered. -/
def State.finishRelease (s : State) (o : Nat) : State :=
  match s.obj o with
  | none => s
  | some r =>
    let lowered := (r.walk.map fun w => w.lowered).getD 0
    let tag := getKey s.oru.marks o
    let aborting := (s.abortingStreamOf o).filter fun i => (s.stream i).queued
    let s := match aborting with
      | some i => s.noticeIngestEnd i .aborted
      | none => s
    let s := s.each (r.map.map fun l => l.container) fun s c => s.segRefLower c
    let s := (s.setObj o none).onOru fun u =>
      { u with
        marks := dropKey u.marks o, queue := u.queue.filter fun q => q ≠ o,
        recordAsked := u.recordAsked.filter fun q => q ≠ o,
        recordCopied := u.recordCopied.filter fun q => q ≠ o,
        handles := if u.queue.head? = some o then none else u.handles,
        walkRead := if u.queue.head? = some o ∧ u.walkRead ≠ .reading then .idle else u.walkRead }
    let s := match tag with
      | some tag => s.answer tag kindReleaseObject .ok [⟨2, o⟩, ⟨4, lowered⟩]
      | none => s
    match aborting with
    | some i =>
      let s := match (s.stream i).abortTag with
        | some tag => s.answer tag kindAbortIngest .ok []
        | none => s
      s.freeStream i
    | none => { s with ing := { s.ing with streams := s.ing.streams.map fun t => t.objectFreed o } }

/-! ## Checkpoint holds (R24) -/

/-- Whether a record is settled under a checkpoint hold: it waits for its lookup with nothing begun, it is RESOLVED with
nothing outstanding, or its placement waits on the checkpoint-needed condition. -/
def ChunkRec.settled (needed : Bool) (r : ChunkRec) : Bool :=
  match r.work with
  | .idle => !decide (r.stage = .verifying)
  | .placeWait => needed
  | _ => false

/-- Whether a held stream is quiet (R24): every record is settled, no RESOLVED record can still leave, and no write-out is
in progress, where a write-out that waits on the checkpoint-needed condition is not waited for, nor what stands behind it. A
faulted stream is quiet once its verifies have completed. -/
def State.streamQuiet (s : State) (i : Nat) : Bool :=
  let t := s.stream i
  let needed := s.ctm.checkpointNeeded
  if t.active then
    let outWaits := t.writingOut && needed && s.ctm.waiting.contains (.record (.segment i))
    t.queue.all (fun r => r.settled needed) &&
      (outWaits || (!t.writingOut && !(t.queue.head?.any fun r => r.stage = .resolved)))
  else if t.state = .faulted then
    decide (t.verifying = 0)
  else true

end Sys2Proof.Machine
end

