-- ==== Sys2Proof/Machine/ContainerOps.lean ====
section
/-!
DEFINITION. What CTM does with containers whatever the command: opening (R77, R187), placing chunks and records (R78 to R80),
sealing and force-sealing (R81, R82), stripe writes (R83, R84), the two lists (R75), and the ARRAY notice (R93).
-/

namespace Sys2Proof.Machine

/-! ## The ARRAY notice (R93) -/

/-- The causes of an ARRAY notice, in the order of R93. -/
inductive ArrayCause where
  | state | space
  deriving DecidableEq, Repr

/-- The ARRAY notice (R93). -/
def State.noticeArray (s : State) (c : ArrayCause) : State :=
  s.notice slotArray
    [⟨1, match c with | .state => 0 | .space => 1⟩, ⟨1, s.ctm.state.code⟩,
     optField 1 (s.arr.map fun a => a.layout.code), optField 1 (s.arr.map fun a => a.layout.members),
     ⟨4, s.tables.freeList.length⟩, ⟨4, s.tables.quarantine.length⟩, ⟨1, flag s.ctm.checkpointNeeded⟩]

/-! ## Stripe buffers and open containers -/

/-- The stripe buffer that a container holds, by number (R76). -/
def State.bufferOf (s : State) (c : Nat) : Option Nat :=
  (List.range 4).find? fun k => ((s.ctm.buffers[k]?.getD none).map fun b => b.container) = some c

/-- The content of a stripe buffer. -/
def State.buffer (s : State) (k : Nat) : Option StripeBuf := s.ctm.buffers[k]?.getD none

/-- The state with a stripe buffer taken, changed or released. -/
def State.setBuffer (s : State) (k : Nat) (b : Option StripeBuf) : State :=
  s.onCtm fun m => { m with buffers := m.buffers.setIfInBounds k b }

/-- The stripe buffer that an opening takes: the lowest-numbered one that no container holds. R77 says only `a buffer` (DESIGN
CHOICE, log entry 43). -/
def State.spareBuffer (s : State) : Option Nat := (List.range 4).find? fun k => (s.buffer k).isNone

/-- The open container of a kind (R76). -/
def State.openOf (s : State) (k : ContKind) : Option Nat :=
  (s.tables.containers.find? fun e => e.2.state = .opened && e.2.kind = k).map fun e => e.1

/-- Whether a container is SEALING. -/
def State.anySealing (s : State) : Bool := s.tables.containers.any fun e => e.2.state = .sealing

/-- A container as it is opened (R77). -/
def Container.fresh (k : ContKind) : Container :=
  { state := .opened, kind := k, seq := none, live := 0, segRefs := 0, entries := 0, fill := 0, reads := 0,
    scarred := false }

/-- `n` bytes of a container's stripe buffer from an offset, as MEC delivers them. -/
def State.bufferBytes (s : State) (c off n : Nat) : List Byte :=
  match s.bufferOf c with
  | some k => s.readBytes (bufferAddress k off) n
  | none => []

/-- Whether a word that is uncorrectable as it stands lies in a range of the memory (R180). -/
def State.badIn (s : State) (a n : Nat) : Bool := s.mec.bad.any fun w => wordTouches a n w

/-! ## The lists (R75) -/

/-- The free list gains a container at its head; the checkpoint-needed condition ends (R75, R77). -/
def State.returnFree (s : State) (c : Nat) : State :=
  (s.onTables fun t => t.setLists (c :: t.freeList) t.quarantine).onCtm fun m => { m with checkpointNeeded := false }

/-- The release of the quarantine (R75): the whole quarantine list joins the tail of the free list and the
checkpoint-needed condition ends. The transitions to FREE that the checkpoint held back are then made in the order they
arose (R188). -/
def State.releaseQuarantine (s : State) : State :=
  let held := s.ctm.deferred
  let s := s.onTables fun t => t.setLists (t.freeList ++ t.quarantine) []
  let s := s.onCtm fun m => { m with checkpointNeeded := false, noOpen := false, noFree := false, deferred := [] }
  s.each held fun s c => s.testFree c

/-! ## Opening a container (R77, R187) -/

/-- How an attempt to open a container, or to place, ends. -/
inductive Opened where
  | at_ (c : Nat)
  | waits
  | full
  deriving DecidableEq, Repr

/-- The zero stripes that must be written before container `c` is opened (R187). -/
def State.zeroStripes (s : State) (c : Nat) (a : ArrayRec) : State :=
  let top := min (c + 4) (a.containers - 1)
  let cs := ((List.range (top + 1)).drop a.fence).filter fun k => (s.cont k).isNone
  let writable := s.positions.filter fun p => s.member p ≠ .failed && s.member p ≠ .absent
  let s := s.onCtm fun m => { m with zeroing := some (min (c + 5) a.containers, cs.length * writable.length) }
  s.each cs fun s k => s.submitAll (writable.map fun p =>
    (p, writeOp .write k 0 (List.replicate unitSize 0) .ctm (.zeroStripe k)))

/-- The checkpoint-needed condition begins, with its notice, where a container cannot be opened for want of a free one while the
quarantine list is not empty (R77, R93). -/
def State.needCheckpoint (s : State) : State :=
  if s.tables.freeList = [] ∧ s.tables.quarantine ≠ [] ∧ s.ctm.checkpointNeeded = false then
    (s.onCtm fun m => { m with checkpointNeeded := true }).noticeArray .space
  else s

/-- An attempt to open a container of a kind (R77). While zero stripes are being written, or a checkpoint holds openings
back (R188), it waits. With the free list empty the state of the buffers is not looked at: the condition begins, or
ARRAY_FULL is answered, whether or not a buffer is free (R14 and R77 leave it open: DESIGN CHOICE, log entry 43). -/
def State.openContainer (s : State) (k : ContKind) : State × Opened :=
  if s.ctm.zeroing.isSome ∨ s.ctm.noOpen = true then (s, .waits)
  else match s.tables.freeList, s.spareBuffer, s.arr with
    | c :: rest, some b, some a =>
      if a.fence < a.containers ∧ a.fence ≤ c + 4 then (s.zeroStripes c a, .waits)
      else
        let s := (s.onTables fun t => t.setLists rest t.quarantine).setCont c (some (Container.fresh k))
        let s := s.setBuffer b (some { container := c, places := [] })
        (s.zeroMem (bufferAddress b 0) ringSize, .at_ c)
    | [], _, _ =>
      if s.tables.quarantine.isEmpty then (s, .full) else (s.needCheckpoint, .waits)
    | _, _, _ => (s, .waits)

/-! ## Sealing (R82, R83) -/

/-- The units of a sealed stripe, data units first and parity last, from its data area (R72, R76). -/
def stripeUnits (l : Layout) (area : List Byte) : List (List Byte) :=
  let ds := (List.range l.dataUnits).map fun j => (area.drop (j * unitSize)).take unitSize
  ds ++ [xorAll unitSize ds]

/-- The unit of stripe `c` that lies on a position, from its units (R71). -/
def unitFor (l : Layout) (c p : Nat) (units : List (List Byte)) : List Byte :=
  match unitOn l.members c p with
  | some j => units[j]?.getD []
  | none => units[l.dataUnits]?.getD []

/-- The data area of a container as it is sealed: its chunk space from the buffer and its directory with the area CRC
(R74, R82). -/
def sealedArea (space : List Byte) (k : ContKind) (seq : Nat) (places : List Place) : List Byte :=
  let bare := space ++ directoryBytes k seq 0 places
  space ++ directoryBytes k seq (crc32 bare) places

/-- Whether a copy into a container is still to come: a placed chunk's insertion or copy, or a relocated chunk's copy
(R79). -/
def State.copyPending (s : State) (c : Nat) : Bool :=
  ((List.range 8).any fun i => (s.stream i).queue.any fun r => match r.work with
    | .insert c' _ _ => c' = c
    | .copy _ c' _ _ => c' = c
    | _ => false) ||
  s.ctm.reloc.any fun r => match r.stage with
    | .copy _ c' _ _ => c' = c
    | _ => false

/-- Steps 3 to 5 of sealing (R82): the directory, its area CRC and the parity are written into the buffer. The units of the
stripe are answered, data units first. -/
def State.finishStripe (s : State) (b : Nat) (k : ContKind) (seq : Nat) (l : Layout) : State × List (List Byte) :=
  let places := ((s.buffer b).map fun x => x.places).getD []
  let area := sealedArea (s.readBytes (bufferAddress b 0) l.chunkSpace) k seq places
  let units := stripeUnits l area
  let s := s.writeMem (bufferAddress b l.chunkSpace) (area.drop l.chunkSpace)
  (s.writeMem (bufferAddress b (l.dataUnits * unitSize)) (units[l.dataUnits]?.getD []), units)

/-- Steps 3 to 6 of sealing (R82): the stripe finished in the buffer, and a unit write issued for every position whose member is
not FAILED or ABSENT (R83). -/
def State.issueWrite (s : State) (c b : Nat) (k : ContKind) (seq : Nat) (l : Layout) : State :=
  let f := s.finishStripe b k seq l
  let issued := (List.range l.members).filter fun p => s.member p ≠ .failed && s.member p ≠ .absent
  let w : StripeWrite := { container := c, seq := seq, out := issued, written := 0 }
  (f.1.onCtm fun m => { m with writes := m.writes ++ [w] }).submitAll (issued.map fun p =>
    (p, writeOp .write c 0 (unitFor l c p f.2) .ctm (.stripeWrite c)))

/-- The channel at position `p` with every operation that it queues, keeps waiting, holds back or carries changed, each by the
position that it is for. -/
def Channel.mapOps (c : Channel) (p : Nat) (f : Nat → Op → Op) : Channel :=
  { c with
    queues := c.queues.map fun q => q.map (f p),
    waiting := c.waiting.map fun ws => ws.map fun w => { op := f p w.op, rest := w.rest.map fun e => (e.1, f e.1 e.2) },
    current := c.current.map (f p) }

/-- A chunk has been copied into a container that is SEALING (R82): the stripe is finished in the buffer with it, and the unit
writes that have not ended carry the stripe as it now stands. What becomes of such a chunk no rule says (DESIGN CHOICE, log entry
11). -/
def State.lateCopy (s : State) (c b : Nat) : State :=
  match s.cont c, s.arr with
  | some r, some a =>
    if r.state = .sealing then
      let f := s.finishStripe b r.kind (r.seq.getD 0) a.layout
      f.1.each (List.range 4) fun s p => s.modChan p fun x => x.mapOps p fun q o =>
        if o.job = .stripeWrite c then { o with data := unitFor a.layout c q f.2 } else o
    else s
  | _, _ => s

/-- Sealing an OPEN container (R82), its six steps in one: it is SEALING, takes the sequence counter's value and receives no
placement, and its stripe write is issued. -/
def State.sealContainer (s : State) (c : Nat) : State :=
  match s.cont c, s.bufferOf c, s.arr with
  | some r, some b, some a =>
    let s := s.setCont c (some { r with state := .sealing, seq := some a.seq })
    let s := s.onArray fun a => { a with seq := sequenceUp a.seq }
    s.issueWrite c b r.kind a.seq a.layout
  | _, _, _ => s

/-- An open container that has taken nothing goes back to the head of the free list and gives its buffer up (R81). -/
def State.returnEmpty (s : State) (c : Nat) : State :=
  let s := match s.bufferOf c with
    | some b => s.setBuffer b none
    | none => s
  (s.setCont c none).returnFree c

/-- A forced seal of one kind (R81): the state after it, with the container whose write it issued. -/
def State.forceSeal (s : State) (k : ContKind) : State × List Nat :=
  match s.openOf k with
  | none => (s, [])
  | some c =>
    if ((s.cont c).map fun r => r.fill).getD 0 = 0 then (s.returnEmpty c, []) else (s.sealContainer c, [c])

/-! ## Placing (R78, R80) -/

/-- Whether a length fits the open container (R78, R80). -/
def Container.fits (r : Container) (l : Layout) (len : Nat) : Bool :=
  decide (r.fill + len ≤ l.chunkSpace) && decide (r.entries < 255)

/-- The container in which a length of a kind is placed: the open one when it fits, and otherwise, after the open one has
been sealed, a new one (R78, R80). -/
def State.roomFor (s : State) (k : ContKind) (len : Nat) : State × Opened :=
  match s.openOf k with
  | some c =>
    match s.cont c with
    | some r => if r.fits s.layout len then (s, .at_ c) else (s.sealContainer c).openContainer k
    | none => s.openContainer k
  | none => s.openContainer k

/-- A placement in container `c`: its offset and directory place, with the fill offset and the entry count moved on and the
place taken with the given content. -/
def State.take (s : State) (c len : Nat) (content : Nat → Place) : State × Nat × Nat :=
  match s.cont c, s.bufferOf c with
  | some r, some b =>
    let s := s.setCont c (some { r with fill := r.fill + len, entries := r.entries + 1 })
    let places := ((s.buffer b).map fun x => x.places).getD []
    (s.setBuffer b (some { container := c, places := places ++ [content r.fill] }), r.fill, r.entries)
  | _, _ => (s, 0, 0)

/-- How a chunk placement is answered (R78). -/
inductive Placed where
  | at_ (c off place : Nat)
  | waits
  | full
  deriving DecidableEq, Repr

/-- A chunk placement (R78). The place stays empty until the copy comes (R79). -/
def State.placeChunk (s : State) (len : Nat) : State × Placed :=
  match s.roomFor .data len with
  | (s, .at_ c) => let r := s.take c len fun _ => .empty
    (r.1, .at_ c r.2.1 r.2.2)
  | (s, .waits) => (s, .waits)
  | (s, .full) => (s, .full)

/-- A record placement with its copy (R80): the record's bytes and its directory place are in the buffer. -/
def State.placeRecord (s : State) (r : RecipeRec) : State × Placed :=
  match s.roomFor .recipe r.size with
  | (s, .at_ c) =>
    let t := s.take c r.size fun off => .record r off
    let s := match t.1.bufferOf c with
      | some b => t.1.writeMem (bufferAddress b t.2.1) r.bytes
      | none => t.1
    (s, .at_ c t.2.1 t.2.2)
  | (s, .waits) => (s, .waits)
  | (s, .full) => (s, .full)

/-- The copy of a chunk's bytes to its placed offset, with the directory entry filled (R79), also in a container that is SEALING
(R82). A bad word that it writes is good again (R180). Where the container has lost its buffer since the placement, its record being
lost (R182), nothing is copied, and the copy of a new chunk is answered as complete all the same: R79 does not name the case (DESIGN
CHOICE, log entry 74). -/
def State.copyChunk (s : State) (c off place : Nat) (moved : Bool) (h : Nat) (f : Fp) (bytes : List Byte) : State :=
  match s.bufferOf c with
  | some b =>
    let s := s.writeMem (bufferAddress b off) bytes
    match s.buffer b with
    | some x => (s.setBuffer b (some { x with places := x.places.set place (.chunk moved h f off) })).lateCopy c b
    | none => s
  | none => s

end Sys2Proof.Machine
end

