-- ==== Sys2Proof/Machine/ReadOps.lean ====
section
/-!
DEFINITION. Reading from the array: the read buffer pool (R175), chunk and record reads with their reconstruction and repair
(R53, R87 to R89), and the first reads of a scrub step and of a rebuild (R140, R150).
-/

namespace Sys2Proof.Machine

/-! ## Positions and units -/

/-- Whether IGU's adoption has a position whose first label write has not completed (R148). -/
def State.adopting (s : State) (p : Nat) : Bool := s.igu.adoption.any fun a => a.position = p && !a.labelled

/-- Whether a position counts as lost (R69, R139, R148). -/
def State.lostPosition (s : State) (p : Nat) : Bool :=
  decide (s.member p = .failed) || decide (s.member p = .absent) || s.adopting p

/-- Whether the unit of container `c` on a position is unavailable to a read (R89). -/
def State.unavailable (s : State) (p c : Nat) : Bool :=
  s.lostPosition p || (decide (s.member p = .rebuilding) && decide (s.igu.rebuildCursor ≤ c))

/-- The positions other than one. -/
def State.others (s : State) (p : Nat) : List Nat := s.positions.filter fun q => q ≠ p

/-! ## The read buffer pool (R175) -/

/-- The read buffers that are free. -/
def Mec.freeBuffers (m : Mec) : Nat := 128 - m.lent.foldl (fun n e => n + e.2) 0

/-- The buffers that an asker holds. -/
def Mec.heldBy (m : Mec) (a : BufAsker) : Nat := (m.lent.filter fun e => e.1 = a).foldl (fun n e => n + e.2) 0

/-- The pool with the buffers of an asker set. -/
def Mec.setHeld (m : Mec) (a : BufAsker) (n : Nat) : Mec :=
  let rest := m.lent.filter fun e => e.1 ≠ a
  { m with lent := if n = 0 then rest else rest ++ [(a, n)] }

/-- An asker takes the buffers it needs at once, or joins the waiting queue: the state, and whether it took them. Which of the 128
buffers an asker is lent, and where in the region the bytes of a drive read lie, no rule gives: buffers are counted for each asker and
have no numbers, and their bytes stand with the read, the step or the chunk in flight (DESIGN CHOICE, log entry 101). -/
def State.takeBuffers (s : State) (a : BufAsker) (n : Nat) : State × Bool :=
  if n ≤ s.mec.freeBuffers then (s.onMec fun m => m.setHeld a (m.heldBy a + n), true)
  else (s.onMec fun m => { m with bufferQueue := m.bufferQueue ++ [(a, n)] }, false)

/-- The waiting queue served from its head for as long as the head's need can be met: the pool, and the askers served. The
fuel is the queue's length. -/
def Mec.serveBuffers : Nat → Mec → List BufAsker → Mec × List BufAsker
  | 0, m, done => (m, done)
  | fuel + 1, m, done =>
    match m.bufferQueue with
    | [] => (m, done)
    | (a, n) :: rest =>
      if n ≤ m.freeBuffers then
        Mec.serveBuffers fuel { m with bufferQueue := rest, lent := m.lent ++ [(a, n)] } (done ++ [a])
      else (m, done)

/-! ## Read jobs -/

/-- A read job by its number. -/
def State.readJob (s : State) (id : Nat) : Option ReadJob := getKey s.ctm.reads id

/-- The state with a read job replaced or dropped. -/
def State.setReadJob (s : State) (id : Nat) (j : Option ReadJob) : State :=
  s.onCtm fun m => { m with reads := setKey m.reads id j }

/-- The requester that a read's operations name (R97). -/
def ReadWho.requester : ReadWho → Requester
  | .chunk (.stream i _) => .readStream i
  | .chunk (.verify i _) => .ingest i
  | .seg (.stream i) => .readStream i
  | .attachDirectory => .ckr
  | _ => .ctm

/-- The units that a range of a data area touches, each with its range (R87). -/
def touched (off len : Nat) : List Part :=
  (List.range ((off % unitSize + len + unitSize - 1) / unitSize)).map fun k =>
    let unit := off / unitSize + k
    let first := if k = 0 then off % unitSize else 0
    let past := min unitSize (off + len - unit * unitSize)
    { unit := unit, start := first, len := past - first, degraded := false, byError := false, got := none,
      failed := false }

/-- The job of a unit read: whether it belongs to a read. -/
def readJobIs (id : Nat) : Job → Bool
  | .unitRead k _ _ => k = id
  | _ => false

/-- The unit reads of one part: the member that holds the unit, or, when the unit is served degraded, every other member
(R89). -/
def State.partReads (s : State) (j : ReadJob) (k : Nat) (p : Part) : List (Nat × Op) :=
  let n := s.nMembers
  let own := dataMember n j.container p.unit
  let ps := if p.degraded then s.others own else [own]
  ps.map fun q => (q, readOp j.cls j.container p.start p.len j.who.requester (.unitRead j.id k q))

/-- Whether the other members can supply a unit's range (R88, R89). -/
def State.othersAvailable (s : State) (c unit : Nat) : Bool :=
  (s.others (dataMember s.nMembers c unit)).all fun q => !s.unavailable q c

/-- A read stream is told that a reconstruction or a degraded read of its chunk has begun (R128). -/
def State.reportReconstructing (s : State) (j : ReadJob) : State :=
  match j.who with
  | .chunk (.stream _ _) =>
    s.onCtm fun m => { m with reports := m.reports ++ [{ job := j.id, who := j.who, answer := .reconstructing }] }
  | _ => s

/-- The degraded-read tally raised (R89). -/
def State.countDegraded (s : State) (n : Nat) : State :=
  s.onCtm fun m => { m with degradedReads := (List.range n).foldl (fun t _ => tallyUp 9 t) m.degradedReads }

/-- The reads of the numbered parts submitted, with the job waiting for them. -/
def State.submitParts (s : State) (j : ReadJob) (ks : List Nat) : State :=
  let ops := (ks.map fun k => match j.parts[k]? with
    | some p => if p.failed then [] else s.partReads j k p
    | none => []).flatten
  (s.setReadJob j.id (some { j with out := ops.length })).submitAll ops

/-- The most bytes that a read may take: a SEGMENT record's size is not known before its count, so that ORU asks for the largest
record, or what is left of the chunk space (R53 does not say: DESIGN CHOICE, log entry 47). -/
def State.fullLength (s : State) (j : ReadJob) : Nat :=
  match j.check with
  | .segment _ _ => min maxRecordSize (s.layout.chunkSpace - j.offset)
  | _ => j.length

/-- The units of a read submitted from part `from_` on, each degraded when it is unavailable (R87, R89). The degraded-read tally
rises for an unavailable unit that cannot be served because another unit of the stripe is unavailable as well, where R89 is
silent (DESIGN CHOICE, log entry 59). -/
def State.readFrom (s : State) (j : ReadJob) (from_ : Nat) : State :=
  let fresh := ((touched j.offset j.length).drop from_).map fun p =>
    { p with degraded := s.unavailable (dataMember s.nMembers j.container p.unit) j.container }
  let lost := fresh.filter fun p => p.degraded
  let two := decide (2 ≤ lost.length + ((j.parts.take from_).filter fun p => p.degraded).length)
  let parts := j.parts.take from_ ++ fresh.map fun p =>
    { p with failed := p.degraded && (two || !s.othersAvailable j.container p.unit) }
  let j := { j with phase := .reading, parts := parts, buffered := none }
  let s := s.countDegraded lost.length
  let s := if lost.isEmpty then s else s.reportReconstructing j
  s.submitParts j ((List.range parts.length).drop from_)

/-- A read begins once it has its read buffers (R53, R87, R89): its bytes are taken from the stripe buffer of an OPEN or SEALING
container, or its units are read. -/
def State.startRead (s : State) (id : Nat) : State :=
  match s.readJob id with
  | none => s
  | some j =>
    match s.cont j.container with
    | some { state := .opened, .. } | some { state := .sealing, .. } =>
      s.setReadJob id (some { j with
        phase := .reading, parts := [], out := 0,
        buffered := some (s.bufferBytes j.container j.offset (s.fullLength j)) })
    | _ => s.readFrom { j with parts := [] } 0

/-! ## What starts when buffers are had -/

/-- A scrub step's reads of every position's unit (R140). -/
def State.startScrubReads (s : State) : State :=
  match s.igu.step with
  | none => s
  | some st =>
    let ps := s.positions.filter fun p => !s.unavailable p st.container
    let units := Vector.ofFn fun p : Fin 4 => if ps.contains p.val then UnitRead.out else UnitRead.lost
    let s := s.onIgu fun g => { g with step := some { st with started := true, units := units } }
    s.submitAll (ps.map fun p => (p, readOp .scrub st.container 0 unitSize .igu .scrubRead))

/-- The reads of a container that is being rebuilt, from every other member (R150). -/
def State.startRebuildReads (s : State) : State :=
  match s.igu.rebuild, s.igu.adoption with
  | some r, some a =>
    let ps := s.others a.position
    let units := Vector.ofFn fun p : Fin 4 => if ps.contains p.val then UnitRead.out else UnitRead.lost
    let s := s.onIgu fun g => { g with rebuild := some { r with started := true, units := units } }
    s.submitAll (ps.map fun p => (p, readOp .rebuild r.container 0 unitSize .igu .rebuildRead))
  | _, _ => s

/-- Whether an asker waits to begin its reads. -/
def State.askerWaits (s : State) : BufAsker → Bool
  | .readJob id => (s.readJob id).any fun j => j.phase = .waiting
  | .scrub => s.igu.step.any fun st => st.reading && !st.started
  | .rebuild => s.igu.rebuild.any fun r => !r.started

/-- An asker that waits and has been given its buffers goes on. -/
def State.startAsker (s : State) (a : BufAsker) : State :=
  if s.askerWaits a then
    match a with
    | .readJob id => s.startRead id
    | .scrub => s.startScrubReads
    | .rebuild => s.startRebuildReads
  else s

/-- Buffers returned to the pool and given to the waiting queue from its head (R175). -/
def State.returnBuffers (s : State) (a : BufAsker) (n : Nat) : State :=
  let m := s.mec.setHeld a (s.mec.heldBy a - n)
  let r := Mec.serveBuffers m.bufferQueue.length m []
  r.2.foldl (fun s a => s.startAsker a) { s with mec := r.1 }

/-- An asker asks for buffers and goes on at once when it has them. -/
def State.askBuffers (s : State) (a : BufAsker) (n : Nat) : State :=
  match s.takeBuffers a n with
  | (s, true) => s.startAsker a
  | (s, false) => s

/-- The read numbered `id` begun: the container's reads in flight rise, and the read asks for `need` read buffers (R87, R175).
`again` says that a buffer error has already been met. -/
def State.beginRead (s : State) (id need : Nat) (again : Bool) (who : ReadWho) (handle : Option Nat) (cls : Cls)
    (c off len : Nat) (check : ReadCheck) : State :=
  let j : ReadJob :=
    { id := id, who := who, handle := handle, cls := cls, container := c, offset := off, length := len, check := check,
      phase := .waiting, parts := [], out := 0, reread := again, buffered := none }
  ((s.readRaise c).setReadJob id (some j)).askBuffers (.readJob id) need

/-- A new read (R87), with a data buffer and a work buffer (R175). -/
def State.newRead (s : State) (who : ReadWho) (handle : Option Nat) (cls : Cls) (c off len : Nat) (check : ReadCheck) :
    State :=
  let id := s.ctm.nextRead
  (s.onCtm fun m => { m with nextRead := id + 1 }).beginRead id 2 false who handle cls c off len check

/-! ## The end of a read -/

/-- The container whose recovery a read serves (R182). -/
def ReadWho.recovers : ReadWho → Option Nat
  | .recover c => some c
  | _ => none

/-- A container being recovered whose kind is taken as DATA waits for IDX's sum (R182). -/
def State.recoveredAsData (s : State) (c : Nat) : State :=
  s.onCtm fun m => { m with recovering := m.recovering.map fun e => if e.1 = c then (c, true) else e }

/-- Whether an answer leaves bytes in the read's data buffer for its requester: bytes delivered, and the bytes as read that a
relocation takes (R87, R90). -/
def ReadAnswer.keepsBuffer (a : ReadAnswer) (who : ReadWho) : Bool :=
  match a with
  | .bytes _ => true
  | .dataLost (some _) => decide (who = .relocChunk)
  | _ => false

/-- A read is answered (R87): its report joins the reports, the container's reads in flight fall, and the work buffer goes
back, with the data buffer unless it holds bytes for the requester (R175). -/
def State.answerRead (s : State) (j : ReadJob) (a : ReadAnswer) : State :=
  let s := s.setReadJob j.id none
  let s := s.onCtm fun m => { m with reports := m.reports ++ [{ job := j.id, who := j.who, answer := a }] }
  let s := s.readLower j.container
  s.returnBuffers (.readJob j.id) (if a.keepsBuffer j.who then 1 else 2)

/-- The requester has finished with a read's bytes: its data buffer goes back (R175). -/
def State.bufferDone (s : State) (id : Nat) : State := s.returnBuffers (.readJob id) 1

/-- Whether bytes pass a read's check (R53, R87, R90, R182). -/
def ReadCheck.passes (l : Layout) (bs : List Byte) : ReadCheck → Bool
  | .chunk f => matchesFp f bs
  | .segment o ord =>
    match RecipeRec.parse bs with
    | some (.segment o' ord' _) => decide (o = o') && decide (ord = ord')
    | _ => false
  | .directory => true
  | .area => areaGood l bs

/-- The bytes of a read in data area order, when every part is in hand (R87). -/
def gathered (ps : List Part) : Option (List Byte) :=
  if ps.all fun p => p.got.isSome then some ((ps.map fun p => p.got.getD []).flatten) else none

/-- A repair write of a range of a unit, queued under the SCRUB class (R88, R89). -/
def State.queueRepair (s : State) (c unit start : Nat) (data : List Byte) : State :=
  (s.onCtm fun m => { m with repairs := tallyUp 10 m.repairs }).submit (dataMember s.nMembers c unit)
    (writeOp .scrub c start data .ctm .repair)

/-- A failed reconstruction (R88): the chunk is marked damaged, the data-lost tally rises, and the read is answered DATA_LOST
with the bytes as read where they are in hand. A read that is no chunk's marks and counts nothing. The tally rises too for a
failed check of bytes from a stripe buffer, where R88 names the mark and the answer alone (DESIGN CHOICE, log entry 58). -/
def State.readLost (s : State) (j : ReadJob) (asRead : Option (List Byte)) : State :=
  let s := match j.handle, j.check with
    | some h, .chunk f =>
      (s.idxDamage h f).onCtm fun m => { m with dataLost := tallyUp 11 m.dataLost }
    | _, _ => s
  s.answerRead j (.dataLost asRead)

/-- The reconstruction of part `k`, or of the next part that can be reconstructed (R88); with none left the read has failed.
The fuel is the number of parts. -/
def State.reconFrom (s : State) (j : ReadJob) : Nat → Nat → State
  | 0, _ => s.readLost j (gathered j.parts)
  | fuel + 1, k =>
    match j.parts[k]? with
    | none => s.readLost j (gathered j.parts)
    | some p =>
      if s.othersAvailable j.container p.unit then
        let ps := s.others (dataMember s.nMembers j.container p.unit)
        let ops := ps.map fun q =>
          (q, readOp j.cls j.container p.start p.len j.who.requester (.unitRead j.id k q))
        (s.setReadJob j.id (some { j with phase := .recon k, out := ops.length })).submitAll ops
      else s.reconFrom j fuel (k + 1)

/-- The bytes that a returned read brought, if it succeeded. -/
def OpResult.bytes : OpResult → Option (List Byte)
  | .ok bs => some bs
  | _ => none

/-- The bytes that the returned reads of part `k` give: those of one read, or the XOR of several (R72); none when one of them
failed. -/
def partResult (rs : List Returned) (k n : Nat) (degraded : Bool) : Option (List Byte) :=
  let mine := rs.filter fun r => match r.op.job with
    | .unitRead _ k' _ => k' = k
    | _ => false
  if mine.isEmpty then none
  else if mine.all fun r => r.result.bytes.isSome then
    let bs := mine.map fun r => r.result.bytes.getD []
    if degraded then some (xorAll n bs) else some (bs.headD [])
  else none

/-- The parts after their reads have come back: a part read directly that failed is to be served degraded, for a read error
that leaves its member ACTIVE noted as such; a degraded part that failed cannot be had (R89). -/
def partsBack (j : ReadJob) (rs : List Returned) : List Part :=
  (List.range j.parts.length).map fun k =>
    match j.parts[k]? with
    | none => { unit := 0, start := 0, len := 0, degraded := false, byError := false, got := none, failed := true }
    | some p =>
      if p.got.isSome ∨ p.failed = true then p
      else match partResult rs k p.len p.degraded with
        | some bs => { p with got := some bs }
        | none =>
          if p.degraded then { p with failed := true }
          else
            let byError := rs.any fun r => r.result = .error && decide (r.op.job = .unitRead j.id k r.position)
            { p with degraded := true, byError := byError }

/-- Repair writes for the parts that a read error made unavailable while their member is still ACTIVE (R89). -/
def State.repairErrors (s : State) (j : ReadJob) : State :=
  j.parts.foldl (fun s p =>
    if p.byError && decide (s.member (dataMember s.nMembers j.container p.unit) = .active) then
      s.queueRepair j.container p.unit p.start (p.got.getD [])
    else s) s

/-- Whether the SEGMENT record that begins a run of bytes goes on past the run: its header is not whole, or its count says
so (R52). -/
def segmentGoesOn (bs : List Byte) : Bool :=
  match readFields [2, 2, 2, 2] bs with
  | [kind, _, _, count] =>
    decide (bs.length < 8) || (decide (kind = 0) && decide (1 ≤ count ∧ count ≤ 4096) && decide (bs.length < 12 + 4 * count))
  | _ => false

/-- Whether a read has still to take the next unit that its record touches (R53). -/
def State.readGoesOn (s : State) (j : ReadJob) (bs : List Byte) : Bool :=
  j.buffered.isNone && decide (j.length < s.fullLength j) && segmentGoesOn bs

/-- The read taken on to the next unit of its record (R53). The parts that it has stand as read, so that one unit at a time is
rebuilt (R88). -/
def State.readOn (s : State) (j : ReadJob) : State :=
  s.readFrom { j with length := s.fullLength j } j.parts.length

/-- The check of a read's gathered bytes (R53, R87 to R89): delivered, to be read on, to be reconstructed, or lost. The
reconstruction is reported as begun also where it turns out that no touched unit can be rebuilt, so that the chunk is RECONSTRUCTING
until DATA_LOST comes (R128 does not say: DESIGN CHOICE, log entry 68). -/
def State.checkRead (s : State) (j : ReadJob) (bs : List Byte) : State :=
  if j.check.passes s.layout bs then (s.repairErrors j).answerRead j (.bytes bs)
  else if s.readGoesOn j bs then s.readOn j
  else if j.buffered.isSome ∨ (j.parts.any fun p => p.degraded) = true then s.readLost j (some bs)
  else (s.reportReconstructing j).reconFrom j j.parts.length 0

/-- What a read that is out when the array has failed is answered (R69, R89): ARRAY_FAILED, but for a release walk's SEGMENT read
whose bytes have all come back good, which is delivered so that its handles are lowered before the walk stops (R63; where R63
and R69 pull apart: DESIGN CHOICE, log entry 53). -/
def State.failedAnswer (s : State) (j : ReadJob) (rs : List Returned) (bad : Bool) : ReadAnswer :=
  if j.who = .seg .walk ∧ j.phase = .reading ∧ bad = false then
    match j.buffered.or (gathered (partsBack j rs)) with
    | some bs => if j.check.passes s.layout bs then .bytes bs else .arrayFailed
    | none => .arrayFailed
  else .arrayFailed

/-- A buffer error (R87): the whole read is made once more, and a second error answers DATA_LOST with no mark. -/
def State.rereadOrLose (s : State) (j : ReadJob) : State :=
  if j.reread then s.answerRead j (.dataLost none)
  else (s.setReadJob j.id (some { j with reread := true })).startRead j.id

/-- Whether the operations that a read waits for have all come back. -/
def State.readBack (s : State) (j : ReadJob) : Bool :=
  decide (j.phase ≠ .waiting) && decide (j.out ≤ (s.returned (readJobIs j.id)).length)

/-- The unit reads of a read have come back (R87 to R89); `bad` says that MEC reported an uncorrectable error in the read
buffer that holds the bytes. In a FAILED array a release walk's segment that has come back good is still delivered (log entry
53). The degraded-read tally rises for each unit that proves unavailable, served or not (DESIGN CHOICE, log entry 59). A read whose
buffer is in error is made once more whatever its units gave (R180). -/
def State.advanceRead (s : State) (j : ReadJob) (bad : Bool) : State :=
  let rs := s.returned (readJobIs j.id)
  let s := s.dropReturned (readJobIs j.id)
  let s := if bad then s.bufferError (!j.reread && decide (s.ctm.state ≠ .failed)) else s
  if s.ctm.state = .failed then s.answerRead j (s.failedAnswer j rs bad)
  else match j.phase with
    | .waiting => s
    | .reading =>
      if bad then s.rereadOrLose j
      else match j.buffered with
      | some bs => s.checkRead j bs
      | none =>
        let parts := partsBack j rs
        let newly := (List.range parts.length).filter fun k =>
          match parts[k]?, j.parts[k]? with
          | some p, some q => p.degraded && !q.degraded
          | _, _ => false
        let lost := parts.filter fun p => p.degraded
        let j := { j with parts := parts }
        if (parts.any fun p => p.failed) = true then s.readLost j none
        else if newly.isEmpty then
          match gathered parts with
          | some bs => s.checkRead j bs
          | none => s.readLost j none
        else if 2 ≤ lost.length ∨
            (newly.any fun k => (parts[k]?.map fun p => !s.othersAvailable j.container p.unit).getD true) = true then
          (s.countDegraded newly.length).readLost j none
        else ((s.countDegraded newly.length).reportReconstructing j).submitParts j newly
    | .recon k =>
      if bad then s.rereadOrLose j
      else match j.parts[k]? with
        | none => s.readLost j (gathered j.parts)
        | some p =>
          match partResult rs k p.len true with
          | none => s.reconFrom j j.parts.length (k + 1)
          | some fix =>
            let tried := j.parts.set k { p with got := some fix }
            match gathered tried with
            | none => s.readLost j none
            | some bs =>
              if j.check.passes s.layout bs then
                (s.queueRepair j.container p.unit p.start fix).answerRead j (.bytes bs)
              else if s.readGoesOn j bs then s.readOn j
              else s.reconFrom j j.parts.length (k + 1)

/-- The oldest report for a requester that satisfies a test. -/
def State.reportFor (s : State) (f : ReadWho → Bool) : Option ReadReport := s.ctm.reports.find? fun r => f r.who

/-- The state with one report taken by its requester. -/
def State.dropReport (s : State) (r : ReadReport) : State :=
  s.onCtm fun m => { m with reports := m.reports.erase r }

/-- The read jobs of a test that still wait for buffers. -/
def State.waitingReads (s : State) (f : ReadWho → Bool) : List ReadJob :=
  (s.ctm.reads.map fun e => e.2).filter fun j => f j.who && decide (j.phase = .waiting)

/-- An asker withdrawn from the waiting queue, with what it still holds given back (R175). The queue is served then too where no
buffer came back, since the head that could not be met may have left it: R175 names the return of buffers alone (DESIGN CHOICE, log
entry 77). -/
def State.withdrawAsker (s : State) (a : BufAsker) (n : Nat) : State :=
  (s.onMec fun m => { m with bufferQueue := m.bufferQueue.filter fun e => e.1 ≠ a }).returnBuffers a n

/-- A read that waits for buffers withdrawn (R175): it is answered to nobody, and a data buffer that it was to be read into again
goes back. -/
def State.withdrawRead (s : State) (j : ReadJob) : State :=
  ((s.setReadJob j.id none).withdrawAsker (.readJob j.id) 2).readLower j.container

end Sys2Proof.Machine
end

