-- ==== Sys2Proof/Machine/PlaceOps.lean ====
section
/-!
DEFINITION. Placements that wait (R77), and what their askers do when they are made, when they have to wait, and when they are
answered ARRAY_FULL (R13, R18, R20, R55, R62, R91).
-/

namespace Sys2Proof.Machine

/-! ## Waiting placements (R77) -/

/-- Whether a waiting placement is one that must stay waiting: a RELEASE record while the box is not in RUN (R156), or while
an attach is in progress (R194). -/
def State.mustWait (s : State) : Waiter → Bool
  | .record (.release _) => !decide (s.pwc.box = .run) || decide (s.ctm.state = .attaching)
  | _ => false

/-- Whether a placement of a kind already waits as R77 gives: a later one waits behind it (R80). A RELEASE record that must
stay waiting, or that waits where other records are answered ARRAY_FULL (R62), holds nobody back. -/
def State.waitsFor (s : State) (k : ContKind) : Bool :=
  s.ctm.waiting.any fun w => match w, k with
    | .chunk _, .data => true
    | .record (.release _), .recipe =>
      !s.mustWait w && !(s.tables.freeList.isEmpty && s.tables.quarantine.isEmpty)
    | .record _, .recipe => true
    | _, _ => false

/-- Whether a stream's forced seal has been asked for and not yet taken. Record placements come after it, so that the data
container's write is issued before the write of the recipe container that holds the SEAL record (R20). -/
def State.streamSealAsked (s : State) : Bool :=
  s.ctm.sealReqs.any fun b => match b with
    | .stream _ => true
    | _ => false

/-- A placement joins the wait (R77). -/
def State.wait (s : State) (w : Waiter) : State := s.onCtm fun m => { m with waiting := m.waiting ++ [w] }

/-- A placement of a kind joins the wait behind another, with no container of its kind OPEN: where none can be opened for want of
a free one, the checkpoint-needed condition begins with it (R77). -/
def State.joinsWait (s : State) (k : ContKind) : State :=
  if (s.openOf k).isNone ∧ s.ctm.zeroing = none ∧ s.ctm.noOpen = false then s.needCheckpoint else s

/-- The recipe record that a requester places, as it stands when it is placed (R52, R54): none when what it was for is
gone. -/
def State.recordFor (s : State) : RecordReq → Option RecipeRec
  | .segment i =>
    let t := s.stream i
    if t.writingOut then t.object.map fun o => .segment o t.segments t.recipe else none
  | .closing i =>
    let t := s.stream i
    if t.state = .sealing then
      t.object.bind fun o => (s.obj o).map fun r =>
        .closing o t.received r.chunks r.kind r.owner r.albums t.segments
    else none
  | .albums _ o al => some (.albums o al)
  | .release o => some (.release o)

/-- The free slots of the segment map pool (R51): P less the locations that the maps hold. -/
def State.poolFree (s : State) : Nat :=
  ((s.mec.map.map fun m => m.pool).getD 0) - s.tables.objects.foldl (fun n e => n + e.2.map.length) 0

/-- A SEGMENT record has been copied (R18, R51): its location joins the object's map, or the stream faults with cause
INDEX_FULL when the pool has no free slot. In either case the object's release will place a RELEASE record (R21, R62). -/
def State.segmentCopied (s : State) (i c off : Nat) : State :=
  let t := s.stream i
  match t.object.bind fun o => (s.obj o).map fun r => (o, r) with
  | none => s
  | some (o, r) =>
    let r := { r with recorded := true }
    if s.poolFree = 0 then (s.setObj o (some r)).streamFault i .indexFull
    else
      let s := (s.setObj o (some { r with map := r.map ++ [{ container := c, offset := off }] })).segRefRaise c
      s.setStream i { t with segments := t.segments + 1, recipe := [], writingOut := false }

/-- What follows when a record has been copied into the recipe container (R18, R20, R55, R62). -/
def State.recordCopied (s : State) (req : RecordReq) (c off : Nat) : State :=
  match req with
  | .segment i => s.segmentCopied i c off
  | .closing i =>
    (s.modStream i fun t => { t with sealAt := some { container := c, offset := off } }).onCtm fun m =>
      { m with sealReqs := m.sealReqs ++ [.stream i] }
  | .albums tag o al =>
    let s := match s.obj o with
      | some r => s.setObj o (some { r with albums := al })
      | none => s
    s.answer tag kindSetAlbums .ok [⟨4, al.toNat⟩]
  | .release o => s.onOru fun u => { u with recordCopied := u.recordCopied ++ [o] }

/-- What follows when a record placement is answered ARRAY_FULL: a stream faults, SET_ALBUMS is refused, and a RELEASE
record waits (R18, R55, R62). -/
def State.recordFull (s : State) (req : RecordReq) : State :=
  match req with
  | .segment i => s.streamFault i .arrayFull
  | .closing i => s.streamFault i .arrayFull
  | .albums tag _ _ => s.refuse tag kindSetAlbums .arrayFull
  | .release o => s.wait (.record (.release o))

/-- One attempt to make a record placement. -/
def State.tryRecord (s : State) (req : RecordReq) : State :=
  match s.recordFor req with
  | none => s
  | some r =>
    match s.placeRecord r with
    | (s, .at_ c off _) => s.recordCopied req c off
    | (s, .waits) => s.wait (.record req)
    | (s, .full) => s.recordFull req

/-- The length of the chunk that a placement is for, while its asker still wants it. -/
def State.placementLength (s : State) : PlaceFor → Option Nat
  | .record i no =>
    match (s.stream i).record no with
    | some r => if r.work = .place ∨ r.work = .placeWait then some r.len else none
    | none => none
  | .relocation =>
    match (s.ctm.reloc.map fun r => r.stage : Option RelocStage) with
    | some (.place bs) => some bs.length
    | some (.placeWait bs) => some bs.length
    | _ => none

/-- The asker of a chunk placement is told where the chunk is placed. -/
def State.placedAt (s : State) (who : PlaceFor) (c off place : Nat) : State :=
  match who with
  | .record i no => s.modStream i fun t => t.modRec no fun r => { r with work := .insert c off place }
  | .relocation => s.onCtm fun m =>
      { m with reloc := m.reloc.map fun r =>
          match r.stage with
          | .place bs => { r with stage := .copy bs c off place }
          | .placeWait bs => { r with stage := .copy bs c off place }
          | _ => r }

/-- The asker of a chunk placement waits with it. -/
def State.placeWaits (s : State) (who : PlaceFor) : State :=
  let s := s.wait (.chunk who)
  match who with
  | .record i no => s.modStream i fun t => t.modRec no fun r => { r with work := .placeWait }
  | .relocation => s.onCtm fun m =>
      { m with reloc := m.reloc.map fun r =>
          match r.stage with
          | .place bs => { r with stage := .placeWait bs }
          | _ => r }

/-- The data buffer that the chunk of a relocation lies in goes back once the walk has finished with the bytes (R175). -/
def State.relocBufferBack (s : State) (r : Reloc) : State :=
  match r.buffer with
  | some id => s.bufferDone id
  | none => s

/-- The asker of a chunk placement is answered ARRAY_FULL: the stream faults (R13), or the relocation walk stops, which has then
finished with its chunk (R91, R175). -/
def State.placeFull (s : State) (who : PlaceFor) : State :=
  match who with
  | .record i _ => s.streamFault i .arrayFull
  | .relocation =>
    match s.ctm.reloc with
    | some r =>
      (s.onCtm fun m => { m with reloc := some { r with full := true, stage := .ending, buffer := none } }).relocBufferBack r
    | none => s

/-- One attempt to make a chunk placement. -/
def State.tryChunk (s : State) (who : PlaceFor) : State :=
  match s.placementLength who with
  | none => s
  | some len =>
    match s.placeChunk len with
    | (s, .at_ c off place) => s.placedAt who c off place
    | (s, .waits) => s.placeWaits who
    | (s, .full) => s.placeFull who

/-- One attempt to make a waiting placement. A chunk's stays behind one that goes on waiting (R77). -/
def State.tryWaiter (s : State) (w : Waiter) : State :=
  if s.mustWait w then s.wait w
  else match w with
    | .chunk who => if s.waitsFor .data then s.wait w else s.tryChunk who
    | .record req => if s.streamSealAsked then s.wait w else s.tryRecord req

/-- Every waiting placement made again, in the order in which they began to wait (R77). -/
def State.retryWaiting (s : State) : State :=
  let ws := s.ctm.waiting
  ws.foldl (fun s w => s.tryWaiter w) (s.onCtm fun m => { m with waiting := [] })

end Sys2Proof.Machine
end

