-- ==== Sys2Proof/Machine/ReaderOps.lean ====
section
/-!
DEFINITION. What RDS does with read streams and grants whatever the command: offering messages (R129), end reasons (R130),
cutting a stream short (R131), its end (R133), and the expiry of a grant (R121).
-/

namespace Sys2Proof.Machine

/-- Owner access (R117). -/
def ownerAccess : Nat := 255

/-- The largest data length of a DATA message (R129). -/
def messageSize : Nat := 16384

/-- The next message of a RUNNING stream offered to the arbiter: the next bytes of its oldest chunk, when that chunk is READY
and no message is offered or being sent (R129). -/
def ReadStream.offerNext (r : ReadStream) : ReadStream :=
  if r.state = .running ∧ r.offered = none ∧ r.sending = none then
    match r.flights with
    | f :: _ =>
      if f.state = .ready ∧ f.sent < f.upto then
        { r with offered := some { offset := f.sent, length := min messageSize (f.upto - f.sent), bytes := none } }
      else r
    | [] => r
  else r

/-- Whether a stream has nothing outstanding: no chunk in flight, no segment read, no message offered or being sent (R130,
R131). -/
def ReadStream.drained (r : ReadStream) : Bool :=
  r.flights.isEmpty && decide (r.segRead = .idle) && r.offered.isNone && r.sending.isNone

/-- Whether a stream becomes FREE by R133. -/
def ReadStream.finished (r : ReadStream) : Bool :=
  r.drained && (decide (r.state = .ending) || (decide (r.state = .running) && r.reason.isSome))

/-- The STREAM_END notice (R133). -/
def State.noticeStreamEnd (s : State) (i : Nat) : State :=
  let r := s.reader i
  s.notice (slotStreamEnd i)
    [⟨1, i⟩, optField 2 r.object, optField 1 r.grant, optField 1 (r.reason.map EndReason.code), ⟨6, r.start⟩,
     ⟨6, r.delivered⟩, ⟨6, r.sent⟩]

/-- A count of streams ended for a reason (R135) raised. -/
def Rds.countEnd (d : Rds) (e : EndReason) : Rds :=
  { d with ends := d.ends.setIfInBounds e.code (tallyUp (20 + e.code) (d.ends[e.code]?.getD 0)) }

/-- A read stream becomes FREE (R133). -/
def State.readerFree (s : State) (i : Nat) : State :=
  let r := s.reader i
  let s := s.noticeStreamEnd i
  let s := match r.reason with
    | some e => { s with rds := s.rds.countEnd e }
    | none => s
  let s := match r.grant with
    | some g => s.setGrant g { s.grant g with opens := (s.grant g).opens - 1 }
    | none => s
  let s := match r.object with
    | some o => s.readerLower o
    | none => s
  s.setReader i ReadStream.freeRecord

/-- The stream's next message is offered, or the stream becomes FREE when it has finished (R129, R130, R131). -/
def State.readerSettle (s : State) (i : Nat) : State :=
  let s := s.modReader i ReadStream.offerNext
  if (s.reader i).finished then s.readerFree i else s

/-- The data buffers of a list of chunks in flight given back (R129, R131). -/
def State.flightBuffersBack (s : State) (fs : List Flight) : State :=
  fs.foldl (fun s f => match f.buffer with
    | some id => s.bufferDone id
    | none => s) s

/-- The read of a stream that still waits for its buffers, by recipe position (R175). -/
def ReadWho.isChunkOf (i : Nat) : ReadWho → Bool
  | .chunk (.stream j _) => i = j
  | _ => false

/-- Whether a read is a segment read of a stream. -/
def ReadWho.isSegOf (i : Nat) : ReadWho → Bool
  | .seg (.stream j) => i = j
  | _ => false

/-- A stream's reads that still wait for buffers are withdrawn by a stop or an array failure (R175). -/
def State.withdrawReads (s : State) (i : Nat) : State :=
  let chunks := s.waitingReads (ReadWho.isChunkOf i)
  let segs := s.waitingReads (ReadWho.isSegOf i)
  let gone := chunks.map fun j => j.who
  let s := (chunks ++ segs).foldl (fun s j => s.withdrawRead j) s
  s.modReader i fun r =>
    { r with
      flights := r.flights.filter fun f => !gone.contains (.chunk (.stream i f.position)),
      segRead := if segs.isEmpty then r.segRead else .idle }

/-- A SEEKING or RUNNING stream enters ENDING (R131); a reason already set stands. Its offered message is withdrawn, READY
chunks are dropped but for the one whose message is being sent, and chunks being read are discarded when they come back. Reads
that wait for buffers are withdrawn by a stop and by the array's failure (R175); on a revocation and an expiry they come back
as the others do. The buffers of the dropped chunks go back, and serve the waiting queue, before the stream's own waiting reads leave
it, so that one of these may begin and comes back to be discarded: R131 and R175 give no order (DESIGN CHOICE, log entry 99). -/
def State.enterEnding (s : State) (i : Nat) (e : EndReason) : State :=
  let r := s.reader i
  if r.state = .seeking ∨ r.state = .running then
    let keep (f : Flight) : Bool := f.state ≠ .ready || (r.sending.isSome && decide (r.flights.head? = some f))
    let dropped := r.flights.filter fun f => !keep f
    let kept := (r.flights.filter keep).map fun f => { f with discarded := decide (f.state ≠ .ready) }
    let s := s.setReader i
      { r with state := .ending, reason := some (r.reason.getD e), offered := none, flights := kept }
    let s := s.flightBuffersBack dropped
    let s := if e = .stopped ∨ e = .arrayFailed then s.withdrawReads i else s
    s.readerSettle i
  else s

/-- The end reason DATA_LOST at an object offset (R130): chunks in flight at later positions are discarded, READY ones at
once. An earlier DATA_LOST point stands, and DATA_LOST replaces COMPLETE and ALLOWANCE_SPENT. -/
def State.readerLost (s : State) (i off : Nat) : State :=
  let r := s.reader i
  let point := max off r.start
  let standing := decide (r.reason = some .dataLost) && decide (r.endPoint ≤ point)
  if r.state = .running ∧ standing = false then
    let later (f : Flight) : Bool := decide (point ≤ f.base)
    let dropped := r.flights.filter fun f => later f && decide (f.state = .ready)
    let kept := (r.flights.filter fun f => !(later f && decide (f.state = .ready))).map fun f =>
      if later f then { f with discarded := true } else f
    let s := s.setReader i { r with reason := some .dataLost, endPoint := point, flights := kept }
    s.flightBuffersBack dropped
  else s

/-- The seek of a stream ends (R125): the stream enters RUNNING, with a reason when the seek could not be made or the range
is empty. -/
def State.seekEnds (s : State) (i : Nat) (e : Option EndReason) : State :=
  let s := s.modReader i fun r =>
    { r with state := .running, reason := e, endPoint := if e.isSome then r.start else r.endPoint }
  s.readerSettle i

/-- A grant becomes EXPIRED and its SEEKING and RUNNING streams enter ENDING (R121), in ascending number (R121 gives no order:
DESIGN CHOICE, log entry 61). -/
def State.expireGrant (s : State) (g : Nat) : State :=
  let s := s.setGrant g { s.grant g with state := .expired }
  s.each (List.range 16) fun s i => if (s.reader i).grant = some g then s.enterEnding i .expired else s

/-- The expiry comparison of one grant (R121). -/
def State.compareGrant (s : State) (g : Nat) : State :=
  if (s.grant g).state = .active ∧ (s.grant g).notAfter ≤ s.pwc.time then s.expireGrant g else s

/-- The expiry comparison of every grant, made when the counter advances or is set (R121), in ascending number (R121 gives no
order: DESIGN CHOICE, log entry 61). -/
def State.compareGrants (s : State) : State := s.each (List.range 64) fun s g => s.compareGrant g

end Sys2Proof.Machine
end

