-- ==== Sys2Proof/Machine/SleepOps.lean ====
section
/-!
DEFINITION. The box state's moves (chapter 8): the steps of sleep entry from step 5 on, abandoning an entry (R160), wake causes
(R160 to R162), and switching bays off (R111).
-/

namespace Sys2Proof.Machine

/-! ## Wake causes -/

/-- The wake count of a cause kind raised (R161). -/
def Pwc.countWake (w : Pwc) (k : CauseKind) : Pwc :=
  { w with wakes := w.wakes.setIfInBounds k.code (tallyUp (30 + k.code) (w.wakes[k.code]?.getD 0)) }

/-- A wake cause in SLEEP (R161): the cause is recorded, the box enters WAKING, the LAN filter stops and MEC is asked to
leave self-refresh. -/
def State.wakeStart (s : State) (k : CauseKind) : State :=
  (s.onPwc fun w =>
    ({ w with cause := some { entryStep := none, kind := k }, box := .waking, filterActive := false }.countWake k)).onMec
    fun m => { m with exitAsked := true }

/-- The WAKE notice (R160, R162). -/
def State.noticeWake (s : State) : State :=
  match s.pwc.cause with
  | none => s
  | some c => s.notice slotWake (causeFields c ++ [⟨4, s.pwc.laterCauses⟩, ⟨4, s.pwc.time.toNat⟩])

/-- The box returns to RUN: the WAKE notice is raised, the cause record cleared, and held work resumes: a waiting RELEASE
record placement is made again (R160, R162). -/
def State.backToRun (s : State) : State :=
  let s := s.noticeWake
  let s := s.onPwc fun w =>
    { w with
      box := .run, entryStep := none, graceTimer := none, cause := none, laterCauses := 0, lateCause := none,
      standbyAsks := w.standbyAsks.map fun a => if a = some .held then none else a }
  s.retryWaiting

/-- The entry is abandoned (R160): an unanswered SLEEP is answered WRONG_STATE with the wake cause, and the box returns to
RUN. -/
def State.abandonEntry (s : State) : State :=
  let s := match s.pwc.sleepTag, s.pwc.cause with
    | some tag, some c => s.answer tag kindSleep .wrongState (causeFields c)
    | _, _ => s
  (s.onPwc fun w => { w with sleepTag := none }).backToRun

/-- A wake cause, by the box state in which it arrives (R160 to R162). At step 6 the entry is abandoned at once; at step 7 the
cause is taken after that step. -/
def State.wakeCause (s : State) (k : CauseKind) : State :=
  match s.pwc.box with
  | .run => s
  | .sleepEntry =>
    if s.pwc.entryStep = some 7 then
      s.onPwc fun w =>
        if w.lateCause.isSome then { w with laterCauses := tallyUp 40 w.laterCauses } else { w with lateCause := some k }
    else
      let s := s.onPwc fun w =>
        if w.cause.isSome then { w with laterCauses := tallyUp 40 w.laterCauses }
        else { w with cause := some { entryStep := w.entryStep, kind := k } }
      if s.pwc.entryStep = some 6 then s.abandonEntry else s
  | .asleep => s.wakeStart k
  | .waking => s.onPwc fun w => { w with laterCauses := tallyUp 40 w.laterCauses }

/-- The end of WAKING, at the host's first good header (R162). -/
def State.wakingEnd (s : State) : State := if s.pwc.box = .waking then s.backToRun else s

/-! ## Sleep entry, steps 5 and 6 -/

/-- The code of the recorded checkpoint outcome: OK or FAILED (R157). -/
def Pwc.outcomeCode (w : Pwc) : Nat := if w.entryCheckpoint then 0 else 1

/-- Step 6 begins (R159): SLEEP is answered, SLEEP_READY raised, and the grace timer started. -/
def State.beginStep6 (s : State) : State :=
  let two : List Field := [⟨1, s.pwc.outcomeCode⟩, ⟨1, s.pwc.grace⟩]
  let s := match s.pwc.sleepTag with
    | some tag => s.answer tag kindSleep .ok two
    | none => s
  let s := s.notice slotSleepReady (two ++ [⟨4, s.pwc.time.toNat⟩])
  s.onPwc fun w => { w with sleepTag := none, entryStep := some 6, graceTimer := some w.grace }

/-- Step 5 is complete when every bay's enable is clear and no member is ACTIVE or STANDBY (R158); the entry then goes on to
step 6, or is abandoned. -/
def State.checkStep5 (s : State) : State :=
  if s.pwc.box = .sleepEntry ∧ s.pwc.entryStep = some 5 ∧ ((List.range 4).all fun b => !(s.bay b).enable) = true ∧
      ((List.range 4).all fun p => s.member p ≠ .active && s.member p ≠ .standby) = true then
    if s.pwc.cause.isSome then s.abandonEntry else s.beginStep6
  else s

/-- Step 5 begins (R158): a standby request goes to the channel of every ACTIVE or STANDBY member. -/
def State.beginStep5 (s : State) : State :=
  let s := s.each (List.range 4) fun s p =>
    if s.member p = .active ∨ s.member p = .standby then
      s.onPwc fun w => { w with standbyAsks := w.standbyAsks.setIfInBounds p (some .sleepEntry) }
    else s
  (s.onPwc fun w => { w with entryStep := some 5 }).checkStep5

/-- The step in hand has completed: the entry is abandoned when a cause is recorded, and otherwise goes on (R160). -/
def State.stepDone (s : State) (goOn : State → State) : State :=
  if s.pwc.cause.isSome then s.abandonEntry else goOn s

/-! ## Bay power (R111) -/

/-- A bay's power switched off: the enable is cleared and any readback window ends. -/
def State.bayOff (s : State) (b : Nat) : State := s.setBay b { s.bay b with enable := false, window := false }

/-- The bay bound to a position switched off. -/
def State.memberBayOff (s : State) (p : Nat) : State :=
  match (s.chan p).bay with
  | some b => s.bayOff b
  | none => s

/-- The position whose channel is bound to a bay (R94). -/
def State.positionOfBay (s : State) (b : Nat) : Option Nat := (List.range 4).find? fun p => (s.chan p).bay = some b

/-! ## Members: the report of a change, and spin-up (R96, R163) -/

/-- The MEMBER notice of a position (R96). -/
def State.noticeMember (s : State) (p : Nat) : State :=
  let c := s.chan p
  s.notice (slotMember p)
    ([⟨1, p⟩, optField 1 c.bay, ⟨1, c.member.state.code⟩] ++
      (match c.member.state, c.member.cause with
       | .failed, some f => [⟨1, failCauseCode f⟩]
       | _, _ => []) ++
      [⟨4, c.member.errors⟩] ++
      (if c.member.state = .rebuilding then [⟨4, s.igu.rebuildCursor⟩] else []))

/-- A member's state set, with its notice and its channel's idleness (R96, R107). What CTM, PWC and IGU then do is added by
the caller. -/
def State.setMember (s : State) (p : Nat) (m : MemberState) : State :=
  let s := s.modChan p fun c => { c with member := { c.member with state := m } }
  (s.noticeMember p).idleUpdate p

/-- The number of members in SPINNING_UP. -/
def State.spinningCount (s : State) : Nat := ((List.range 4).filter fun p => s.member p = .spinningUp).length

/-- S in force falls to the requested limit once the members in SPINNING_UP allow it (R166). -/
def State.limitFalls (s : State) : State :=
  if s.spinningCount ≤ s.pwc.limitAsked ∧ s.pwc.limitAsked < s.pwc.limit then
    s.onPwc fun w => { w with limit := w.limitAsked }
  else s

/-- The start of one spin-up (R163): from OFF the bay is switched on with readback, unless it is on already at attempt 2;
otherwise the start command is sent at once. -/
def State.spinStart (s : State) (e : SpinEntry) : State :=
  let p := e.position
  let powerOn := e.fromOff && decide (e.attempt = 1)
  let begun : Spinning := { attempt := e.attempt, fromOff := e.fromOff, commanded := !powerOn }
  let s := s.onPwc fun w => { w with spinning := w.spinning.setIfInBounds p (some begun) }
  let s := if powerOn then
      match (s.chan p).bay with
      | some b => s.setBay b { s.bay b with enable := true, powerFault := false, window := true }
      | none => s
    else s
  s.setMember p .spinningUp

/-- The test of R163, repeated until it fails: while the queue holds an entry and fewer than S members are spinning up, the
head entry is started. The fuel is the number of positions. -/
def State.spinTest (s : State) : Nat → State
  | 0 => s
  | fuel + 1 =>
    match s.pwc.spinQueue with
    | [] => s
    | e :: rest =>
      if s.spinningCount < s.pwc.limit then
        ((s.onPwc fun w => { w with spinQueue := rest }).spinStart e).spinTest fuel
      else s

/-- A member has left SPINNING_UP, or S in force has changed: S may fall, and spin-ups may start (R163, R166). -/
def State.spinChanged (s : State) : State := s.limitFalls.spinTest 4

/-- PWC with no spin-up, standby or idle timer at any position: a forming that fails, an attach that fails and an attach that binds
the channels anew give every member another state (R186, R190). -/
def Pwc.quieted (w : Pwc) : Pwc :=
  { w with spinQueue := [], spinning := Vector.replicate 4 none, standbyAsks := Vector.replicate 4 none,
           standbyOps := Vector.replicate 4 none, idleTimers := Vector.replicate 4 false }

/-- PWC with no spin-up, waiting or running, at one position. -/
def Pwc.spinDropped (w : Pwc) (p : Nat) : Pwc :=
  { w with spinQueue := w.spinQueue.filter fun e => e.position ≠ p, spinning := w.spinning.setIfInBounds p none }

/-- PWC with no standby request and no standby operation at one position. -/
def Pwc.standbyDropped (w : Pwc) (p : Nat) : Pwc :=
  { w with standbyAsks := w.standbyAsks.setIfInBounds p none, standbyOps := w.standbyOps.setIfInBounds p none }

end Sys2Proof.Machine
end

