-- ==== Sys2Proof/Machine/FailOps.lean ====
section
/-!
DEFINITION. Changes of a member's state and what follows from them in every block: deriving the array state (R69), entering
FAILED (R69), failing a member (R105), waiting scrub steps (R139), the early end of an adoption (R152), and a forming or an
attach that fails (R186, R190).
-/

namespace Sys2Proof.Machine

/-! ## Scrub steps that wait (R139) -/

/-- Whether a container can be scrubbed or rebuilt as stored: SEALED, or DRAINING with a seal sequence (R138). -/
def State.scrubbable (s : State) (c : Nat) : Bool :=
  match s.cont c with
  | some r => decide (r.state = .sealed) || (decide (r.state = .draining) && r.seq.isSome)
  | none => false

/-- The test of a waiting step (R139): deferred once while a position is STANDBY or OFF, dropped when its container is no
longer stored, and otherwise begun once every position that is not lost is ACTIVE or REBUILDING. -/
def State.scrubTest (s : State) : State :=
  match s.igu.step with
  | none => s
  | some st =>
    if st.reading then s
    else
      let ps := s.positions.filter fun p => !s.lostPosition p
      if ps.any fun p => s.member p = .standby || s.member p = .off then
        if st.deferred then s
        else s.onIgu fun g =>
          { g with step := some { st with deferred := true }, deferred := tallyUp 50 g.deferred }
      else if ps.all fun p => s.member p = .active || s.member p = .rebuilding then
        if s.scrubbable st.container then
          let s := s.onIgu fun g => { g with step := some { st with reading := true } }
          (s.readRaise st.container).askBuffers .scrub (s.nMembers + 1)
        else s.onIgu fun g => { g with step := none }
      else s

/-- A waiting step withdrawn, with the cursor set back to its container (R139). -/
def State.scrubWithdraw (s : State) : State :=
  match s.igu.step with
  | some st =>
    if st.reading then s
    else (s.onIgu fun g => { g with step := none }).onTables fun t => t.setArea { t with scrubCursor := st.container }
  | none => s

/-! ## The array enters FAILED (R69) -/

/-- Each channel answers its queued operations and waiting requesters ARRAY_FAILED (R106), and what their stages held back is
answered as it is submitted. -/
def State.channelsFailed (s : State) : State :=
  s.each (List.range 4) fun s p =>
    let c := s.chan p
    (((s.modChan p Channel.emptied).giveBackAll p c.allQueued .arrayFailed).submitAll c.heldBack).idleUpdate p

/-- ING at the array's failure: every OPEN, DRAINING and SEALING stream faults (R23), and an aborting stream whose object is
in the release queue has its ABORT_INGEST answered ARRAY_FAILED (R63). The streams come in ascending number (R23 gives no order:
DESIGN CHOICE, log entry 65). -/
def State.ingestArrayFailed (s : State) : State :=
  s.each (List.range 8) fun s i =>
    let s := s.streamFault i .arrayFailed
    let t := s.stream i
    if t.state = .aborting ∧ t.queued = true then
      match t.abortTag with
      | some tag => (s.setStream i { t with abortTag := none }).refuse tag kindAbortIngest .arrayFailed
      | none => s
    else s

/-- A release walk's segment read that is outstanding when the walk has to stop is still to be lowered (R63). -/
def State.walkFinishes (s : State) : State :=
  s.onOru fun u => { u with finishing := u.finishing || decide (u.walkRead ≠ .idle) }

/-- ORU at the array's failure: a pending RELEASE_OBJECT is answered ARRAY_FAILED and its mark cleared, but for an object
that still waits for its readers (R63). Several are answered in ascending object id, where R63 and R69 give no order (DESIGN CHOICE,
log entry 84). -/
def State.releasesArrayFailed (s : State) : State :=
  s.oru.marks.foldl (fun s e =>
    let pending := (s.obj e.1).any fun r => r.state = .releasePending
    if pending then s
    else (s.onOru fun u => { u with marks := dropKey u.marks e.1 }).refuse e.2 kindReleaseObject .arrayFailed) s

/-- A relocation abandoned (R91): its request is answered ARRAY_FAILED, its source stays DRAINING, and the buffers that its reads'
answers and its chunk lie in go back (R175). -/
def State.relocAbandoned (s : State) : State :=
  match s.ctm.reloc with
  | none => s
  | some r =>
    let reports := s.ctm.reports.filter fun p => p.who = .relocChunk || p.who = .relocDirectory
    let s := (s.refuse r.tag kindRelocateContainer .arrayFailed).onCtm fun m =>
      { m with reloc := none, abandoned := some r.source }
    let s := reports.foldl (fun s p =>
      let s := s.dropReport p
      if p.answer.keepsBuffer p.who then s.bufferDone p.job else s) s
    s.relocBufferBack r

/-- CTM's own part (R69, R77, R91): waiting placements and reads that have issued nothing are answered ARRAY_FAILED, and the
relocation is abandoned. A header read for a container being recovered that waits for its buffers cannot be made, so that the kind is
taken as DATA (R182). -/
def State.ctmArrayFailed (s : State) : State :=
  let asks := (s.ctm.waiting.filterMap fun w => match w with | .record r => some r | _ => none) ++ s.ctm.recordReqs
  let s := asks.foldl (fun s r => match r with
    | .albums tag _ _ => s.refuse tag kindSetAlbums .arrayFailed
    | _ => s) s
  let s := s.onCtm fun m => { m with waiting := [], recordReqs := [], sealReqs := [], sealJobs := [], zeroing := none }
  let waiting := s.waitingReads fun _ => true
  let s := s.onMec fun m => { m with bufferQueue := [] }
  let s := s.relocAbandoned
  waiting.foldl (fun s j =>
    let s := s.setReadJob j.id none
    let s : State := match j.who.recovers with
      | some c => s.recoveredAsData c
      | none => s.onCtm fun m =>
        { m with reports := m.reports ++ [{ job := j.id, who := j.who, answer := .arrayFailed }] }
    (s.returnBuffers (.readJob j.id) 2).readLower j.container) s

/-- IGU's part (R139, R145, R152): a waiting step is withdrawn, a step or a rebuild that has read nothing yet is discarded,
and the adoption ends, answered ARRAY_FAILED while its tag is unanswered. R152 gives that answer for a failure before step 3 of R148
completes; the same is given between step 3 and the start of the walk, while the slot is copied (R149), where R152 has no row
(DESIGN CHOICE, log entry 87). -/
def State.iguArrayFailed (s : State) : State :=
  let s := s.scrubWithdraw
  let s := match s.igu.step with
    | some st => if st.started then s else (s.onIgu fun g => { g with step := none }).readLower st.container
    | none => s
  let s := match s.igu.rebuild with
    | some r =>
      if r.started then s.onIgu fun g => { g with rebuild := some { r with abandoned := true } }
      else (s.onIgu fun g => { g with rebuild := none }).readLower r.container
    | none => s
  let s := match s.igu.adoption.bind fun a => a.tag with
    | some tag => s.refuse tag kindAdoptMember .arrayFailed
    | none => s
  (s.onIgu fun g => { g with adoption := none }).onCkr fun k => { k with copy := none }

/-- A CHECKPOINT request answered OK with the slot, the sequence, Q and the number of members written (R189). -/
def State.answerCheckpoint (s : State) (tag : Nat) (c : Ckpt) : State :=
  s.answer tag kindCheckpoint .ok [⟨1, c.slot.code⟩, ⟨6, c.seq⟩, ⟨6, c.q⟩, ⟨1, c.headersWritten⟩]

/-- CKR's part (R189): the checkpoint in progress ends with no quarantine release and the current slot unchanged, and a
CHECKPOINT request is answered ARRAY_FAILED. A checkpoint whose quarantine has been released has reached a member, has made
its slot current and ends as the success that it is. -/
def State.ckrArrayFailed (s : State) : State :=
  match s.ckr.ckpt with
  | none => s
  | some c =>
    let s := s.onCkr fun k => { k with op := .none, ckpt := none }
    let s := s.each (List.range 8) fun s i => s.modStream i fun t => { t with held := false }
    let s := s.onOru fun u => { u with paused := false }
    let s := if c.released then s.dropReturned fun j => j = .ckptHeader else s
    match c.why with
    | .request tag => if c.released then s.answerCheckpoint tag c else s.refuse tag kindCheckpoint .arrayFailed
    | _ => s

/-- PWC's part (R157): during steps 1 to 4 the step in hand is complete at once, and the entry goes on to step 5 with
outcome FAILED. -/
def State.entryArrayFailed (s : State) : State :=
  if s.pwc.box = .sleepEntry ∧ (s.pwc.entryStep.getD 7) ≤ 4 then
    (s.onPwc fun w => { w with entryCheckpoint := false }).stepDone State.beginStep5
  else s

/-- The array enters FAILED and every block halts its work as its rules give (R69). ORU acts before RDS ends the read streams:
a RELEASE_OBJECT kept for an object in RELEASE_PENDING (R63) is not answered when its readers end in the FAILED array, and the
object enters RELEASING with its mark set (R63 does not say what becomes of the request: DESIGN CHOICE, log entry 57). The
read streams enter ENDING in ascending number (R69 and R131 give no order: DESIGN CHOICE, log entry 61). The blocks act in the order
ING, ORU, RDS, CKR, CTM, IGU, the channels, PWC, and their replies stand in that order (R69 gives none: DESIGN CHOICE, log entry
84). -/
def State.enterFailed (s : State) : State :=
  (((((((((s.ingestArrayFailed).releasesArrayFailed).walkFinishes).each (List.range 16) fun s i =>
    s.enterEnding i .arrayFailed).ckrArrayFailed).ctmArrayFailed).iguArrayFailed).channelsFailed).entryArrayFailed)

/-! ## Deriving the array state (R69) -/

/-- Whether a position counts as rebuilding (R69, R148). -/
def State.rebuildingPosition (s : State) (p : Nat) : Bool := decide (s.member p = .rebuilding) && !s.adopting p

/-- The state that R69 derives from the members. -/
def State.derived (s : State) : ArrayState :=
  let lost := (s.positions.filter fun p => s.lostPosition p).length
  let reb := (s.positions.filter fun p => s.rebuildingPosition p).length
  if 2 ≤ lost + reb then .failed else if lost = 1 then .degraded else if reb = 1 then .rebuilding else .normal

/-- Whether the array is attached: NORMAL, DEGRADED or REBUILDING. -/
def ArrayState.attached : ArrayState → Bool
  | .normal | .degraded | .rebuilding => true
  | _ => false

/-- The array state derived again, with the ARRAY notice when it changes, and every block told when it is FAILED (R69,
R93). -/
def State.derive (s : State) : State :=
  if s.ctm.state.attached then
    let d := s.derived
    if d = s.ctm.state then s
    else
      let s := (s.onCtm fun m => { m with state := d }).noticeArray .state
      if d = .failed then s.enterFailed else s
  else s

/-! ## A forming or attach that fails (R186, R190) -/

/-- A channel as a failed forming or attach leaves it: bound to its own bay, its member ABSENT and nothing queued. No drive has
joined the position, so that its error count stands (R104). -/
def Channel.unbound (c : Channel) (p : Nat) : Channel :=
  { c.emptied with bay := some p, member := { Member.absentRecord with errors := c.member.errors }, current := none,
                   idleReported := false, spinupAsked := false, units := none }

/-- CTM with nothing placed, waiting or being read; its tallies stand. -/
def Ctm.cleared (m : Ctm) : Ctm :=
  { Ctm.resetRecord with nextRead := m.nextRead, repairs := m.repairs, dataLost := m.dataLost,
                         degradedReads := m.degradedReads }

/-- ORU with no table: no reader, no mark, an empty release queue; its tallies stand. -/
def Oru.cleared (u : Oru) : Oru := { Oru.resetRecord with skipped := u.skipped, lostCount := u.lostCount }

/-- The array returns to UNFORMED, every member becomes ABSENT, the channels return to the binding of bay p, and every bay is
switched off (R186, R190). With no member left in SPINNING_UP, S in force falls to the limit last requested (R163, R166). With no
array CKR has no current slot (R185; log entry 20). -/
def State.unform (s : State) : State :=
  let changed := (List.range 4).filter fun p => s.member p ≠ .absent
  let s := s.each (List.range 4) fun s p => s.modChan p fun c => c.unbound p
  let s := s.each (List.range 4) fun s b => s.bayOff b
  let s := (s.onPwc Pwc.quieted).limitFalls
  let s := (s.onCtm Ctm.cleared).onOru Oru.cleared
  let s := s.onMec fun m => { m with lent := [], bufferQueue := [] }
  let s := s.onCkr fun k =>
    { k with slot := none, seq := 0, q := 0, op := .none, ckpt := none, form := none, attach := none }
  let s := s.each changed fun s p => s.noticeMember p
  { s with inUse := false, returns := [] }

/-- Forming fails (R186): the request is answered BAD_ARGUMENT with the position, or 255. -/
def State.formFail (s : State) (position : Nat) : State :=
  match s.ckr.form with
  | some f => (s.unform).answer f.tag kindFormArray .badArgument [⟨1, position⟩]
  | none => s

/-- The attach fails (R190): the request is answered BAD_ARGUMENT. -/
def State.attachFail (s : State) : State :=
  match s.ckr.attach with
  | some a => (s.unform).refuse a.tag kindAttachArray .badArgument
  | none => s

/-- The member count of the array that an attach has found, or 0 before the labels agree. -/
def Attach.members (a : Attach) : Nat := (a.label.map fun l => l.layout.members).getD 0

/-- A member that fails while an array is being formed or attached (R186, R190). An array state that has been derived for the
closing checkpoint is derived again (R194). -/
def State.setupLoses (s : State) (p : Nat) : State :=
  match s.ckr.form, s.ckr.attach with
  | some f, _ => if p < f.bays.length then s.formFail p else s
  | none, some a =>
    let usable := a.usable.filter fun q => q ≠ p
    let derived := if a.stage = .closing then s.derived else a.derived
    let s := s.onCkr fun k => { k with attach := some { a with usable := usable, derived := derived } }
    if a.label.isSome ∧ usable.length + 1 < a.members then s.attachFail else s
  | none, none => s

/-! ## Failing a member (R105) -/

/-- The early end of the adoption when its own member fails (R152): before the walk starts ADOPT_MEMBER is answered
WRONG_STATE with the failure cause; a container being rebuilt is abandoned, and one whose buffers are still waited for is withdrawn
(R175). -/
def State.adoptionAbort (s : State) (p : Nat) (cause : FailCause) : State :=
  match s.igu.adoption with
  | some a =>
    if a.position = p then
      let s := match a.tag with
        | some tag => s.answer tag kindAdoptMember .wrongState [⟨1, failCauseCode cause⟩]
        | none => s
      let s := match s.igu.rebuild with
        | some r =>
          if r.started then s.onIgu fun g => { g with rebuild := some { r with abandoned := true } }
          else ((s.onIgu fun g => { g with rebuild := none }).withdrawAsker .rebuild 4).readLower r.container
        | none => s
      (s.onIgu fun g => { g with adoption := none }).onCkr fun k => { k with copy := none }
    else s
  | none => s

/-- What every block does after a change of a member's state that it is told of (R96): CTM derives the array state, a waiting
scrub step is tested, and step 5 of a sleep entry may be complete. -/
def State.memberReported (s : State) : State := ((s.derive).scrubTest).checkStep5

/-- A change of a member's state, with all that follows (R96). -/
def State.memberChange (s : State) (p : Nat) (m : MemberState) : State := (s.setMember p m).memberReported

/-- A member enters FAILED with its cause (R105). Its waiting requesters are answered too, and their stages go on with what they
held back (R99). An event that reaches a member already FAILED, or an ABSENT one, changes
nothing. -/
def State.failMember (s : State) (p : Nat) (cause : FailCause) : State :=
  if s.member p = .failed ∨ s.member p = .absent then s
  else
    let c := s.chan p
    let os := c.allQueued
    let s := s.modChan p fun c =>
      { c.emptied with
        member := { c.member with state := .failed, cause := some cause }, current := none, spinupAsked := false }
    let s := match c.current with
      | some o => if o.kind = OpKind.standby then s else s.giveBack p o .memberFailed
      | none => s
    let s := (s.giveBackAll p os .memberFailed).submitAll c.heldBack
    let s := s.onPwc fun w => (w.spinDropped p).standbyDropped p
    let s := (s.noticeMember p).idleUpdate p
    let s := (s.memberBayOff p).spinChanged
    let s := s.adoptionAbort p cause
    (s.setupLoses p).memberReported

end Sys2Proof.Machine
end

