-- ==== Sys2Proof/Machine/Ingest.lean ====
section
/-!
DEFINITION. The commands of the ingest engine (chapter 1): its five requests, the chunker, the resolve queue, and the ring's
memory errors.
-/

namespace Sys2Proof.Machine

/-! ## Chunk arithmetic (R7 to R10) -/

/-- Lmin for a chunk order (R8). -/
def minChunk (k : Nat) : Nat := 2 ^ (k - 2)

/-- Lmax for a chunk order (R8). -/
def maxChunk (k : Nat) : Nat := min (2 ^ (k + 2)) 65536

/-- The byte limit of a stream: 2^28 × Lmin (R5). -/
def byteLimit (k : Nat) : Nat := 268435456 * minChunk k

/-- The stream with its sums, window, CRC and current length at their chunk-start values (R7). -/
def Stream.chunkStart (t : Stream) : Stream :=
  { t with sumA := 0, sumB := 0, window := List.replicate 32 0, crc := crcStart, curLen := 0 }

/-- The chunk in hand closed (R9): its record joins the tail of the resolve queue, and the next chunk starts. -/
def Stream.closeChunk (t : Stream) : Stream :=
  { t.chunkStart with
    queue := t.queue ++
      [{ no := t.nextNo, start := t.chunked - t.curLen, len := t.curLen,
         fp := fingerprint (crcFinish t.crc) t.curLen, stage := .waitingLookup, cand := none, result := none,
         work := .idle }],
    nextNo := t.nextNo + 1 }

/-- The chunker's step for one byte (R7): the sums roll over the last 32 bytes, and the byte feeds the CRC. -/
def Stream.roll (t : Stream) (x : Byte) : Stream :=
  let out : BitVec 16 := (t.window.headD 0).setWidth 16
  let a := t.sumA - out + x.setWidth 16
  let b := t.sumB + a - 32#16 * out
  { t with
    sumA := a, sumB := b, window := t.window.drop 1 ++ [x], crc := crcByte t.crc x, curLen := t.curLen + 1,
    chunked := t.chunked + 1 }

/-- Whether the byte just taken ends the chunk (R8). -/
def Stream.boundary (t : Stream) : Bool :=
  let k := t.k.getD 13
  (decide (minChunk k ≤ t.curLen) && decide (t.sumB.toNat % 2 ^ k = 2 ^ k - 1)) || decide (t.curLen = maxChunk k)

/-- The chunker takes one byte and closes the chunk that it ends (R8). -/
def Stream.takeByte (t : Stream) (x : Byte) : Stream :=
  let t := t.roll x
  if t.boundary then t.closeChunk else t

/-- The chunker takes bytes while there are unchunked ones and the queue holds fewer than 32 records (R9). The fuel is the
number of unchunked bytes. -/
def chunkerLoop (ring : Nat → Byte) : Nat → Stream → Stream
  | 0, t => t
  | fuel + 1, t =>
    if t.chunked < t.received ∧ t.queue.length < 32 then
      chunkerLoop ring fuel (t.takeByte (ring t.chunked))
    else t

/-- A drained stream's partial chunk closed as its final chunk, once every byte has been taken and the queue has room
(R9). -/
def Stream.closeFinal (t : Stream) : Stream :=
  if t.state = .draining ∧ t.chunked = t.received ∧ 0 < t.curLen ∧ t.queue.length < 32 then t.closeChunk else t

/-! ## Requests -/

/-- The first free object id after the id cursor, upward with a wrap from 65,535 to 1 (R50). -/
def State.freeId (s : State) : Option Nat :=
  if 65535 ≤ s.tables.objects.length then none
  else ((List.range (s.tables.objects.length + 1)).map fun k => (s.oru.cursor + k) % 65535 + 1).find? fun o =>
    (s.obj o).isNone

/-- The lowest-numbered FREE ingest stream (R3). -/
def State.freeStreamNo (s : State) : Option Nat := (List.range 8).find? fun i => (s.stream i).state = .free

/-- Whether the box is in RUN with the array attached, as most requests need (R156). -/
def State.running (s : State) : Bool := decide (s.pwc.box = .run) && s.ctm.state.attached

/-- Whether a checkpoint holds the ingest streams (R24). -/
def State.holdInForce (s : State) : Bool := s.ckr.ckpt.isSome

/-- OPEN_INGEST (R3, R50). -/
def State.openIngest (s : State) (tag kind owner : Nat) (albums : Albums) : State :=
  if 2 < kind then s.refuse tag kindOpenIngest .badArgument
  else if s.ctm.state = .failed then s.refuse tag kindOpenIngest .arrayFailed
  else if !s.running then s.refuse tag kindOpenIngest .wrongState
  else match s.freeStreamNo with
    | none => s.refuse tag kindOpenIngest .noStream
    | some i =>
      match s.freeId with
      | none => s.refuse tag kindOpenIngest .busy
      | some o =>
        let r : Obj :=
          { kind := kind, owner := owner, state := .opened, length := 0, chunks := 0, albums := albums,
            created := s.pwc.time, sealedAt := 0, map := [], stream := some i, walk := none, tail := none,
            recorded := false }
        let s := (s.setObj o (some r)).onOru fun u => { u with cursor := o }
        let s := s.setStream i
          { Stream.freeRecord with
            state := .opened, object := some o, k := some s.ing.k, held := s.holdInForce }
        s.answer tag kindOpenIngest .ok [⟨1, i⟩, ⟨2, o⟩]

/-- Execution of OPEN_INGEST. -/
def execOpenIngest (tag kind owner : Nat) (albums : Albums) (s : State) : Out :=
  .next ((s.taken (.openIngest tag kind owner albums)).openIngest tag kind owner albums)

/-- The reply fields of every INGEST_DATA reply: the stream's bytes received and its ring's free space as they stand (R5). A
number that names no stream has neither (log entry 6). -/
def State.ingestFigures (s : State) (i : Nat) : List Field :=
  if 7 < i then [⟨6, Config.noStreamReceived.toNat⟩, ⟨4, Config.noStreamFree.toNat⟩]
  else [⟨6, (s.stream i).received⟩, ⟨4, (s.stream i).freeSpace⟩]

/-- A reply to INGEST_DATA. -/
def State.ingestReply (s : State) (tag i : Nat) (st : Status) : State :=
  s.answer tag kindIngestData st (s.ingestFigures i)

/-- Bytes copied into a ring at the write point, wrapping at the ring's end (R5). -/
def ringWrite (i : Nat) : List Host.Cell → Nat → List Byte → List Host.Cell
  | m, _, [] => m
  | m, o, b :: bs => ringWrite i (Memory.put m (ringAddress i o) b) (o + 1) bs

/-- Bytes copied into a stream's ring from a stream offset; the words written are good from then on (R5, R180). -/
def State.writeRing (s : State) (i o : Nat) (bs : List Byte) : State :=
  let s := s.rewords fun w => (List.range bs.length).any fun k => wordTouches (ringAddress i (o + k)) 1 w
  { s with mem := ringWrite i s.mem o bs }

/-- INGEST_DATA (R5). -/
def State.ingestData (s : State) (tag i offset : Nat) (data : List Byte) : State :=
  let t := s.stream i
  if 7 < i then s.ingestReply tag i .badArgument
  else if s.ctm.state = .failed then s.ingestReply tag i .arrayFailed
  else if !s.running then s.ingestReply tag i .wrongState
  else if t.state ≠ .opened then s.ingestReply tag i .wrongState
  else if offset ≠ t.received then s.ingestReply tag i .badArgument
  else if byteLimit (t.k.getD 13) < t.received + data.length then s.ingestReply tag i .badArgument
  else if t.freeSpace < data.length then s.ingestReply tag i .busy
  else
    let s := s.writeRing i t.received data
    (s.setStream i { t with received := t.received + data.length }).ingestReply tag i .ok

/-- Execution of INGEST_DATA. -/
def execIngestData (tag i offset : Nat) (data : List Byte) (s : State) : Out :=
  .next ((s.taken (.ingestData tag i offset data)).ingestData tag i offset data)

/-- CLOSE_INGEST (R2, R19). A request that reaches ING after the array has failed is refused as LNK would have refused it
(R2). -/
def State.closeIngest (s : State) (tag i : Nat) : State :=
  if 7 < i then s.refuse tag kindCloseIngest .badArgument
  else if s.ctm.state = .failed then s.refuse tag kindCloseIngest .arrayFailed
  else if (s.stream i).state ≠ .opened then s.refuse tag kindCloseIngest .wrongState
  else s.modStream i fun t => { t with state := .draining, closeTag := some tag }

/-- Execution of CLOSE_INGEST. -/
def execCloseIngest (tag i : Nat) (s : State) : Out :=
  .next ((s.taken (.closeIngest tag i)).closeIngest tag i)

/-- What an abort does with one record of the queue (R21): the handles to lower and the record that stays, if any. A record that a
match has made RESOLVED and whose hold is still to be confirmed is VERIFYING again, and its hold is dropped with the reason ABORT, as
for a verify that matches under an abort (R33). R21 has the references of RESOLVED records dropped at once and does not name this
one (DESIGN CHOICE, log entry 90). -/
def ChunkRec.aborted (r : ChunkRec) : Option Nat × Option ChunkRec :=
  match r.work with
  | .insert .. | .copy .. | .reading | .drop _ => (none, some r)
  | .confirm => (none, some { r with stage := .verifying, cand := r.result, work := .drop .abort })
  | .lookupSent | .place | .placeWait => (none, none)
  | .idle => if r.stage = .resolved then (r.result, none) else (none, none)

/-- Whether a read is a verify of a stream. -/
def ReadWho.isVerifyOf (i : Nat) : ReadWho → Bool
  | .chunk (.verify j _) => i = j
  | _ => false

/-- The verifies of a stream whose reads still wait for buffers are withdrawn by an abort (R175): their bytes cannot be had
(R33). -/
def State.withdrawVerifies (s : State) (i : Nat) : State :=
  let js := s.waitingReads (ReadWho.isVerifyOf i)
  let nos := js.filterMap fun j => match j.who with
    | .chunk (.verify _ no) => some no
    | _ => none
  let s := js.foldl (fun s j => s.withdrawRead j) s
  s.modStream i fun t =>
    { t with queue := t.queue.map fun r => if nos.contains r.no then { r with work := .drop .unreadable } else r }

/-- ABORT_INGEST (R2, R21). The handles of the RESOLVED records are lowered in the order of the resolve queue, of which R21 says
nothing (DESIGN CHOICE, log entry 82). -/
def State.abortIngest (s : State) (tag i : Nat) : State :=
  let t := s.stream i
  if 7 < i then s.refuse tag kindAbortIngest .badArgument
  else if s.ctm.state = .failed then s.refuse tag kindAbortIngest .arrayFailed
  else if t.state ≠ .opened ∧ t.state ≠ .draining ∧ t.state ≠ .faulted then s.refuse tag kindAbortIngest .wrongState
  else
    let s := match t.closeTag with
      | some close => s.refuse close kindCloseIngest .wrongState
      | none => s
    let s := s.withdrawPlacements i
    let first := t.chunked - t.curLen
    let parts := t.queue.map fun r => (r, r.aborted)
    let lowered := parts.filterMap fun p => p.2.1
    let gone := (parts.filter fun p => p.2.2.isNone).map fun p => p.1
    let u := { t.chunkStart with
      state := .aborting, closeTag := none, abortTag := some tag, writingOut := false, chunked := t.received,
      cause := none, queue := parts.filterMap fun p => p.2.2 }
    let u := if first < t.received then u.freeSpan first (t.received - first) else u
    let u := gone.foldl (fun u r => u.freeSpan r.start r.len) u
    let s := s.setStream i u
    let s := s.each lowered fun s h => s.idxLower h
    (s.withdrawVerifies i).abortSettle i

/-- Execution of ABORT_INGEST. -/
def execAbortIngest (tag i : Nat) (s : State) : Out :=
  .next ((s.taken (.abortIngest tag i)).abortIngest tag i)

/-- The highest chunking setting in force: 13 in MIRROR2, else 14 (R78). -/
def State.maxOrder (s : State) : Nat :=
  if s.arr.isSome ∧ s.layout = .mirror2 then 13 else 14

/-- SET_CHUNKING (R4, R78). -/
def State.setChunking (s : State) (tag k : Nat) : State :=
  let v := clamp 10 s.maxOrder k
  if s.ctm.state = .failed then s.refuse tag kindSetChunking .arrayFailed
  else ({ s with ing := { s.ing with k := v } }).answer tag kindSetChunking .ok [⟨1, v⟩]

/-- Execution of SET_CHUNKING. -/
def execSetChunking (tag k : Nat) (s : State) : Out :=
  .next ((s.taken (.setChunking tag k)).setChunking tag k)

/-! ## The chunker and the lookup stage -/

/-- Execution of CHUNKER_RUN (R7 to R10): a stream that is OPEN or DRAINING takes the bytes it can. -/
def execChunkerRun (i : Nat) (s : State) : Out :=
  let t := s.stream i
  .next (if t.active then s.setStream i (chunkerLoop (s.ringByte i) (t.received - t.chunked) t).closeFinal else s)

/-- Whether the lookup stage may issue a lookup (R12): fewer than four of the stream's records are VERIFYING. -/
def Stream.mayLookUp (t : Stream) : Bool :=
  t.active && !t.held && decide (t.verifying < 4) &&
    t.queue.all fun r => decide (r.stage ≠ .waitingLookup) || decide (r.work = .idle)

/-- The oldest record in WAITING_LOOKUP. -/
def Stream.nextToLookUp (t : Stream) : Option ChunkRec := t.queue.find? fun r => r.stage = .waitingLookup

/-- Execution of LOOKUP_ISSUE (R12). The stage stalls while one of the stream's verify reads waits at a full queue (R99). -/
def execLookupIssue (i : Nat) (s : State) : Out :=
  let t := s.stream i
  .next (if t.mayLookUp && (s.stalledAt (.ingest i) .verify).isNone then
      match t.nextToLookUp with
      | some r => s.setStream i (t.modRec r.no fun r => { r with work := .lookupSent })
      | none => s
    else s)

/-- The outcomes of a verify (R16). -/
inductive VerifyOutcome where
  | match_ | difference | unreadable
  deriving DecidableEq, Repr

/-- What a completed verify does to its record (R16, R21, R22): a match makes it RESOLVED and confirms the hold, or under an
abort drops it; every other outcome drops the hold. -/
def ChunkRec.verified (aborting : Bool) (r : ChunkRec) : VerifyOutcome → ChunkRec
  | .match_ =>
    if aborting then { r with work := .drop .abort }
    else { r with stage := .resolved, result := r.cand, work := .confirm }
  | .difference => { r with work := .drop .difference }
  | .unreadable => { r with work := .drop .unreadable }

/-- A verify completes (R16). -/
def State.verified (s : State) (i no : Nat) (o : VerifyOutcome) : State :=
  s.modStream i fun t => t.modRec no fun r => r.verified (decide (t.state = .aborting)) o

/-- The compare of a PENDING candidate with the ring (R15): its bytes come from the stripe buffer; they cannot be read when no
buffer holds them or a word of them is uncorrectable. A candidate whose copy has not come yet is compared as the buffer stands,
zero-filled (R15 does not say: DESIGN CHOICE, log entry 44). -/
def State.comparePending (s : State) (i : Nat) (r : ChunkRec) (c off : Nat) : VerifyOutcome :=
  match s.bufferOf c with
  | none => .unreadable
  | some k =>
    if s.badIn (bufferAddress k off) r.len then .unreadable
    else if Memory.read s.mem (bufferAddress k off) r.len = s.ringBytes i r.start r.len then .match_ else .difference

/-- A lookup applied for the record that sent it (R13, R15, R31, R32). -/
def State.lookedUp (s : State) (i : Nat) (r : ChunkRec) : State :=
  let s := s.idxLookup r.fp i
  match s.idx.answer with
  | .hit h st c off =>
    let s := s.modStream i fun t => t.modRec r.no fun r =>
      { r with stage := .verifying, cand := some h, work := .reading }
    match st with
    | .stored => s.onCtm fun m =>
        { m with chunkReqs := m.chunkReqs ++ [{ handle := h, fp := r.fp, cls := .verify, who := .verify i r.no }] }
    | _ => s.verified i r.no (s.comparePending i r c off)
  | _ => s.modStream i fun t => t.modRec r.no fun r => { r with work := .place }

/-- Execution of LOOKUP (R31): the lookup that the stream's record has sent. The hold list has room for four holds of a stream (R33).
A record that a match has made RESOLVED is no longer one of the four VERIFYING (R12), and its hold is listed until CONFIRM_HOLD has
been applied, so that a lookup can come with four holds listed: one that would hit is then not applied, and stays sent, of which R12
and R33 do not speak (DESIGN CHOICE, log entry 97). -/
def execLookup (f : Fp) (i : Nat) (s : State) : Out :=
  .next (match (s.stream i).queue.find? fun r => r.work = .lookupSent && r.fp = f with
    | some r => if (s.tables.lookupHit f).isSome ∧ 4 ≤ s.tables.holdsOf i then s else s.lookedUp i r
    | none => s)

/-- Execution of VERIFY_COMPLETE (R16): CTM's answer to the verify's read, compared with the ring. -/
def execVerifyComplete (i no : Nat) (s : State) : Out :=
  .next (match s.reportFor fun w => w = .chunk (.verify i no) with
    | none => s
    | some rep =>
      let s := s.dropReport rep
      let o := match rep.answer, (s.stream i).record no with
        | .bytes bs, some r =>
          if bs = s.ringBytes i r.start r.len then VerifyOutcome.match_ else VerifyOutcome.difference
        | _, _ => VerifyOutcome.unreadable
      let s := match rep.answer with
        | .bytes _ => s.bufferDone rep.job
        | _ => s
      match (s.stream i).record no with
      | some r => if r.work = .reading then s.verified i no o else s
      | none => s)

/-! ## New chunks -/

/-- An insertion applied for a placed record (R13, R16, R34, R35): its copy follows, or INDEX_FULL faults the stream. The record
whose insertion was answered so waits for its lookup again in the FAULTED stream, also one that a collision insert had left in
VERIFYING, where R16 and R22 give no stage (DESIGN CHOICE, log entry 64). Under an abort too the record goes on to its copy before
its handle is lowered: R21 has the insertion or the copy in progress complete, and does not say whether a copy follows an insertion
(DESIGN CHOICE, log entry 73). -/
def State.inserted (s : State) (i : Nat) (r : ChunkRec) (c off place : Nat) : State :=
  let s := s.idxInsert r.fp c off
  match s.idx.answer with
  | .inserted h => s.modStream i fun t => t.modRec r.no fun r => { r with work := .copy h c off place }
  | _ =>
    if (s.stream i).state = .aborting then (s.modStream i fun t => t.discard r.no).abortSettle i
    else
      let s := s.modStream i fun t => t.modRec r.no fun r =>
        { r with stage := .waitingLookup, cand := none, work := .idle }
      s.streamFault i .indexFull

/-- The record of a stream that waits for an insertion of the given kind (a collision insert follows a verify). -/
def Stream.inserting (t : Stream) (f : Fp) (c off : Nat) (collision : Bool) : Option (ChunkRec × Nat) :=
  (t.queue.filterMap fun r => match r.work with
    | .insert c' off' place =>
      if r.fp = f ∧ c' = c ∧ off' = off ∧ decide (r.stage = .verifying) = collision then some (r, place) else none
    | _ => none).head?

/-- Execution of INSERT (R34): the insertion of a chunk that missed. -/
def execInsert (f : Fp) (c off i : Nat) (s : State) : Out :=
  .next (match (s.stream i).inserting f c off false with
    | some (r, place) => s.inserted i r c off place
    | none => s)

/-- Execution of COLLISION_INSERT (R35): the insertion of a chunk whose verify found different bytes. -/
def execCollisionInsert (f : Fp) (c off i : Nat) (s : State) : Out :=
  .next (match (s.stream i).inserting f c off true with
    | some (r, place) => s.inserted i r c off place
    | none => s)

/-- Execution of CHUNK_COPY_DONE (R13, R16, R21, R79): the bytes and the NEW directory entry are in the buffer. -/
def execChunkCopyDone (i no : Nat) (s : State) : Out :=
  .next (match (s.stream i).record no with
    | none => s
    | some r =>
      match r.work with
      | .copy h c off place =>
        let s := s.copyChunk c off place false h r.fp (s.ringBytes i r.start r.len)
        if (s.stream i).state = .aborting then
          ((s.idxLower h).modStream i fun t => t.discard no).abortSettle i
        else s.modStream i fun t =>
          (t.modRec no fun r => { r with stage := .resolved, cand := none, result := some h, work := .idle }).freeSpan
            r.start r.len
      | _ => s)

/-! ## Leaving the queue -/

/-- A write-out of the recipe buffer asked for (R18): it is not made for an object that already has 65,536 segments, whose
stream faults. -/
def State.startWriteOut (s : State) (i : Nat) : State :=
  if 65536 ≤ (s.stream i).segments then s.streamFault i .indexFull
  else (s.modStream i fun t => { t with writingOut := true }).onCtm fun m =>
    { m with recordReqs := m.recordReqs ++ [.segment i] }

/-- One RESOLVED record at the head leaves (R17): its handle joins the recipe buffer, the object's chunk count rises, and its
span is freed. -/
def State.leaveOne (s : State) (i : Nat) (r : ChunkRec) (h : Nat) : State :=
  let s := s.modStream i fun t =>
    { t with queue := t.queue.drop 1, recipe := t.recipe ++ [h] }.freeSpan r.start r.len
  let s := match (s.stream i).object.bind fun o => (s.obj o).map fun x => (o, x) with
    | some (o, x) => s.setObj o (some { x with chunks := x.chunks + 1 })
    | none => s
  if (s.stream i).recipe.length = 4096 then s.startWriteOut i else s

/-- Records leave while the head is RESOLVED and the recipe buffer takes handles (R17). A head whose match is still to be confirmed
stays until CONFIRM_HOLD has been applied, of which R17 does not speak (DESIGN CHOICE, log entry 90). The fuel is the queue's
length. -/
def State.leaveLoop (s : State) (i : Nat) : Nat → State
  | 0 => s
  | fuel + 1 =>
    let t := s.stream i
    if t.active ∧ t.recipe.length < 4096 ∧ t.writingOut = false then
      match t.queue with
      | r :: _ =>
        match r.stage, r.work, r.result with
        | .resolved, .idle, some h => (s.leaveOne i r h).leaveLoop i fuel
        | _, _, _ => s
      | [] => s
    else s

/-- Execution of QUEUE_LEAVE (R17, R18). -/
def execQueueLeave (i : Nat) (s : State) : Out := .next (s.leaveLoop i (s.stream i).queue.length)

/-- Whether a stream enters SEALING (R19): it is DRAINING and holds no unchunked byte, partial chunk or record. -/
def Stream.readyToSeal (t : Stream) : Bool :=
  decide (t.state = .draining) && decide (t.chunked = t.received) && decide (t.curLen = 0) && t.queue.isEmpty

/-- Execution of STREAM_SEALING (R20): the final SEGMENT, if the recipe buffer holds handles that are not being written out
already, and the SEAL record are asked for. The forced seal follows when the SEAL record has been copied. -/
def execStreamSealing (i : Nat) (s : State) : Out :=
  .next (if (s.stream i).readyToSeal then
      let s := s.modStream i fun t => { t with state := .sealing }
      let s := if (s.stream i).recipe.isEmpty || (s.stream i).writingOut then s else s.startWriteOut i
      if (s.stream i).state = .sealing then
        s.onCtm fun m => { m with recordReqs := m.recordReqs ++ [.closing i] }
      else s
    else s)

/-! ## Memory errors in the rings -/

/-- Whether the byte at a ring position is held (R6, R23). -/
def Stream.positionHeld (t : Stream) (q : Nat) : Bool :=
  t.byteHeld (t.oldest + (q + ringSize - t.oldest % ringSize) % ringSize)

/-- Whether some byte of the word at a ring position is held (R23). -/
def Stream.wordHeld (t : Stream) (q : Nat) : Bool :=
  (List.range 8).any fun j => t.positionHeld (q / 8 * 8 % ringSize + j)

/-- Execution of RING_WORD_ERROR (R23). -/
def execRingWordError (i q : Nat) (s : State) : Out :=
  let s := s.reportTaken .rings
  .next (if (s.stream i).wordHeld q then s.streamFault i .memory else s)

end Sys2Proof.Machine
end

