-- ==== Sys2Proof/Machine/Index.lean ====
section
/-!
DEFINITION. The commands of the chunk index (chapter 2) that other blocks send it. Insertions stand with the ingest engine,
whose records they advance. A request that comes while IDX holds no index acts on the retained tables, of which R29 says only that
none reaches IDX then (DESIGN CHOICE, log entry 83).
-/

namespace Sys2Proof.Machine

/-- What a stream does once its hold has been dropped (R16, R21, R22): the chunk is then to be stored as new; under a fault
the record waits for its lookup again; under an abort it is discarded. -/
def State.holdDropped (s : State) (i : Nat) (r : ChunkRec) : State :=
  let t := s.stream i
  if t.state = .aborting then (s.setStream i (t.discard r.no)).abortSettle i
  else if t.active then s.setStream i (t.modRec r.no fun r => { r with work := .place })
  else s.setStream i (t.modRec r.no fun r => { r with stage := .waitingLookup, cand := none, work := .idle })

/-- Execution of DROP_HOLD (R33): IDX applies it, and the record whose drop was under way goes on. -/
def execDropHold (h i : Nat) (reason : HoldReason) (s : State) : Out :=
  let s := s.idxDrop h i reason
  .next (match (s.stream i).queue.find? fun r => r.work = .drop reason && r.cand = some h with
    | some r => s.holdDropped i r
    | none => s)

/-- Execution of CONFIRM_HOLD (R33): IDX applies it, and the record keeps the reference. -/
def execConfirmHold (h i : Nat) (s : State) : Out :=
  let s := s.idxConfirm h i
  .next (match (s.stream i).queue.find? fun r => r.work = .confirm && r.result = some h with
    | some r => s.modStream i fun t => t.modRec r.no fun r => { r with work := .idle, cand := none }
    | none => s)

/-- Execution of RAISE (R37); with no index in force on the retained tables (DESIGN CHOICE, log entry 83). -/
def execRaise (h : Nat) (s : State) : Out := .next (s.idxRaise h)

/-- Execution of LOWER (R38); with no index in force on the retained tables (DESIGN CHOICE, log entry 83). -/
def execLower (h : Nat) (s : State) : Out := .next (s.idxLower h)

/-- Execution of REPLAY_CREATE (R37); with no index in force on the retained tables (DESIGN CHOICE, log entry 83). -/
def execReplayCreate (h : Nat) (f : Fp) (c off : Nat) (s : State) : Out := .next (s.idxCreate h f c off)

/-- Execution of REMOVE_IF_UNREFERENCED (R40); with no index in force on the retained tables (DESIGN CHOICE, log entry 83). -/
def execRemoveIfUnreferenced (h : Nat) (s : State) : Out := .next (s.idxRemoveIf h)

/-- Execution of STORED (R41); with no index in force on the retained tables (DESIGN CHOICE, log entry 83). -/
def execStored (h : Nat) (f : Fp) (c off : Nat) (s : State) : Out := .next (s.idxStored h f c off)

/-- Execution of DAMAGE_MARK (R42); with no index in force on the retained tables (DESIGN CHOICE, log entry 83). -/
def execDamageMark (h : Nat) (f : Fp) (s : State) : Out := .next (s.idxDamage h f)

/-- Execution of SET_MOVE (R43); with no index in force on the retained tables (DESIGN CHOICE, log entry 83). -/
def execSetMove (h : Nat) (f : Fp) (source dest : Nat) (s : State) : Out := .next (s.idxSetMove h f source dest)

/-- Execution of SWITCH_LOCATION (R43); with no index in force on the retained tables (DESIGN CHOICE, log entry 83). -/
def execSwitchLocation (h : Nat) (f : Fp) (source dest off : Nat) (s : State) : Out :=
  .next (s.idxSwitch h f source dest off)

/-- Execution of LOCATION (R44); with no index in force on the retained tables (DESIGN CHOICE, log entry 83). -/
def execLocation (h : Nat) (s : State) : Out := .next (s.idxLocate h)

/-- Execution of INDEX_WORD_ERROR (R45, R180): the report is acted on, and a word that IDX writes again is good. -/
def execIndexWordError (w : IndexWord) (s : State) : Out :=
  .next ((if s.tables.rewritesWord w then s.wordRewritten [.index] else s.reportTaken .index).idxWordError w)

/-- A replay move (R193): an entry outside a lost bucket that holds the fingerprint takes the location, and its length moves
from the old container's live bytes to the new one's; otherwise it is ignored. A number past its field is stored as it is (log
entry 46). -/
def State.idxReplayMove (s : State) (h : Nat) (f : Fp) (c off : Nat) : State :=
  if s.tables.lostPart h then s.idxAnswer .lost
  else match s.tables.entry h with
    | none => s.idxAnswer .noEntry
    | some e =>
      if e.fp = f then
        (((s.onTables fun t => t.setEntry h (some { e with container := c, offset := off })).liveRaise c
          (fpLength f)).liveLower e.container (fpLength f)).idxAnswer .ok
      else s.idxAnswer .noEntry

/-- Execution of REPLAY_MOVE (R193); with no index in force on the retained tables (DESIGN CHOICE, log entry 83). -/
def execReplayMove (h : Nat) (f : Fp) (c off : Nat) (s : State) : Out := .next (s.idxReplayMove h f c off)

/-- Execution of DISCARD_MOVE_DESTINATIONS (R92); with no index in force on the retained tables (DESIGN CHOICE, log entry 83). -/
def execDiscardMoveDestinations (s : State) : Out := .next (s.onTables Tables.dropMoves)

end Sys2Proof.Machine
end

