-- ==== Sys2Proof/Machine/Objects.lean ====
section
/-!
DEFINITION. The commands of the object and recipe unit (chapter 3): an object's record, its albums, its release with the walk
that gives its references back, and the reading of SEGMENT records.
-/

namespace Sys2Proof.Machine

/-! ## Requests -/

/-- The object that GET_OBJECT reports (R56): the one with the id, or in NEXT mode the lowest one in use at or above it. A
mode that R56 does not name is open (log entry 5). -/
def State.objectAsked (s : State) (id mode : Nat) : Option (Nat × Obj) :=
  if s.inUse = false then none
  else
    let next := if mode = 0 then false else if mode = 1 then true else Config.unlistedModeIsNext mode
    if next then s.tables.objects.find? fun e => id ≤ e.1 else (s.obj id).map fun r => (id, r)

/-- The fields that GET_OBJECT reports (R56, R203); for a LOST object all but the id, the state and the reader count are 0.
Log entry 12 gives the sizes that R203 leaves open. -/
def State.objectFields (s : State) (o : Nat) (r : Obj) : List Field :=
  let lost := decide (r.state = .lost)
  let v (n : Nat) : Nat := if lost then 0 else n
  [⟨2, o⟩, ⟨1, r.state.code⟩, ⟨1, v r.kind⟩, ⟨1, v r.owner⟩, ⟨4, v r.albums.toNat⟩, ⟨6, v r.length⟩, ⟨4, v r.chunks⟩,
   ⟨4, v r.created.toNat⟩, ⟨4, v r.sealedAt.toNat⟩, ⟨4, v r.map.length⟩, ⟨4, s.readersOf o⟩] ++
  (if r.state = .opened then [optField 1 r.stream] else []) ++
  (match r.state, r.walk with
   | .releasing, some w => [⟨1, w.phase.code⟩, ⟨4, w.ordinal⟩, ⟨4, w.index⟩, ⟨4, w.lowered⟩]
   | _, _ => [])

/-- GET_OBJECT (R56). -/
def State.getObject (s : State) (tag id mode : Nat) : State :=
  match s.objectAsked id mode with
  | none => s.refuse tag kindGetObject .noSuchObject
  | some (o, r) => s.answer tag kindGetObject .ok (s.objectFields o r)

/-- Execution of GET_OBJECT. -/
def execGetObject (tag id mode : Nat) (s : State) : Out :=
  .next ((s.taken (.getObject tag id mode)).getObject tag id mode)

/-- Whether an object's stream has placed its SEAL record (R55). -/
def State.sealPlaced (s : State) (o : Nat) : Bool :=
  (List.range 8).any fun i =>
    (s.stream i).state = .sealing && (s.stream i).object = some o && (s.stream i).sealAt.isSome

/-- SET_ALBUMS (R55). -/
def State.setAlbums (s : State) (tag o : Nat) (albums : Albums) : State :=
  if s.ctm.state = .failed then s.refuse tag kindSetAlbums .arrayFailed
  else if !s.running then s.refuse tag kindSetAlbums .wrongState
  else match s.obj o with
    | none => s.refuse tag kindSetAlbums .noSuchObject
    | some r =>
      if r.state ≠ .opened ∧ r.state ≠ .sealed then s.refuse tag kindSetAlbums .wrongState
      else if r.state = .opened ∧ s.sealPlaced o = false then
        (s.setObj o (some { r with albums := albums })).answer tag kindSetAlbums .ok [⟨4, albums.toNat⟩]
      else s.onCtm fun m => { m with recordReqs := m.recordReqs ++ [.albums tag o albums] }

/-- Execution of SET_ALBUMS. -/
def execSetAlbums (tag o : Nat) (albums : Albums) (s : State) : Out :=
  .next ((s.taken (.setAlbums tag o albums)).setAlbums tag o albums)

/-- RELEASE_OBJECT (R58, R65). No walk is made for a LOST object, one that became LOST while RELEASING among them: its RELEASE
record is asked for at once and the answer is 0. One that an aborted stream has put into the release queue is released by the
walk of its tail list, which the request waits for and whose count it is answered (R65 does not say: DESIGN CHOICE, log entry
51). -/
def State.releaseObject (s : State) (tag o : Nat) : State :=
  if s.ctm.state = .failed then s.refuse tag kindReleaseObject .arrayFailed
  else if !s.running then s.refuse tag kindReleaseObject .wrongState
  else match s.obj o with
    | none => s.refuse tag kindReleaseObject .noSuchObject
    | some r =>
      if r.state ≠ .sealed ∧ r.state ≠ .lost then s.refuse tag kindReleaseObject .wrongState
      else if (getKey s.oru.marks o).isSome then s.refuse tag kindReleaseObject .wrongState
      else
        let s := s.onOru fun u => { u with marks := putKey u.marks o tag }
        if r.state = .sealed then
          if s.readersOf o = 0 then s.beginRelease o none else s.setObj o (some { r with state := .releasePending })
        else if s.oru.queue.contains o && r.tail.isSome then s
        else
          let s := s.setObj o (some { r with walk := none })
          if s.readersOf o = 0 then s.askRelease o else s

/-- Execution of RELEASE_OBJECT. -/
def execReleaseObject (tag o : Nat) (s : State) : Out :=
  .next ((s.taken (.releaseObject tag o)).releaseObject tag o)

/-! ## The release walk (R60 to R63) -/

/-- Whether an object's walk has ended. -/
def Obj.walkEnded (r : Obj) : Bool := r.walk.any fun w => w.phase = .ended

/-- The object that ORU walks: the one a replayed RELEASE names (R193), and otherwise the head of the release queue; while an
attach waits for the walks, the first of the queue whose walk has not ended (R194 read with R62, whose objects stay in the queue
with their walks ended while their RELEASE records wait: DEDUCED, log entry 34). -/
def State.walkTarget (s : State) : Option Nat :=
  match s.ckr.attach with
  | some a =>
    if a.walking.isSome then a.walking
    else if a.stage = .walks then
      s.oru.queue.find? fun o => !((s.obj o).any fun r => r.walkEnded)
    else none
  | none => s.oru.queue.head?

/-- Whether the walk may make a step (R63): the array is attached, or an attach drives the walks, the box is in RUN and no
checkpoint pauses walks; or a segment that was being read when a pause or the array's failure came is still to be lowered. -/
def State.mayWalk (s : State) : Bool :=
  ((s.ctm.state.attached || decide (s.ctm.state = .attaching)) && !s.oru.paused && decide (s.pwc.box = .run)) ||
    (s.oru.finishing && decide (s.ctm.state ≠ .unformed))

/-- An object's walk position replaced. -/
def State.setWalk (s : State) (o : Nat) (w : Walk) : State :=
  match s.obj o with
  | some r => s.setObj o (some { r with walk := some w })
  | none => s

/-- The walk of a replayed RELEASE ends: the object is counted and its slot freed with no record (R193). -/
def State.replayWalked (s : State) (a : Attach) (o : Nat) : State :=
  let counted := { a.figures with released := tallyUp 60 a.figures.released }
  (s.onCkr fun k => { k with attach := some { a with walking := none, figures := counted } }).finishRelease o

/-- What follows a walk that has ended (R62): its RELEASE record is asked for, after the attach if one is in progress (R194), or
the slot is freed at once where no record is needed. -/
def State.afterWalk (s : State) (o : Nat) (recorded : Bool) : State :=
  if recorded = false then s.finishRelease o else if s.ckr.attach.isSome then s else s.askRelease o

/-- A walk ends (R62, R193). -/
def State.walkEnd (s : State) (o : Nat) (r : Obj) (w : Walk) : State :=
  let s := s.setObj o (some { r with walk := some { w with phase := .ended } })
  match s.ckr.attach with
  | some a => if a.walking = some o then s.replayWalked a o else s.afterWalk o r.recorded
  | none => s.afterWalk o r.recorded

/-- One step of the release walk (R61). In phase TAIL the handles leave the tail list, and the handle index stays where the phase
began, at 0 (R61 does not say: DESIGN CHOICE, log entry 48). -/
def State.walkStep (s : State) (o : Nat) (r : Obj) (w : Walk) : State :=
  match w.phase with
  | .ended => s.afterWalk o r.recorded
  | .tail =>
    match r.tail.getD [] with
    | [] => s.walkEnd o r w
    | h :: rest =>
      (s.idxLower h).setObj o
        (some { r with tail := some rest, walk := some { w with lowered := w.lowered + 1 } })
  | .segments =>
    if r.map.length ≤ w.ordinal then s.setWalk o { w with phase := .tail, index := 0 }
    else match s.oru.handles with
      | none => if s.oru.walkRead = .idle then s.onOru fun u => { u with walkRead := .wanted } else s
      | some hs =>
        match hs[w.index]? with
        | some h =>
          let s := s.idxLower h
          if w.index + 1 = hs.length then
            (s.setWalk o { w with ordinal := w.ordinal + 1, index := 0, lowered := w.lowered + 1 }).onOru fun u =>
              { u with handles := none, finishing := false }
          else s.setWalk o { w with index := w.index + 1, lowered := w.lowered + 1 }
        | none =>
          (s.setWalk o { w with ordinal := w.ordinal + 1, index := 0 }).onOru fun u =>
            { u with handles := none, finishing := false }

/-- Execution of WALK_STEP (R61, R62). -/
def execWalkStep (s : State) : Out :=
  .next (if s.mayWalk then
      match s.walkTarget.bind fun o => (s.obj o).map fun r => (o, r) with
      | some (o, r) =>
        match r.walk with
        | some w => s.walkStep o r w
        | none => s
      | none => s
    else s)

/-- Execution of RELEASE_RECORD_COPIED (R62, R65, R21). In a FAILED array no release ends: the object stays as it is until the
next attach, and the stream of an aborted one stays ABORTING until the next reset (R22, R63). -/
def execReleaseRecordCopied (o : Nat) (s : State) : Out :=
  .next (if s.oru.recordCopied.contains o ∧ s.ctm.state ≠ .failed then s.finishRelease o else s)

/-! ## Reading SEGMENT records (R53) -/

/-- The object and the ordinal that an asker of ORU wants, when it has asked. -/
def State.segmentWanted (s : State) : SegAsker → Option (Nat × Nat)
  | .walk =>
    if s.oru.walkRead = .wanted then
      s.walkTarget.bind fun o => ((s.obj o).bind fun r => r.walk).map fun w => (o, w.ordinal)
    else none
  | .stream i =>
    let r := s.reader i
    if r.segRead = .wanted then
      r.object.map fun o => (o, match r.seg with | some g => g.ordinal + 1 | none => 0)
    else none

/-- ORU's answers to a request for a segment (R53): `past` is END. -/
inductive SegAnswer where
  | handles (hs : List Nat)
  | past
  | noSuchObject
  | lost
  | failed
  deriving DecidableEq, Repr

/-- The release walk takes ORU's answer (R61): the handles in hand, or the segment skipped. An answer that no longer concerns the
object and the ordinal walked is passed over. -/
def State.walkAnswered (s : State) (o ord : Nat) (a : SegAnswer) : State :=
  let current := match s.walkTarget.bind fun o => ((s.obj o).bind fun r => r.walk).map fun w => (o, w) with
    | some (o', w) => if o' = o ∧ w.phase = WalkPhase.segments ∧ w.ordinal = ord then some w else none
    | none => none
  match current with
  | none => s.onOru fun u => { u with walkRead := .idle, finishing := false }
  | some w =>
    let s := s.onOru fun u => { u with walkRead := .idle }
    match a with
    | .handles hs => s.onOru fun u => { u with handles := some hs }
    | .failed | .past | .noSuchObject => s.onOru fun u => { u with finishing := false }
    | .lost =>
      (s.setWalk o { w with ordinal := w.ordinal + 1, index := 0 }).onOru fun u =>
        { u with skipped := tallyUp 7 u.skipped, finishing := false }

/-- A read stream takes ORU's answer (R125, R126, R131): the segment in hand, or the end reason DATA_LOST; an ENDING stream
discards it. -/
def State.readerAnswered (s : State) (i ord : Nat) (a : SegAnswer) : State :=
  let s := s.modReader i fun r => { r with segRead := .idle }
  let r := s.reader i
  match r.state, a with
  | .seeking, .handles hs =>
    s.setReader i { r with seg := some { ordinal := ord, first := r.position, handles := hs } }
  | .seeking, _ => s.seekEnds i (some .dataLost)
  | .running, .handles hs =>
    (s.setReader i { r with seg := some { ordinal := ord, first := r.position, handles := hs } }).readerSettle i
  | .running, .past => (if r.offset < r.stop then s.readerLost i r.offset else s).readerSettle i
  | .running, _ => (s.readerLost i r.offset).readerSettle i
  | _, _ => s.readerSettle i

/-- ORU's answer handed to its asker. -/
def State.segmentAnswered (s : State) (asker : SegAsker) (o ord : Nat) (a : SegAnswer) : State :=
  match asker with
  | .walk => s.walkAnswered o ord a
  | .stream i => s.readerAnswered i ord a

/-- The asker's read is outstanding at CTM. -/
def State.segmentReading (s : State) : SegAsker → State
  | .walk => s.onOru fun u => { u with walkRead := .reading }
  | .stream i => s.modReader i fun r => { r with segRead := .reading }

/-- The class of a SEGMENT read (R53). -/
def segmentClass : SegAsker → Cls
  | .walk => .verify
  | .stream _ => .read

/-- The bytes of a SEGMENT record that CTM is first asked for (R53): those in the unit where it begins, at most what it may
take. The next unit is read when the record's count says that it goes on (log entry 47). -/
def Layout.firstLength (l : Layout) (offset : Nat) : Nat :=
  min (min maxRecordSize (l.chunkSpace - offset)) (unitSize - offset % unitSize)

/-- Execution of RECORD_READ (R53): ORU answers at once for an object not in use, a LOST one and an ordinal past the map, and
otherwise has CTM read the record's bytes. -/
def execRecordRead (asker : SegAsker) (s : State) : Out :=
  .next (match s.segmentWanted asker with
    | none => s
    | some (o, ord) =>
      match s.obj o with
      | none => s.segmentAnswered asker o ord .noSuchObject
      | some r =>
        if r.state = .lost then s.segmentAnswered asker o ord .lost
        else if s.ctm.state = .failed then s.segmentAnswered asker o ord .failed
        else match r.map[ord]? with
          | none => s.segmentAnswered asker o ord .past
          | some l =>
            (s.segmentReading asker).newRead (.seg asker) none (segmentClass asker) l.container l.offset
              (s.layout.firstLength l.offset) (.segment o ord))

/-- Execution of RECORD_READ_DONE (R53): the record's reads have come back. -/
def execRecordReadDone (asker : SegAsker) (bad : Bool) (s : State) : Out :=
  .next (match (s.ctm.reads.map fun e => e.2).find? fun j => j.who = .seg asker with
    | none =>
      match s.reportFor fun w => w = .seg asker with
      | none => s
      | some rep =>
        let s := s.dropReport rep
        match asker with
        | .walk => s.onOru fun u => { u with walkRead := .idle, finishing := false }
        | .stream i => s.readerAnswered i 0 .failed
    | some j =>
      if s.readBack j = false then s
      else
        let s := s.advanceRead j bad
        match s.reportFor fun w => w = .seg asker with
        | none => s
        | some rep =>
          let s := s.dropReport rep
          match j.check with
          | .segment o ord =>
            match rep.answer with
            | .bytes bs =>
              let s := s.bufferDone rep.job
              match RecipeRec.parse bs with
              | some (.segment _ _ hs) => s.segmentAnswered asker o ord (.handles hs)
              | _ => s.segmentAnswered asker o ord .lost
            | .arrayFailed => s.segmentAnswered asker o ord .failed
            | _ => s.segmentAnswered asker o ord .lost
          | _ => s)

/-! ## Memory errors in the object table (R64) -/

/-- A RELEASING object becomes LOST (R64): its walk is taken as ended, with a RELEASE record to be placed; an object that replay
was walking is freed (R193). -/
def State.walkLost (s : State) (o : Nat) (r : Obj) : State :=
  let walked := decide (s.walkTarget = some o)
  let w := r.walk.getD Walk.start
  let s := s.setObj o (some { r with
    state := .lost, recorded := true, tail := none, walk := some { w with phase := .ended } })
  let s := if walked then
      s.onOru fun u =>
        { u with handles := none, finishing := false, walkRead := if u.walkRead = .wanted then .idle else u.walkRead }
    else s
  match s.ckr.attach with
  | some a => if a.walking = some o then s.replayWalked a o else s
  | none => s

/-- An object in use becomes LOST (R64). -/
def State.objectLost (s : State) (o : Nat) (r : Obj) : State :=
  let s := s.onOru fun u => { u with lostCount := tallyUp 8 u.lostCount }
  match r.state with
  | .opened =>
    let s := s.setObj o (some { r with state := .lost, stream := none })
    match r.stream with
    | some i => s.streamFault i .memory
    | none => s
  | .releasing => s.walkLost o r
  | _ => s.setObj o (some { r with state := .lost })

/-- Execution of OBJECT_WORD_ERROR (R64): a free slot is rewritten as free; an object in use becomes LOST. While no table is in force
the word is made good and a retained object is left as it is (R180 and R64 do not name the case: DESIGN CHOICE, log entry 80). -/
def execObjectWordError (o : Nat) (s : State) : Out :=
  .next (match (if s.inUse then s.obj o else none) with
    | none => s.wordRewritten [.objects, .pool]
    | some r =>
      let s := s.reportTakenOf [.objects, .pool]
      if r.state = .lost then s else s.objectLost o r)

end Sys2Proof.Machine
end

