-- ==== Sys2Proof/Machine/Containers.lean ====
section
/-!
DEFINITION. The commands of the container manager (chapter 4): placements, forced seals, stripe writes, chunk reads,
relocation, and the memory errors of its regions.
-/

namespace Sys2Proof.Machine

/-! ## Placements -/

/-- Whether a chunk placement has just been asked for and not yet made. -/
def State.placementNew (s : State) : PlaceFor → Bool
  | .record i no => ((s.stream i).record no).any fun r => r.work = .place
  | .relocation => s.ctm.reloc.any fun r => match r.stage with
    | .place _ => true
    | _ => false

/-- Execution of CHUNK_PLACEMENT (R78): a placement waits behind an earlier one that waits (R77). -/
def execChunkPlacement (who : PlaceFor) (s : State) : Out :=
  .next (if s.ctm.state.attached ∧ s.placementNew who = true then
      if s.waitsFor .data then (s.joinsWait .data).placeWaits who else s.tryChunk who
    else s)

/-- Execution of RECORD_PLACEMENT (R80): the oldest record placement sent to CTM. A forced seal that a stream's SEAL record has
caused is taken first (R20). -/
def execRecordPlacement (s : State) : Out :=
  .next (match s.ctm.recordReqs with
    | [] => s
    | req :: rest =>
      if s.ctm.state.attached ∧ s.streamSealAsked = false then
        let s := s.onCtm fun m => { m with recordReqs := rest }
        if s.mustWait (.record req) then s.wait (.record req)
        else if s.waitsFor .recipe then (s.joinsWait .recipe).wait (.record req)
        else s.tryRecord req
      else s)

/-- Execution of PLACEMENT_RETRY (R77). -/
def execPlacementRetry (s : State) : Out := .next (if s.ctm.state.attached then s.retryWaiting else s)

/-- The job of a zero write. -/
def isZeroJob : Job → Bool
  | .zeroStripe _ => true
  | _ => false

/-- Members whose returned writes came back with an error are failed with cause WRITE (R83, R187). -/
def State.failWriters (s : State) (rs : List Returned) : State :=
  rs.foldl (fun s r => if r.result = .error then s.failMember r.position .write else s) s

/-- Execution of ZERO_STRIPE_DONE (R187): V is raised and the opening goes on. -/
def execZeroStripeDone (s : State) : Out :=
  .next (match s.ctm.zeroing with
    | none => s
    | some (v, n) =>
      let rs := s.returned isZeroJob
      if rs.length < n then s
      else
        let s := (s.dropReturned isZeroJob).failWriters rs
        if s.ctm.zeroing.isNone then s
        else ((s.onCtm fun m => { m with zeroing := none }).onArray fun a => { a with fence := v }).retryWaiting)

/-! ## Forced seals (R81) -/

/-- A forced seal is answered at once, or when the containers it waits for have been written. -/
def State.sealWaits (s : State) (by_ : SealBy) (cs : List Nat) : State :=
  if cs.isEmpty then s else s.onCtm fun m => { m with sealJobs := m.sealJobs ++ [(by_, cs)] }

/-- A forced seal of both kinds, DATA first (R81). -/
def State.sealBoth (s : State) : State × List Nat :=
  let d := s.forceSeal .data
  let r := d.1.forceSeal .recipe
  (r.1, d.2 ++ r.2)

/-- The containers that are SEALING. -/
def State.sealingList (s : State) : List Nat :=
  (s.tables.containers.filter fun e => e.2.state = .sealing).map fun e => e.1

/-- The fill offset of the open DATA container, 0 when none is open. -/
def State.openFill (s : State) : Nat :=
  (((s.openOf .data).bind fun c => s.cont c).map fun r => r.fill).getD 0

/-- A forced seal for its requester (R20, R81, R91, R157, R188). From a checkpoint's on CTM opens no container, so that none is
OPEN at its answer (R188). -/
def State.forcedSeal (s : State) (by_ : SealBy) : State :=
  match by_ with
  | .stream _ =>
    let d := if s.openFill = 0 then (s, []) else s.forceSeal .data
    let r := d.1.forceSeal .recipe
    r.1.sealWaits by_ (d.2 ++ r.2)
  | .relocation =>
    match s.openOf .data, s.ctm.reloc with
    | some c, some r =>
      if r.destinations.contains c then
        let d := s.forceSeal .data
        d.1.sealWaits by_ d.2
      else s
    | _, _ => s
  | .checkpoint => let r := (s.onCtm fun m => { m with noOpen := true }).sealBoth
    r.1.sealWaits by_ r.1.sealingList
  | .sleepEntry => let r := s.sealBoth
    r.1.sealWaits by_ r.2

/-- Execution of FORCED_SEAL (R81): the oldest forced seal asked of CTM. -/
def execForcedSeal (s : State) : Out :=
  .next (match s.ctm.sealReqs with
    | [] => s
    | by_ :: rest =>
      if s.ctm.state.attached ∨ s.ctm.state = .attaching then
        (s.onCtm fun m => { m with sealReqs := rest }).forcedSeal by_
      else s)

/-! ## Stripe writes (R83, R84) -/

/-- Whether a returned operation is the unit write of a container on a position. -/
def Returned.isUnitWrite (c p : Nat) (r : Returned) : Bool := decide (r.op.job = .stripeWrite c) && decide (r.position = p)

/-- A stripe write with one unit write back. -/
def StripeWrite.back (w : StripeWrite) (p : Nat) (ok : Bool) : StripeWrite :=
  { w with out := w.out.filter fun q => q ≠ p, written := if ok then w.written + 1 else w.written }

/-- Execution of UNIT_WRITE_DONE (R83): OK, an error that fails the member with cause WRITE, or MEMBER_FAILED. -/
def execUnitWriteDone (c p : Nat) (s : State) : Out :=
  .next (match s.returns.find? fun r => r.isUnitWrite c p with
    | none => s
    | some r =>
      let s := { s with returns := s.returns.erase r }
      let ok := r.result.bytes.isSome
      let s := s.onCtm fun m =>
        { m with writes := m.writes.map fun w => if w.container = c then w.back p ok else w }
      s.failWriters [r])

/-- The stripe write whose completion CTM takes next: the one with the lowest seal sequence (R84). -/
def State.nextWrite (s : State) : Option StripeWrite :=
  s.ctm.writes.foldl (fun b w => match b with
    | none => some w
    | some v => if w.seq < v.seq then some w else some v) none

/-- IDX is sent the stored request of a NEW entry and the switch location of a MOVED one (R41, R43, R84). -/
def State.settlePlace (s : State) (c : Nat) : Place → State
  | .chunk false h f off => s.idxStored h f c off
  | .chunk true h f off =>
    match s.ctm.reloc with
    | some r => s.idxSwitch h f r.source c off
    | none => s
  | _ => s

/-- The SEALING stream whose SEAL record stands at a place (R54): a record that a stream no longer in SEALING has left there is
nobody's, whatever object holds its id since. -/
def State.sealingStreamAt (s : State) (l : SegLoc) : Option Nat :=
  (List.range 8).find? fun i => (s.stream i).state = .sealing && (s.stream i).sealAt = some l

/-- The write of the recipe container that holds the SEAL record of stream `i` has completed (R20, R54): the stream's object is
SEALED, the stream becomes FREE, and CLOSE_INGEST is answered. -/
def State.objectSealed (s : State) (i length : Nat) : State :=
  match (s.stream i).object.bind fun o => (s.obj o).map fun r => (o, r) with
  | some (o, r) =>
    if r.state = .opened then
      let s := s.setObj o (some { r with
        state := .sealed, length := length, sealedAt := s.pwc.time, stream := none })
      let s := s.noticeIngestEnd i .sealed
      let s := match (s.stream i).closeTag with
        | some tag => s.answer tag kindCloseIngest .ok [⟨2, o⟩, ⟨6, length⟩, ⟨4, r.chunks⟩]
        | none => s
      s.freeStream i
    else s
  | none => s

/-- The record places of a written container reported to their requesters. -/
def State.reportPlace (s : State) (c : Nat) : Place → State
  | .record (.closing _ length ..) off =>
    match s.sealingStreamAt { container := c, offset := off } with
    | some i => s.objectSealed i length
    | none => s
  | _ => s

/-- A container's write no longer waited for by forced seals; those that wait for nothing more are answered (R81). -/
def State.sealJobsWritten (s : State) (c : Nat) : State :=
  let jobs := s.ctm.sealJobs.map fun j => (j.1, j.2.filter fun k => k ≠ c)
  s.onCtm fun m => { m with sealJobs := jobs.filter fun j => !j.2.isEmpty }

/-- CTM takes a completion in an array that is not FAILED (R84). -/
def State.containerWritten (s : State) (w : StripeWrite) : State :=
  let c := w.container
  let b := s.bufferOf c
  let places := ((b.bind fun k => s.buffer k).map fun x => x.places).getD []
  let s := places.foldl (fun s p => s.settlePlace c p) s
  let s := s.modCont c fun r => if r.state = .sealing then { r with state := .sealed } else r
  let s := match b with
    | some k => s.setBuffer k none
    | none => s
  let s := places.foldl (fun s p => s.reportPlace c p) s
  let s := s.sealJobsWritten c
  let s := s.onCtm fun m =>
    { m with reloc := m.reloc.map fun r => { r with destinations := r.destinations.filter fun k => k ≠ c } }
  s.testFree c

/-- Execution of STRIPE_WRITE_COMPLETE (R84): in the order of the seal sequences. In a FAILED array the container stays
SEALING with its buffer held. Copies find the container SEALING (R82), so that its completion is taken when none is still to come
(DEDUCED, log entry 71). -/
def execStripeWriteComplete (s : State) : Out :=
  .next (match s.nextWrite with
    | none => s
    | some w =>
      if w.out.isEmpty ∧ (s.ctm.state = .failed ∨ s.copyPending w.container = false) then
        let s := s.onCtm fun m => { m with writes := m.writes.erase w }
        if s.ctm.state = .failed then s else s.containerWritten w
      else s)

/-! ## Chunk reads (R87 to R89) -/

/-- A report of CTM to the requester of a chunk read that made no read. -/
def State.reportChunk (s : State) (who : ReadBy) (a : ReadAnswer) : State :=
  s.onCtm fun m => { m with reports := m.reports ++ [{ job := m.nextRead, who := .chunk who, answer := a }] }

/-- The number of the read whose data buffer a chunk is to be read into again (R181). -/
def State.keptBuffer (s : State) : ReadBy → Option Nat
  | .stream i position => ((s.reader i).flights.find? fun f => f.position = position).bind fun f => f.buffer
  | .verify _ _ => none

/-- The read of a chunk at its location (R87), or once more into the buffer that it lies in (R181). The read made once more keeps
that data buffer lent and asks the pool for the work buffer alone, for which it may wait, where R175 has an asker take all its
buffers at once and hold none while it waits (DESIGN CHOICE, log entry 89). -/
def State.readChunkAt (s : State) (req : ChunkReq) (c off : Nat) : State :=
  match s.keptBuffer req.who with
  | some id =>
    s.beginRead id 1 true (.chunk req.who) (some req.handle) req.cls c off (fpLength req.fp) (.chunk req.fp)
  | none => s.newRead (.chunk req.who) (some req.handle) req.cls c off (fpLength req.fp) (.chunk req.fp)

/-- Execution of CHUNK_READ (R87): CTM resolves the location and begins the read, or answers at once. A location that names
a FREE container is asked for again later. -/
def execChunkRead (req : ChunkReq) (s : State) : Out :=
  .next (if s.ctm.chunkReqs.contains req then
      let rest := s.onCtm fun m => { m with chunkReqs := m.chunkReqs.erase req }
      if s.ctm.state = .failed then rest.reportChunk req.who .arrayFailed
      else match s.tables.locate req.handle with
        | .found _ _ c off =>
          if (s.cont c).isSome then
            rest.readChunkAt req c off
          else s
        | .dataLost _ => rest.reportChunk req.who (.dataLost none)
        | _ => rest.reportChunk req.who .noEntry
    else s)

/-- The container record as a recovery leaves it (R182): DRAINING, with no seal sequence, no reads in flight and no mark. -/
def Container.recovered (k : ContKind) (live refs entries : Nat) : Container :=
  { state := .draining, kind := k, seq := none, live := live, segRefs := refs, entries := entries, fill := 0, reads := 0,
    scarred := false }

/-- Both copies of a container's record are written (R182): their words are good from then on (R180). -/
def State.recordWords (s : State) (c : Nat) : State := s.onTables fun t => t.rewriteCont c

/-- Whether both copies of a container's record hold a bad word (R182). -/
def State.recordBad (s : State) (c : Nat) : Bool :=
  let at_ := s.tables.contAt c
  (s.wordBad at_ || s.wordBad (at_ + 8)) && (s.wordBad (at_ + 16) || s.wordBad (at_ + 24))

/-- A container taken out of service with the kind and figure found (R182), then tested by R86. An OPEN one that is a destination of
the relocation in progress stays on the relocation's list, which a destination leaves when its stripe write completes (R91), and the
relocation does not end before a write of that container number completes; neither rule names the case (DESIGN CHOICE, log entry
98). -/
def State.outOfService (s : State) (c : Nat) (k : ContKind) (live refs : Nat) : State :=
  let s := (s.onCtm fun m => { m with recovering := m.recovering.filter fun e => e.1 ≠ c }).recordWords c
  match s.cont c with
  | none => s
  | some r =>
    let s := if r.state = .opened then
        match s.bufferOf c with
        | some b => s.setBuffer b none
        | none => s
      else s
    (s.setCont c (some (Container.recovered k live refs r.entries))).testFree c

/-- The number of segment locations that name a container (R182). -/
def Tables.locationsIn (t : Tables) (c : Nat) : Nat :=
  t.objects.foldl (fun n e => n + (e.2.map.filter fun l => l.container = c).length) 0

/-- The header read of a container being recovered has ended (R182): a RECIPE container takes its locations' number, a DATA
container waits for IDX's sum. -/
def State.recoverRead (s : State) : State :=
  match s.reportFor fun w => w.recovers.isSome with
  | none => s
  | some rep =>
    let c := rep.who.recovers.getD 0
    let s := s.dropReport rep
    let kind : ContKind := match rep.answer with
      | .bytes bs =>
        match parseHeader (bs.drop s.layout.chunkSpace) with
        | some h => h.1
        | none => .data
      | _ => .data
    let s := match rep.answer with
      | .bytes _ => s.bufferDone rep.job
      | _ => s
    match kind with
    | .recipe => s.outOfService c .recipe 0 (s.tables.locationsIn c)
    | .data => s.recoveredAsData c

/-- Execution of UNIT_READ_DONE (R87 to R89): the unit reads of a read of CTM have come back. Record reads are ORU's. -/
def execUnitReadDone (id : Nat) (bad : Bool) (s : State) : Out :=
  .next (match s.readJob id with
    | none => s
    | some j =>
      match j.who with
      | .seg _ => s
      | _ => if s.readBack j then (s.advanceRead j bad).recoverRead else s)

/-! ## Relocation (R90, R91) -/

/-- RELOCATE_CONTAINER (R90). -/
def State.relocate (s : State) (tag c : Nat) : State :=
  if s.ctm.state = .failed then s.refuse tag kindRelocateContainer .arrayFailed
  else if !s.running then s.refuse tag kindRelocateContainer .wrongState
  else if s.containerCount ≤ c then s.refuse tag kindRelocateContainer .badArgument
  else match s.cont c with
    | none => s.refuse tag kindRelocateContainer .wrongState
    | some r =>
      if r.state ≠ .sealed ∨ r.kind ≠ .data then s.refuse tag kindRelocateContainer .wrongState
      else if s.layout.chunkSpace ≤ r.live then s.refuse tag kindRelocateContainer .badArgument
      else if s.ctm.reloc.isSome then s.refuse tag kindRelocateContainer .busy
      else
        let s := s.setCont c (some { r with state := .draining })
        let begun : Reloc :=
          { source := c, tag := tag, cursor := 0, moved := 0, left := 0, destinations := [], entries := [],
            stage := .directory, full := false, buffer := none }
        let s := s.onCtm fun m => { m with reloc := some begun }
        s.newRead .relocDirectory none .verify c s.layout.chunkSpace directorySize .directory

/-- Execution of RELOCATE_CONTAINER. -/
def execRelocateContainer (tag c : Nat) (s : State) : Out :=
  .next ((s.taken (.relocateContainer tag c)).relocate tag c)

/-- The relocation record replaced. -/
def State.setReloc (s : State) (r : Reloc) : State := s.onCtm fun m => { m with reloc := some r }

/-- The walk takes the directory (R90): one that cannot be read leaves nothing to walk. -/
def State.relocDirectoryRead (s : State) (r : Reloc) : State :=
  match s.reportFor fun w => w = .relocDirectory with
  | none => s
  | some rep =>
    let s := s.dropReport rep
    match rep.answer with
    | .bytes bs => (s.setReloc { r with entries := parseEntries bs, stage := .scan }).bufferDone rep.job
    | _ => s.setReloc { r with stage := .ending }

/-- The walk has passed the last entry (R91): the open DATA container is force-sealed if it is a destination. -/
def State.relocWalked (s : State) (r : Reloc) : State :=
  let s := s.setReloc { r with stage := .ending }
  if (s.openOf .data).any fun c => r.destinations.contains c then
    s.onCtm fun m => { m with sealReqs := m.sealReqs ++ [.relocation] }
  else s

/-- Whether a directory entry is a candidate of the walk (R90): IDX locates its handle in the source at the entry's offset,
or answers DATA_LOST. An entry whose range runs past the chunk space, of which R90 does not speak, is passed over and not counted
as left (DESIGN CHOICE, log entry 60). -/
def State.relocCandidate (s : State) (r : Reloc) (e : DirEntry) : Bool :=
  decide (e.offset + fpLength e.fp ≤ s.layout.chunkSpace) &&
    s.tables.isHandle e.handle &&
    match s.tables.locate e.handle with
    | .found _ _ c off => decide (c = r.source) && decide (off = e.offset)
    | .dataLost _ => true
    | _ => false

/-- The walk takes the entry at the cursor (R90, steps 1 and 2). -/
def State.relocScan (s : State) (r : Reloc) : State :=
  match r.entries[r.cursor]? with
  | none => s.relocWalked r
  | some e =>
    if s.relocCandidate r e then
      (s.setReloc { r with stage := .chunk }).newRead .relocChunk (some e.handle) .verify r.source e.offset
        (fpLength e.fp) (.chunk e.fp)
    else s.setReloc { r with cursor := r.cursor + 1 }

/-- The walk takes the chunk that it has read (R90, step 2). A chunk whose read ends DATA_LOST with no bytes is left in the source and
counted as left: its unit reads could not be gathered, or its read buffer was in error twice (R87), which R90 does not name (DESIGN
CHOICE, log entry 93). -/
def State.relocChunkRead (s : State) (r : Reloc) : State :=
  match s.reportFor fun w => w = .relocChunk with
  | none => s
  | some rep =>
    let s := s.dropReport rep
    match rep.answer with
    | .bytes bs => s.setReloc { r with stage := .place bs, buffer := some rep.job }
    | .dataLost (some bs) => s.setReloc { r with stage := .place bs, buffer := some rep.job }
    | _ => s.setReloc { r with stage := .scan, cursor := r.cursor + 1, left := r.left + 1 }

/-- The copy at the placed offset with its set move (R90, steps 3 to 5). Where the destination has lost its buffer since the
placement, its record being lost (R182), the entry is left in the source and counted as left: R90 does not name the case (DESIGN
CHOICE, log entry 74). -/
def State.relocCopied (s : State) (r : Reloc) (bs : List Byte) (c off place : Nat) : State :=
  match r.entries[r.cursor]? with
  | none => s.setReloc { r with stage := .ending, buffer := none }
  | some e =>
    if (s.bufferOf c).isNone then
      s.setReloc { r with stage := .scan, cursor := r.cursor + 1, left := r.left + 1, buffer := none }
    else
      let s := s.copyChunk c off place true e.handle e.fp bs
      let s := s.idxSetMove e.handle e.fp r.source c
      let moved := if s.idx.answer = .ok then r.moved + 1 else r.moved
      let dests := if r.destinations.contains c then r.destinations else r.destinations ++ [c]
      s.setReloc { r with stage := .scan, cursor := r.cursor + 1, moved := moved, destinations := dests, buffer := none }

/-- The copy made: the chunk's data buffer goes back (R175). -/
def State.relocCopy (s : State) (r : Reloc) (bs : List Byte) (c off place : Nat) : State :=
  (s.relocCopied r bs c off place).relocBufferBack r

/-- Execution of RELOCATION_STEP (R90): the next step of the walk; while a checkpoint pauses copies no further entry is
taken. -/
def execRelocationStep (s : State) : Out :=
  .next (match s.ctm.reloc with
    | none => s
    | some r =>
      match r.stage with
      | .directory => s.relocDirectoryRead r
      | .scan => if s.oru.paused then s else s.relocScan r
      | .chunk => s.relocChunkRead r
      | .copy bs c off place => s.relocCopy r bs c off place
      | _ => s)

/-- The outcomes of a relocation, in the order of R91. -/
inductive RelocOutcome where
  | freed | kept
  deriving DecidableEq, Repr

/-- Execution of RELOCATION_END (R91). -/
def execRelocationEnd (s : State) : Out :=
  .next (match s.ctm.reloc with
    | none => s
    | some r =>
      if r.stage = .ending ∧ r.destinations.isEmpty = true ∧ s.ctm.sealReqs.contains .relocation = false then
        let live := ((s.cont r.source).map fun x => x.live).getD 0
        let outcome := if live = 0 then RelocOutcome.freed else RelocOutcome.kept
        let s := s.onCtm fun m => { m with reloc := none }
        let s := match outcome with
          | .freed => s.testFree r.source
          | .kept => s.modCont r.source fun x => { x with state := .sealed }
        s.answer r.tag kindRelocateContainer (if r.full then .arrayFull else .ok)
          [⟨1, match outcome with | .freed => 0 | .kept => 1⟩, ⟨1, r.moved⟩, ⟨1, r.left⟩, ⟨4, live⟩]
      else s)

/-! ## Memory errors (R76, R182) -/

/-- Execution of STRIPE_BUFFER_WORD_ERROR (R76): a damage mark for each chunk that overlaps a word of the chunk space. -/
def execStripeBufferWordError (k offset : Nat) (s : State) : Out :=
  let s := s.reportTaken .stripes
  let word := offset / 8 * 8
  .next (match s.buffer k with
    | none => s
    | some b =>
      if word < s.layout.chunkSpace then
        b.places.foldl (fun s p => match p with
          | .chunk _ h f off =>
            if off < word + 8 ∧ word < off + fpLength f then s.idxDamage h f else s
          | _ => s) s
      else s)

/-- Both copies of a container's record are bad (R182): a FREE container goes FREE again to the quarantine list, any other is
taken out of service once its header has been read. A FREE one takes no step of R182 but the last: no header is read and no sum
asked for, and it joins the quarantine list in this step, also while a checkpoint's copy defers going FREE (R182 says 'at once', and
neither it nor R188 how that goes with its steps and with the copy: DESIGN CHOICE, log entry 88). Until step 3 of R182 any other
counts as it stood, its state, kind, live bytes and references among it, and the rise of its reads in flight for the header read
writes both copies with them (R182 does not say: DESIGN CHOICE, log entry 36). -/
def State.recordLost (s : State) (c : Nat) : State :=
  if (s.cont c).isNone then
    (s.onTables fun t => t.setLists (t.freeList.filter fun k => k ≠ c)
      ((t.quarantine.filter fun k => k ≠ c) ++ [c])).recordWords c
  else if s.ctm.recovering.any fun e => e.1 = c then s
  else
    (s.onCtm fun m => { m with recovering := m.recovering ++ [(c, false)] }).newRead (.recover c) none .verify c 0
      (s.layout.dataUnits * unitSize) .area

/-- The containers whose records hold two bad copies, in ascending order (R182). -/
def State.recordsBad (s : State) : List Nat :=
  if s.tables.bad.isEmpty then [] else (List.range s.containerCount).filter fun c => s.recordBad c

/-- Both lists rebuilt from the table (R182): records with both copies bad are treated first, every FREE container joins the
quarantine list in ascending order, and the checkpoint-needed condition begins if there is one (R77). -/
def State.rebuildLists (s : State) : State :=
  let s := s.each s.recordsBad State.recordLost
  let free := (List.range s.containerCount).filter fun c => (s.cont c).isNone
  (s.onTables fun t => t.setLists [] free).needCheckpoint

/-- Execution of CONTAINER_RECORD_ERROR (R182): one bad copy is rewritten from the other; `otherBad` says that the other copy
is bad too. Both copies of the array record bad are rewritten with its contents kept, of which R182, which recovers container records
and list links, does not speak (DESIGN CHOICE, log entry 95). While no table is in force the word is made
good whichever copies are bad, and nothing is recovered (R182 does not name the case: DESIGN CHOICE, log entry 80). -/
def execContainerRecordError (w : ContWord) (otherBad : Bool) (s : State) : Out :=
  .next (if otherBad = false ∨ s.inUse = false then s.wordRewritten [.containers]
    else match w with
      | .record c =>
        let s := s.reportTaken .containers
        if c < s.containerCount then s.recordLost c else s
      | .link _ => (s.wordRewritten [.containers]).rebuildLists
      | .array => s.wordRewritten [.containers])

/-- Execution of SUM_OF_LENGTHS (R182): IDX answers by a scan, and a container whose recovery waits for the sum takes it as
its live bytes; with no index in force IDX scans the retained tables (DESIGN CHOICE, log entry 83). -/
def execSumOfLengths (c : Nat) (s : State) : Out :=
  let sum := s.tables.sumOf c
  let s := s.idxAnswer (.sum sum)
  .next (if s.ctm.recovering.contains (c, true) then s.outOfService c .data sum 0 else s)

end Sys2Proof.Machine
end

