-- ==== Sys2Proof/Machine/Channels.lean ====
section
/-!
DEFINITION. The commands of the drive channels and the bays (chapter 5), with spin-up and the idle timers (chapter 8): an
operation from submission to its end, standby, member failures, and the sense and presence lines.
-/

namespace Sys2Proof.Machine

/-- Execution of OPERATION_SUBMIT (R97 to R99). -/
def execOperationSubmit (p : Nat) (o : Op) (s : State) : Out := .next (s.submit p o)

/-- Execution of DISPATCH (R101, R102). -/
def execDispatch (p : Nat) (s : State) : Out :=
  .next (if (s.chan p).mayDispatch then s.dispatch p else s)

/-! ## The end of an operation (R103, R104) -/

/-- What a successful operation returns (R103): a READ and a LABEL_READ their bytes, the other kinds OK alone. -/
def returnedBytes (o : Op) (bs : List Byte) : List Byte :=
  match o.kind with
  | .read => padTo o.len bs
  | .labelRead => padTo unitSize bs
  | _ => []

/-- A member's error count raised after the second failure of an operation (R104, R108). -/
def State.countError (s : State) (p : Nat) : State :=
  let s := s.modChan p fun c => { c with member := { c.member with errors := c.member.errors + 1 } }
  if 16 ≤ (s.chan p).member.errors then s.failMember p .errors else s.noticeMember p

/-- The channel's retry tally raised (R104, R108). -/
def State.countRetry (s : State) (p : Nat) : State := s.modChan p fun c => { c with retries := tallyUp 12 c.retries }

/-- A first failure (R104): the operation goes back to the head of its class queue with its retry flag set. -/
def State.retryOp (s : State) (p : Nat) (o : Op) : State :=
  (s.modChan p fun c =>
    { c.setQueue o.cls ({ o with retry := true } :: c.queue o.cls) with current := none }).countRetry p

/-- A failure of the operation in progress (R103, R104, R106): retried once, and otherwise returned as an error that counts
against the member. In a FAILED array a first failure is returned without a retry. The error of an adopted member's second
label write fails that member (R184). -/
def State.opFailed (s : State) (p : Nat) (o : Op) : State :=
  if o.retry = false ∧ s.ctm.state ≠ .failed then s.retryOp p o
  else
    let s := (s.modChan p fun c => { c with current := none }).giveBack p o .error
    let s := if o.retry then s.countError p else s
    let s := if o.job = .adoptLabelSecond then s.failMember p .write else s
    s.idleUpdate p

/-! ## Standby (R108, R158, R165) -/

/-- A position's idle timer made idle (R165). -/
def State.timerIdle (s : State) (p : Nat) : State :=
  s.onPwc fun w => { w with idleTimers := w.idleTimers.setIfInBounds p false }

/-- The standby operation of a position has ended. A request that has come meanwhile stays with PWC. -/
def State.standbyOver (s : State) (p : Nat) : State :=
  s.onPwc fun w => { w with standbyOps := w.standbyOps.setIfInBounds p none }

/-- A sleep-entry request that was answered NOT_IDLE during a standby operation that then succeeds is sent again at once, since a
STANDBY member reports no idleness (R158 does not say: DESIGN CHOICE, log entry 52). -/
def State.resendHeld (s : State) (p : Nat) : State :=
  s.onPwc fun w =>
    { w with standbyAsks :=
        if w.standbyAsks[p]?.getD none = some .held then w.standbyAsks.setIfInBounds p (some .sleepEntry)
        else w.standbyAsks }

/-- PWC switches a member's bay off at step 5 and the member becomes OFF (R158). -/
def State.memberOff (s : State) (p : Nat) : State := (s.memberBayOff p).memberChange p .off

/-- PWC acts on the answers DONE and FAILED (R158, R165): the idle timer is idle; at step 5 the bay is switched off and a
member that has not failed becomes OFF. -/
def State.standbyAnswered (s : State) (p : Nat) (a : StandbyAsk) : State :=
  match a with
  | .idleTimer => s.timerIdle p
  | _ => if s.member p = .failed then s.checkStep5 else s.memberOff p

/-- The asker of the standby operation that a channel carries. -/
def State.standbyAsker (s : State) (p : Nat) : StandbyOp :=
  (s.pwc.standbyOps[p]?.getD none).getD { asker := .idleTimer, second := false }

/-- The end of a standby operation (R108). After a second failure PWC takes the answer FAILED, and the channel's report of idleness
follows, which starts the idle timer again (R165). The operation sent again has its retry flag clear, and it is sent again in a
FAILED array too (R106, R108 and R115 leave both open: DESIGN CHOICE, log entry 69). -/
def State.standbyEnd (s : State) (p : Nat) (success : Bool) : State :=
  let a := s.standbyAsker p
  if success then
    let s := ((s.modChan p fun c => { c with current := none }).standbyOver p).resendHeld p
    let s := s.memberChange p .standby
    let s := if (s.chan p).allQueued.isEmpty then s else s.modChan p fun c => { c with spinupAsked := true }
    s.standbyAnswered p a.asker
  else if a.second then
    let s := (s.modChan p fun c => { c with current := none }).standbyOver p
    ((s.countError p).standbyAnswered p a.asker).idleUpdate p
  else
    let again : StandbyOp := { a with second := true }
    ((s.onPwc fun w => { w with standbyOps := w.standbyOps.setIfInBounds p (some again) }).modChan p fun c =>
      { c with command := c.command + 1 }).countRetry p

/-- Execution of STANDBY_OPERATION_END (R108): the end of the standby operation as it was sent last. -/
def execStandbyOperationEnd (p : Nat) (success : Bool) (s : State) : Out :=
  .next (match (s.chan p).current with
    | some o => if o.kind = .standby then s.standbyEnd p success else s
    | none => s)

/-- The operation in progress ends by a completion or by its timeout (R103). -/
def State.opEnds (s : State) (p : Nat) (r : Completion) : State :=
  match (s.chan p).current with
  | none => s
  | some o =>
    match o.kind, r with
    | .standby, .ok _ => s.standbyEnd p true
    | .standby, .mediaError => s.standbyEnd p false
    | _, .ok bs =>
      ((s.modChan p fun c => { c with current := none }).giveBack p o (.ok (returnedBytes o bs))).idleUpdate p
    | _, .mediaError => s.opFailed p o

/-- Execution of OPERATION_COMPLETE (R103, R104). A completion of a command that the channel has abandoned, by its timeout or by the
member's failure, is discarded. -/
def execOperationComplete (p : Nat) (r : DriveAnswer) (s : State) : Out :=
  .next (if (s.chan p).command = r.command then s.opEnds p r.completion else s)

/-- Execution of OPERATION_TIMEOUT (R103): the command is abandoned and handled as a failure. -/
def execOperationTimeout (p : Nat) (s : State) : Out := .next (s.opEnds p .mediaError)

/-- Execution of FAIL_MEMBER (R105). -/
def execFailMember (p : Nat) (cause : FailCause) (s : State) : Out := .next (s.failMember p cause)

/-- A channel acts on a standby request (R108). -/
def State.standbyRequested (s : State) (p : Nat) (a : StandbyAsk) : State :=
  let s := s.onPwc fun w => { w with standbyAsks := w.standbyAsks.setIfInBounds p none }
  let c := s.chan p
  match c.member.state with
  | .active =>
    if c.quiet then
      let begun : StandbyOp := { asker := a, second := false }
      let s := s.onPwc fun w => { w with standbyOps := w.standbyOps.setIfInBounds p (some begun) }
      (s.modChan p fun c => { c with current := some standbyOp, command := c.command + 1 }).idleUpdate p
    else match a with
      | .idleTimer => s.timerIdle p
      | _ => s.onPwc fun w => { w with standbyAsks := w.standbyAsks.setIfInBounds p (some .held) }
  | .standby | .off => s.standbyAnswered p a
  | _ => s.timerIdle p

/-- Execution of STANDBY_REQUEST (R108): the request that PWC has sent to the channel. -/
def execStandbyRequest (p : Nat) (s : State) : Out :=
  .next (match s.pwc.standbyAsks[p]?.getD none with
    | some .idleTimer => s.standbyRequested p .idleTimer
    | some .sleepEntry => s.standbyRequested p .sleepEntry
    | _ => s)

/-- Execution of IDLE_TIMER_EXPIRE (R165): a running timer expires, and PWC sends the channel a standby request. -/
def execIdleTimerExpire (p : Nat) (s : State) : Out :=
  .next (if s.pwc.idleTimers[p]?.getD false then
      s.onPwc fun w =>
        { w with
          idleTimers := w.idleTimers.setIfInBounds p false,
          standbyAsks :=
            if (w.standbyAsks[p]?.getD none).isSome then w.standbyAsks
            else w.standbyAsks.setIfInBounds p (some .idleTimer) }
    else s)

/-! ## Spin-up (R163, R164) -/

/-- Execution of SPINUP_REQUEST (R163): the position joins the spin-up queue unless it is there or is spinning up. -/
def execSpinupRequest (p : Nat) (s : State) : Out :=
  .next (if (s.chan p).spinupAsked then
      let s := s.modChan p fun c => { c with spinupAsked := false }
      let st := s.member p
      if (st = .off ∨ st = .standby) ∧ (s.pwc.spinQueue.any fun e => e.position = p) = false then
        let e : SpinEntry := { position := p, attempt := 1, fromOff := decide (st = .off) }
        let s := s.onPwc fun w => { w with spinQueue := w.spinQueue ++ [e] }
        ((s.setMember p .spinupWait).spinTest 4).memberReported
      else s
    else s)

/-- The operations of a list that are no adoption's label write. -/
def noAdoptLabel (os : List (Nat × Op)) : List (Nat × Op) := os.filter fun e => e.2.job ≠ .adoptLabel

/-- The label write of an adoption withdrawn, wherever it is queued, waits or is held back (R148); a stage that stalled with it
goes on (R99). -/
def State.withdrawLabel (s : State) : State :=
  s.each (List.range 4) fun s p =>
    let ws := (s.chan p).waitingFor .write
    let gone := ws.filter fun w => w.op.job = .adoptLabel
    let kept := (ws.filter fun w => w.op.job ≠ .adoptLabel).map fun w => { w with rest := noAdoptLabel w.rest }
    (s.modChan p fun c =>
      (c.setQueue .write ((c.queue .write).filter fun o => o.job ≠ .adoptLabel)).setWaiting .write kept).submitAll
        (noAdoptLabel (gone.map fun w => w.rest).flatten)

/-- A member becomes ready (R164): its spin-up ends, S may fall, further spin-ups may start, and at step 5 of a sleep entry
it too is asked for standby. R158 does not name a member in SPINUP_WAIT or SPINNING_UP there, which a write of steps 3 and 4 can leave
behind when the array fails (R157): it is asked when it is ready (DESIGN CHOICE, log entry 94). -/
def State.becomesReady (s : State) (p : Nat) (m : MemberState) : State :=
  let s := (s.setMember p m).spinChanged
  let s := if s.pwc.box = .sleepEntry ∧ s.pwc.entryStep = some 5 then
      s.onPwc fun w => { w with standbyAsks := w.standbyAsks.setIfInBounds p (some .sleepEntry) }
    else s
  s.memberReported

/-- The smallest number of units an adopted drive may have (R70, R148). -/
def State.unitsNeeded (s : State) : Nat := 1 + 2 * s.reserved + s.containerCount

/-- Execution of DRIVE_READY (R164, R148): the report of a drive that has been started, with its size in whole units. -/
def execDriveReady (p units : Nat) (s : State) : Out :=
  .next (match s.pwc.spinning[p]?.getD none with
    | none => s
    | some e =>
      if e.commanded ∧ s.member p = .spinningUp then
        let s := s.onPwc fun w => { w with spinning := w.spinning.setIfInBounds p none }
        let s := s.modChan p fun c => { c with units := some units }
        if s.igu.adoption.any fun a => a.position = p then
          if units < s.unitsNeeded then s.withdrawLabel.failMember p .write
          else s.becomesReady p .rebuilding
        else s.becomesReady p .active
      else s)

/-- Execution of SPINUP_TIMEOUT (R164). -/
def execSpinupTimeout (p : Nat) (s : State) : Out :=
  .next (match s.pwc.spinning[p]?.getD none with
    | none => s
    | some e =>
      if e.attempt = 1 then
        let again : SpinEntry := { position := p, attempt := 2, fromOff := e.fromOff }
        let s := s.onPwc fun w =>
          { w with spinning := w.spinning.setIfInBounds p none, spinQueue := w.spinQueue ++ [again] }
        ((s.setMember p .spinupWait).spinChanged).memberReported
      else s.failMember p .spinup)

/-! ## Bay power and presence (R110 to R112) -/

/-- A switch-on is confirmed (R110): the window is idle and the drive gets its start command. -/
def State.switchOnConfirmed (s : State) (b : Nat) : State :=
  let s := s.setBay b { s.bay b with window := false }
  match s.positionOfBay b with
  | some p => s.onPwc fun w =>
      let begun := (w.spinning[p]?.getD none).map fun e => { e with commanded := true }
      { w with spinning := w.spinning.setIfInBounds p begun }
  | none => s

/-- A power fault of a bay (R110, R111): the enable is cleared, the fault recorded and counted, and the bound member fails
with cause POWER. -/
def State.bayFault (s : State) (b : Nat) : State :=
  let s := s.setBay b { s.bay b with enable := false, window := false, powerFault := true }
  let s := s.onPwc fun w => { w with powerFaults := tallyUp 13 w.powerFaults }
  match s.positionOfBay b with
  | some p => s.failMember p .power
  | none => s.checkStep5

/-- Execution of READBACK_EXPIRE (R110): a window that expires with the sense off is a power fault. -/
def execReadbackExpire (b : Nat) (s : State) : Out :=
  .next (if (s.bay b).window then
      if (s.bay b).sense.level then s.switchOnConfirmed b else s.bayFault b
    else s)

/-- Execution of SENSE_CHANGE (R110, R111): a filtered change of a bay's power-sense line. -/
def execSenseChange (b : Nat) (on : Bool) (s : State) : Out :=
  .next (if (s.bay b).sense.level = on then s
    else
      let s := s.setBay b { s.bay b with sense := (s.bay b).sense.follow on }
      if on ∧ (s.bay b).window = true then s.switchOnConfirmed b
      else if on = false ∧ (s.bay b).enable = true ∧ (s.bay b).window = false then s.bayFault b
      else s)

/-- Execution of PRESENCE_CHANGE (R112, R160, R161): a filtered change of a bay's presence line. -/
def execPresenceChange (b : Nat) (present : Bool) (s : State) : Out :=
  .next (if (s.bay b).presence.level = present ∨ 3 < b then s
    else
      let s := s.setBay b { s.bay b with presence := (s.bay b).presence.follow present }
      let s := s.wakeCause (.presence b present)
      if present then s
      else match s.positionOfBay b with
        | some p => s.failMember p .removed
        | none => s)

/-! ## The service frame (R100) -/

/-- The first F classes of a SET_SERVICE_FRAME, when each of them is one of the five. -/
def frameOf (f : Nat) (classes : List Nat) : Option (List Cls) :=
  let cs := (classes.take f).filterMap classOf
  if cs.length = f then some cs else none

/-- SET_SERVICE_FRAME (R100). -/
def State.setServiceFrame (s : State) (tag selector f : Nat) (classes : List Nat) : State :=
  if s.ctm.state = .failed then s.refuse tag kindSetServiceFrame .arrayFailed
  else if 4 < selector then s.refuse tag kindSetServiceFrame .badArgument
  else
    let f := clamp 4 32 f
    match frameOf f classes with
    | none => s.refuse tag kindSetServiceFrame .badArgument
    | some cs =>
      let s := s.each (if selector = 4 then List.range 4 else [selector]) fun s p =>
        s.modChan p fun c => { c with frame := cs, position := 0 }
      s.answer tag kindSetServiceFrame .ok [⟨1, f⟩]

/-- Execution of SET_SERVICE_FRAME. -/
def execSetServiceFrame (tag selector f : Nat) (classes : List Nat) (s : State) : Out :=
  .next ((s.taken (.setServiceFrame tag selector f classes)).setServiceFrame tag selector f classes)

end Sys2Proof.Machine
end

