-- ==== Sys2Proof/Machine/Sharing.lean ====
section
/-!
DEFINITION. The commands of the read service (chapter 6): grants, read streams from their opening to their end, and the sending
of their bytes.
-/

namespace Sys2Proof.Machine

/-! ## Grants (R116 to R121) -/

/-- An allowance as a reply carries it; the number that stands for unlimited is open above 2^40 (log entry 10). -/
def allowanceField : Option Nat → Field
  | some v => ⟨6, v⟩
  | none => ⟨6, unlimitedFrom + Config.unlimitedExcess % (281474976710656 - unlimitedFrom)⟩

/-- The record of R116 as a reply carries it. Log entry 12 gives the sizes that R203 leaves open. -/
def Grant.fields (g : Grant) : List Field :=
  [⟨1, g.state.code⟩, ⟨4, g.albums.toNat⟩, ⟨4, g.notAfter.toNat⟩, allowanceField g.installed, allowanceField g.remaining,
   ⟨1, g.limit⟩, ⟨4, g.opens⟩, ⟨6, g.delivered⟩]

/-- The bytes charged to a grant since its PUT_GRANT (R116): installed less remaining; an unlimited allowance is charged
nothing (R127). -/
def Grant.charged (g : Grant) : Nat :=
  match g.installed, g.remaining with
  | some a, some b => a - b
  | _, _ => 0

/-- The record that an accepted PUT_GRANT leaves (R118). -/
def Grant.put (albums : Albums) (notAfter : Time) (allowance : Option Nat) (limit : Nat) : Grant :=
  { state := .active, albums := albums, notAfter := notAfter, installed := allowance, remaining := allowance,
    limit := clamp 1 4 limit, opens := 0, delivered := 0 }

/-- PUT_GRANT (R117, R118). -/
def State.putGrant (s : State) (tag g : Nat) (albums : Albums) (notAfter : Time) (allowance : Option Nat) (limit : Nat) :
    State :=
  if s.ctm.state = .failed then s.refuse tag kindPutGrant .arrayFailed
  else if 63 < g then s.refuse tag kindPutGrant .badArgument
  else if notAfter ≤ s.pwc.time then s.refuse tag kindPutGrant .expired
  else if (s.grant g).opens ≠ 0 then s.refuse tag kindPutGrant .busy
  else
    let record := Grant.put albums notAfter allowance limit
    (s.setGrant g record).answer tag kindPutGrant .ok record.fields

/-- Execution of PUT_GRANT. -/
def execPutGrant (tag g : Nat) (albums : Albums) (notAfter : Time) (allowance : Option Nat) (limit : Nat) (s : State) :
    Out :=
  .next ((s.taken (.putGrant tag g albums notAfter allowance limit)).putGrant tag g albums notAfter allowance limit)

/-- The SEEKING and RUNNING read streams under a grant. -/
def State.liveUnder (s : State) (g : Nat) : List Nat :=
  (List.range 16).filter fun i =>
    (s.reader i).grant = some g && ((s.reader i).state = .seeking || (s.reader i).state = .running)

/-- REVOKE_GRANT (R117, R119). The streams enter ENDING in ascending number (R119 gives no order: DESIGN CHOICE, log entry
61). -/
def State.revokeGrant (s : State) (tag g : Nat) : State :=
  if s.ctm.state = .failed then s.refuse tag kindRevokeGrant .arrayFailed
  else if 63 < g then s.refuse tag kindRevokeGrant .badArgument
  else match (s.grant g).state with
    | .free => s.refuse tag kindRevokeGrant .noSuchGrant
    | .revoked => s.answer tag kindRevokeGrant .ok [⟨1, 0⟩]
    | _ =>
      let live := s.liveUnder g
      let s := s.setGrant g { s.grant g with state := .revoked }
      (s.each live fun s i => s.enterEnding i .revoked).answer tag kindRevokeGrant .ok [⟨1, live.length⟩]

/-- Execution of REVOKE_GRANT. -/
def execRevokeGrant (tag g : Nat) (s : State) : Out :=
  .next ((s.taken (.revokeGrant tag g)).revokeGrant tag g)

/-- GET_GRANT (R117, R120). -/
def State.getGrant (s : State) (tag g : Nat) : State :=
  if s.ctm.state = .failed then s.refuse tag kindGetGrant .arrayFailed
  else if 63 < g then s.refuse tag kindGetGrant .badArgument
  else s.answer tag kindGetGrant .ok ((s.grant g).fields ++ [⟨6, (s.grant g).charged⟩])

/-- Execution of GET_GRANT. -/
def execGetGrant (tag g : Nat) (s : State) : Out := .next ((s.taken (.getGrant tag g)).getGrant tag g)

/-- Execution of GRANT_EXPIRE (R121): the comparison of one grant. -/
def execGrantExpire (g : Nat) (s : State) : Out := .next (if 63 < g then s else s.compareGrant g)

/-! ## Opening and stopping (R123, R124, R132) -/

/-- The checks of the grant in an OPEN_READ (R123), after the expiry comparison: NO_SUCH_GRANT or EXPIRED. -/
def State.grantRefusal (s : State) (g : Nat) : Option Status :=
  if g = ownerAccess then none
  else match (s.grant g).state with
    | .active => none
    | .expired => some .expired
    | _ => some .noSuchGrant

/-- The lowest-numbered FREE read stream (R124). -/
def State.freeReader (s : State) : Option Nat := (List.range 16).find? fun i => (s.reader i).state = .free

/-- The checks of an OPEN_READ from the object on (R123): a refusal, or the stream to take and the object's record. -/
def State.openChecks (s : State) (o g start : Nat) : Except Status (Nat × Obj) :=
  match s.obj o with
  | none => .error .noSuchObject
  | some r =>
    let owner := decide (g = ownerAccess)
    if r.state ≠ .sealed then .error .wrongState
    else if owner = false ∧ r.albums &&& (s.grant g).albums = 0 then .error .denied
    else if owner = false ∧ (s.grant g).limit ≤ (s.grant g).opens then .error .noStream
    else match s.freeReader with
      | none => .error .noStream
      | some i => if r.length < start then .error .badArgument else .ok (i, r)

/-- The record of a read stream as it is opened (R124). -/
def ReadStream.opened (o g start stop : Nat) : ReadStream :=
  { ReadStream.freeRecord with
    state := .seeking, object := some o, grant := some g, start := start, stop := stop, delivered := start }

/-- OPEN_READ (R123, R124). The seek of an empty range ends at once (R125). -/
def State.openRead (s : State) (tag o g start count : Nat) : State :=
  if (63 < g ∧ g ≠ ownerAccess) ∨ o = 0 ∨ 65535 < o then s.refuse tag kindOpenRead .badArgument
  else if s.ctm.state = .failed then s.refuse tag kindOpenRead .arrayFailed
  else if !s.running then s.refuse tag kindOpenRead .wrongState
  else
    let s := if g = ownerAccess then s else s.compareGrant g
    match s.grantRefusal g with
    | some st => s.refuse tag kindOpenRead st
    | none =>
      match s.openChecks o g start with
      | .error st => s.refuse tag kindOpenRead st
      | .ok (i, r) =>
        let stop := if count = 0 then r.length else min (start + count) r.length
        let s := s.readerRaise o
        let s := if g = ownerAccess then s else s.setGrant g { s.grant g with opens := (s.grant g).opens + 1 }
        let s := (s.setReader i (ReadStream.opened o g start stop)).answer tag kindOpenRead .ok
          [⟨1, i⟩, ⟨6, r.length⟩, ⟨6, stop⟩]
        if start = stop then s.seekEnds i (some .complete) else s

/-- Execution of OPEN_READ. -/
def execOpenRead (tag o g start count : Nat) (s : State) : Out :=
  .next ((s.taken (.openRead tag o g start count)).openRead tag o g start count)

/-- STOP_READ (R132). -/
def State.stopRead (s : State) (tag i : Nat) : State :=
  if s.ctm.state = .failed then s.refuse tag kindStopRead .arrayFailed
  else if 15 < i then s.refuse tag kindStopRead .badArgument
  else if (s.reader i).state = .free then s.refuse tag kindStopRead .wrongState
  else (s.enterEnding i .stopped).answer tag kindStopRead .ok [⟨6, (s.reader i).delivered⟩]

/-- Execution of STOP_READ. -/
def execStopRead (tag i : Nat) (s : State) : Out := .next ((s.taken (.stopRead tag i)).stopRead tag i)

/-! ## Seeking (R125) -/

/-- The handle at a stream's next recipe position, from its segment in hand (R126). -/
def ReadStream.handleAt (r : ReadStream) : Option Nat := r.seg.bind fun g => g.handles[r.position - g.first]?

/-- The fingerprint that a location answer carries, when it carries one (R44). -/
def IdxAnswer.carriedFp : IdxAnswer → Option Fp
  | .found _ f _ _ => some f
  | .dataLost f => f
  | _ => Option.none

/-- A stream asks ORU for the next SEGMENT record (R125, R126). -/
def State.askSegment (s : State) (i : Nat) : State := s.modReader i fun r => { r with segRead := .wanted }

/-- Execution of SEEK_STEP (R125): one handle passed over, the next segment asked for, or the end of the seek. -/
def execSeekStep (i : Nat) (s : State) : Out :=
  let r := s.reader i
  .next (if r.state = .seeking ∧ r.segRead = .idle then
      match r.handleAt with
        | none => s.askSegment i
        | some h =>
          match (s.tables.locate h).carriedFp with
          | none => s.seekEnds i (some .dataLost)
          | some f =>
            if r.offset + fpLength f ≤ r.start then
              s.setReader i { r with offset := r.offset + fpLength f, position := r.position + 1 }
            else s.seekEnds i none
    else s)

/-! ## Issuing chunks (R127) -/

/-- The delivered range of a chunk at the next object offset (R127). -/
def ReadStream.range (r : ReadStream) (len : Nat) : Nat × Nat := (max r.offset r.start, min (r.offset + len) r.stop)

/-- A charge to a grant, or none when the remaining allowance is smaller (R127, step 4). Owner access and an unlimited
allowance are not charged. -/
def State.charge (s : State) (g count : Nat) : Option State :=
  if g = ownerAccess then some s
  else match (s.grant g).remaining with
    | none => some s
    | some left => if left < count then none else some (s.setGrant g { s.grant g with remaining := some (left - count) })

/-- A stream whose next recipe position has passed beyond its segment in hand asks for the next one (R126). -/
def ReadStream.nextSegment (r : ReadStream) : ReadStream :=
  if r.handleAt.isNone = true ∧ r.segRead = .idle then { r with segRead := .wanted } else r

/-- The chunk record added, its read sent, and the stream moved on (R127, steps 5 and 6). -/
def State.sendChunk (s : State) (i h : Nat) (f : Fp) : State :=
  let r := s.reader i
  let len := fpLength f
  let flight : Flight :=
    { handle := h, fp := f, position := r.position, base := r.offset, from_ := (r.range len).1, upto := (r.range len).2,
      state := .reading, bytes := [], sent := (r.range len).1, reread := false, discarded := false, buffer := none }
  let ended := decide (r.stop ≤ r.offset + len)
  let r := { r with
    flights := r.flights ++ [flight], position := r.position + 1, offset := r.offset + len,
    reason := if ended then some .complete else r.reason, endPoint := if ended then r.stop else r.endPoint }
  (s.setReader i r.nextSegment).onCtm fun m =>
    { m with chunkReqs := m.chunkReqs ++ [{ handle := h, fp := f, cls := .read, who := .stream i flight.position }] }

/-- Steps 2 to 6 of an issue (R127). -/
def State.issueAt (s : State) (i g h : Nat) : State :=
  let r := s.reader i
  match s.tables.locate h with
  | .found _ f _ _ =>
    let range := r.range (fpLength f)
    match s.charge g (range.2 - range.1) with
    | some s => s.sendChunk i h f
    | none =>
      (s.setReader i { r with reason := some .allowanceSpent, endPoint := max r.offset r.start }).readerSettle i
  | _ => (s.readerLost i r.offset).readerSettle i

/-- Whether a stream may issue a chunk (R127), but for its handle being in hand. -/
def ReadStream.mayIssue (r : ReadStream) : Bool :=
  decide (r.state = .running) && r.reason.isNone && decide (r.flights.length < 4) && decide (r.offset < r.stop) &&
    decide (r.segRead = .idle)

/-- Execution of CHUNK_ISSUE (R127). The stage stalls while one of the stream's reads waits at a full queue (R99). -/
def execChunkIssue (i : Nat) (s : State) : Out :=
  let r := s.reader i
  .next (match r.mayIssue && (s.stalledAt (.readStream i) .read).isNone, r.grant, r.handleAt with
    | true, some g, some h =>
      let s := if g = ownerAccess then s else s.compareGrant g
      if (s.reader i).state = .running then s.issueAt i g h else s
    | true, _, none => s.askSegment i
    | _, _, _ => s)

/-! ## Reports of chunk reads (R128) -/

/-- A chunk's record taken out of its stream's list, with its buffer given back. -/
def State.dropFlight (s : State) (i : Nat) (f : Flight) : State :=
  (s.modReader i fun r => { r with flights := r.flights.filter fun g => g.position ≠ f.position }).flightBuffersBack [f]

/-- A chunk's record changed. -/
def State.setFlight (s : State) (i : Nat) (f : Flight) : State :=
  s.modReader i fun r => { r with flights := r.flights.map fun g => if g.position = f.position then f else g }

/-- What a report of CTM does to a chunk in flight (R128, R130, R131). A chunk read that R87 answers NO_ENTRY has no row in R128's
table: the chunk is lost as with DATA_LOST (DESIGN CHOICE, log entry 86). -/
def State.flightReported (s : State) (i : Nat) (f : Flight) (rep : ReadReport) : State :=
  match rep.answer with
  | .reconstructing => if f.state = .reading then s.setFlight i { f with state := .reconstructing } else s
  | .bytes bs =>
    if f.discarded then (s.dropFlight i { f with buffer := some rep.job }).readerSettle i
    else (s.setFlight i { f with state := .ready, bytes := bs, buffer := some rep.job }).readerSettle i
  | .arrayFailed => ((s.dropFlight i f).enterEnding i .arrayFailed).readerSettle i
  | _ =>
    let s := s.dropFlight i f
    (if f.discarded then s else s.readerLost i f.sent).readerSettle i

/-- The recipe position that a report names. -/
def ReadWho.position : ReadWho → Option Nat
  | .chunk (.stream _ p) => some p
  | _ => none

/-- Execution of CHUNK_READ_REPORT (R128): the oldest report for a chunk of the stream. -/
def execChunkReadReport (i : Nat) (s : State) : Out :=
  .next (match s.reportFor (ReadWho.isChunkOf i) with
    | none => s
    | some rep =>
      let s := s.dropReport rep
      match (s.reader i).flights.find? fun f => some f.position = rep.who.position with
      | some f => s.flightReported i f rep
      | none => match rep.answer with
        | .bytes _ => s.bufferDone rep.job
        | _ => s)

/-! ## Sending (R129, R181) -/

/-- A message of a stream has been sent whole (R129): the offsets and counts rise, and the chunk leaves the list after its last
message, or at once when the stream is ENDING (R131). -/
def State.messageSent (s : State) (i past len : Nat) : State :=
  let s := s.modReader i fun r =>
    { r with
      sending := none, delivered := past, sent := r.sent + len,
      flights := match r.flights with
        | f :: fs => { f with sent := past } :: fs
        | [] => [] }
  let r := s.reader i
  let s := match r.grant with
    | some g => if g = ownerAccess then s else s.setGrant g { s.grant g with delivered := deliveredUp (s.grant g).delivered len }
    | none => s
  let s := match r.flights with
    | f :: _ => if f.upto ≤ f.sent ∨ r.state = ReadState.ending then s.dropFlight i f else s
    | [] => s
  s.readerSettle i

/-- Execution of DATA_MESSAGE_SENT (R129, R201). -/
def execDataMessageSent (s : State) : Out :=
  .next (match s.lnk.lane with
    | some (.data i off bs) =>
      (s.onLnk fun l => { l with lane := none, laneBytes := [] }).messageSent i (off + bs.length) bs.length
    | _ => s)

/-- An uncorrectable error in the read of a message's bytes (R181): the message is withdrawn, and the chunk is read again once
into the same buffer; a second error ends the stream with DATA_LOST at the first byte not yet sent. -/
def State.messageBad (s : State) (i : Nat) (f : Flight) : State :=
  let s := (s.modReader i fun r => { r with offered := none }).bufferError (!f.reread)
  if f.reread then ((s.dropFlight i f).readerLost i f.sent).readerSettle i
  else
    (s.setFlight i { f with state := .reading, bytes := [], reread := true }).onCtm fun m =>
      { m with chunkReqs := m.chunkReqs ++ [{ handle := f.handle, fp := f.fp, cls := .read, who := .stream i f.position }] }

/-- Execution of DATA_BYTES_READ (R181): LNK reads the offered message's bytes from the chunk's data buffer. -/
def execDataBytesRead (i : Nat) (bad : Bool) (s : State) : Out :=
  let r := s.reader i
  .next (match r.offered, r.flights with
    | some o, f :: _ =>
      if o.bytes.isSome then s
      else if bad then s.messageBad i f
      else s.setReader i
        { r with offered := some { o with bytes := some ((f.bytes.drop (o.offset - f.base)).take o.length) } }
    | _, _ => s)

end Sys2Proof.Machine
end

