-- ==== Sys2Proof/Machine/IntegrityOps.lean ====
section
/-!
DEFINITION. What IGU and CKR do whatever the command (chapters 7 and 10): the SCRUB notice, the scrub search and the evaluation
of a stripe (R138, R141 to R143), the end of a step, labels, slot addresses, and the copy of a slot onto an adopted member
(R149).
-/

namespace Sys2Proof.Machine

/-! ## The SCRUB notice (R146) -/

/-- The code of an outcome, in the order of R136. -/
def Finding.code : Finding → Nat
  | .clean => 0
  | .repaired _ => 1
  | .damaged => 2

/-- The unit of a finding as it is carried (log entry 10). -/
def Finding.unitField : Finding → Field
  | .repaired (some j) => ⟨1, j⟩
  | .repaired none => ⟨1, Config.parityUnit⟩
  | _ => ⟨1, Config.absentField 1⟩

/-- The last finding as it is carried: container, outcome and unit. -/
def findingFields : Option (Nat × Finding) → List Field
  | some (c, f) => [⟨4, c⟩, ⟨1, f.code⟩, f.unitField]
  | none => [⟨4, Config.absentField 4⟩, ⟨1, Config.absentField 1⟩, ⟨1, Config.absentField 1⟩]

/-- The scrub cursor as it is reported: 0 while the array is UNFORMED (R153). -/
def State.cursorShown (s : State) : Nat := if s.inUse then s.tables.scrubCursor else 0

/-- The pass count as it is reported: 0 while the array is UNFORMED (R153). -/
def State.passShown (s : State) : Nat := if s.inUse then s.tables.scrubPass else 0

/-- The SCRUB notice (R146). -/
def State.noticeScrub (s : State) : State :=
  s.notice slotScrub
    ([⟨4, s.igu.foundRepaired⟩, ⟨4, s.igu.foundDamaged⟩] ++ findingFields s.igu.lastFinding ++
      [⟨4, s.cursorShown⟩, ⟨4, s.passShown⟩, ⟨4, s.igu.lag⟩, ⟨4, s.igu.deferred⟩])

/-! ## The timer's search (R138) -/

/-- The first container at or above a number that can be scrubbed. -/
def State.nextScrubbable (s : State) (start : Nat) : Option Nat :=
  (s.tables.containers.find? fun e => start ≤ e.1 && s.scrubbable e.1).map fun e => e.1

/-- A wrap of the cursor: the pass count rises. -/
def State.passUp (s : State) : State := s.onTables fun t => t.setArea { t with scrubPass := tallyUp 70 t.scrubPass }

/-- The container found becomes the pending step and the cursor moves past it; a wrap raises the SCRUB notice. -/
def State.queueStep (s : State) (c : Nat) (wrapped : Bool) : State :=
  let step : ScrubStep :=
    { container := c, reading := false, deferred := false, started := false, units := Vector.replicate 4 .lost,
      reread := [], outcome := none }
  let atEnd := decide (s.containerCount ≤ c + 1)
  let s := s.onIgu fun g => { g with step := some step }
  let s := s.onTables fun t => t.setArea { t with scrubCursor := if atEnd then 0 else c + 1 }
  let s := if wrapped then s.passUp else s
  let s := if atEnd then s.passUp else s
  let s := if wrapped || atEnd then s.noticeScrub else s
  s.scrubTest

/-- The search of an expiry that finds no step pending (R138). -/
def State.scrubSearch (s : State) : State :=
  match s.nextScrubbable s.tables.scrubCursor with
  | some c => s.queueStep c false
  | none =>
    match s.nextScrubbable 0 with
    | some c => s.queueStep c true
    | none => s

/-! ## Evaluating a stripe (R140 to R143) -/

/-- The bytes of a unit in hand. -/
def UnitRead.got : UnitRead → Option (List Byte)
  | .bytes bs => some bs
  | _ => none

/-- The unit of a position. -/
def unitAt (us : Vector UnitRead 4) (p : Nat) : UnitRead := us[p]?.getD .lost

/-- The stripe of container `c` in hand: layout, container and units by position. -/
structure Stripe where
  layout : Layout
  container : Nat
  units : Vector UnitRead 4

/-- The position of data unit `j`. -/
def Stripe.holder (x : Stripe) (j : Nat) : Nat := dataMember x.layout.members x.container j

/-- The XOR of every unit but the one on a position, units that cannot be had as zeros (R72). -/
def Stripe.xorOthers (x : Stripe) (p : Nat) : List Byte :=
  xorAll unitSize (((List.range x.layout.members).filter fun q => q ≠ p).map fun q =>
    (unitAt x.units q).got.getD (List.replicate unitSize 0))

/-- The data area, with data unit `j` replaced by the given bytes; a unit that cannot be had stands as zeros. -/
def Stripe.areaWith (x : Stripe) (j : Nat) (bs : List Byte) : List Byte :=
  ((List.range x.layout.dataUnits).map fun k =>
    if k = j then bs else (unitAt x.units (x.holder k)).got.getD (List.replicate unitSize 0)).flatten

/-- The data area as read. -/
def Stripe.area (x : Stripe) : List Byte := x.areaWith x.layout.dataUnits []

/-- The positions whose units cannot be had. -/
def Stripe.missing (x : Stripe) : List Nat :=
  (List.range x.layout.members).filter fun p => (unitAt x.units p).got.isNone

/-- Whether the parity relation holds over every unit offset (R72). -/
def Stripe.parityHolds (x : Stripe) : Bool :=
  decide (x.xorOthers (parityMember x.layout.members x.container) =
    (unitAt x.units (parityMember x.layout.members x.container)).got.getD [])

/-- The first data unit whose reconstruction gives a good area CRC (R141). -/
def Stripe.pinpoint (x : Stripe) : Option Nat :=
  (List.range x.layout.dataUnits).find? fun j => areaGood x.layout (x.areaWith j (x.xorOthers (x.holder j)))

/-- The outcome of an evaluation: the finding, the repair write (position and bytes) and, when the checks of R142 are to be
made, the data area and the data units in it that could not be had. -/
structure Verdict where
  finding : Finding
  repair : Option (Nat × List Byte)
  checks : Option (List Byte × List Nat)

/-- The evaluation with every unit in hand (R141). -/
def Stripe.evaluateAll (x : Stripe) : Verdict :=
  let pm := parityMember x.layout.members x.container
  if areaGood x.layout x.area then
    if x.parityHolds then { finding := .clean, repair := none, checks := none }
    else { finding := .repaired none, repair := some (pm, x.xorOthers pm), checks := none }
  else match x.pinpoint with
    | some j =>
      { finding := .repaired (some j), repair := some (x.holder j, x.xorOthers (x.holder j)), checks := none }
    | none => { finding := .damaged, repair := none, checks := some (x.area, []) }

/-- The evaluation with one unit unavailable (R143). -/
def Stripe.evaluateOne (x : Stripe) (p : Nat) : Verdict :=
  let fix := x.xorOthers p
  let unit := unitOn x.layout.members x.container p
  let area := match unit with
    | some j => x.areaWith j fix
    | none => x.area
  let lost := decide (unitAt x.units p = .lost)
  if areaGood x.layout area then
    if lost then { finding := .clean, repair := none, checks := none }
    else { finding := .repaired unit, repair := some (p, fix), checks := none }
  else { finding := .damaged, repair := if lost then none else some (p, fix), checks := some (area, []) }

/-- The evaluation of a stripe by the number of its unavailable units (R141, R143). -/
def Stripe.evaluate (x : Stripe) : Verdict :=
  match x.missing with
  | [] => x.evaluateAll
  | [p] => x.evaluateOne p
  | ps => { finding := .damaged, repair := none,
            checks := some (x.area, ps.filterMap fun p => unitOn x.layout.members x.container p) }

/-! ## The chunk and record checks (R142, R143) -/

/-- Whether an entry's kind is one that its container kind allows (R74). -/
def kindAllowed : ContKind → Nat → Bool
  | .data, k => decide (k ≤ 1)
  | .recipe, k => decide (k ≤ 3)

/-- The length of the record that an entry names (R52): a SEGMENT's by its count field. -/
def recordSpan (area : List Byte) (e : DirEntry) : Nat :=
  match e.kind with
  | 0 => 12 + 4 * leValue ((area.drop (e.offset + 6)).take 2)
  | 1 => 28
  | 2 => 12
  | _ => 8

/-- The length of an entry's bytes. -/
def entrySpan (k : ContKind) (area : List Byte) (e : DirEntry) : Nat :=
  match k with
  | .data => fpLength e.fp
  | .recipe => recordSpan area e

/-- Whether an entry is usable (R142). -/
def entryUsable (l : Layout) (k : ContKind) (area : List Byte) (e : DirEntry) : Bool :=
  e.handle != noHandle && kindAllowed k e.kind && decide (e.offset + entrySpan k area e ≤ l.chunkSpace)

/-- Whether a range of the data area touches one of some data units. -/
def touchesUnits (off len : Nat) (js : List Nat) : Bool :=
  js.any fun j => decide (off < (j + 1) * unitSize) && decide (j * unitSize < off + len)

/-- The damage mark of a failed chunk, when the index still has it here (R142, step 3). -/
def State.markHere (s : State) (c : Nat) (e : DirEntry) : State :=
  match s.tables.locate e.handle with
  | .found _ f c' off =>
    if f = e.fp ∧ c' = c ∧ off = e.offset then
      (s.idxDamage e.handle e.fp).onIgu fun g => { g with chunksMarked := tallyUp 71 g.chunksMarked }
    else s
  | _ => s

/-- The check of one entry; `gone` lists the data units whose bytes could not be had. -/
def State.checkEntry (s : State) (c : Nat) (k : ContKind) (area : List Byte) (gone : List Nat) (e : DirEntry) : State :=
  if entryUsable s.layout k area e then
    let len := entrySpan k area e
    let bs := (area.drop e.offset).take len
    let blind := touchesUnits e.offset len gone
    match k with
    | .data => if blind = false ∧ matchesFp e.fp bs = true then s else s.markHere c e
    | .recipe =>
      if blind = false ∧ crcHolds bs = true then s
      else s.onIgu fun g => { g with recordsFailed := tallyUp 72 g.recordsFailed }
  else s

/-- The chunk and record checks of a container (R142), its directory taken as read. -/
def State.checkContainer (s : State) (c : Nat) (area : List Byte) (gone : List Nat) : State :=
  match s.cont c with
  | none => s
  | some r =>
    (parseEntries (area.drop s.layout.chunkSpace)).foldl (fun s e => s.checkEntry c r.kind area gone e) s

/-! ## Reads of whole units that come back (R140, R150) -/

/-- Whether every unit of a set has its read back. -/
def State.unitsBack (s : State) (us : Vector UnitRead 4) (job : Job) : Bool :=
  (List.range 4).all fun p =>
    unitAt us p ≠ .out || ((s.returned fun j => j = job).any fun r => r.position = p)

/-- One unit after its read has come back: its bytes, or unavailable. A first error of the read buffer has it read again
(R140). -/
def unitBack (rs : List Returned) (bad reread : List Nat) (p : Nat) : UnitRead → UnitRead
  | .out =>
    match (rs.find? fun r => r.position = p).bind fun r => r.result.bytes with
    | some bs => if bad.contains p then (if reread.contains p then .failed else .out) else .bytes bs
    | none => .failed
  | u => u

/-- The units of a set after their reads have come back. -/
def unitsAfter (us : Vector UnitRead 4) (rs : List Returned) (bad reread : List Nat) : Vector UnitRead 4 :=
  Vector.ofFn fun p : Fin 4 => unitBack rs bad reread p.val us[p]

/-- MEC's reports of errors in the read buffers of some positions acted on by the asker, who reads a unit again once (R140, R150,
R180). -/
def State.bufferErrors (s : State) (bad reread : List Nat) : State :=
  s.each bad fun s p => s.bufferError (!reread.contains p)

/-- The positions whose units are out. -/
def unitsOut (us : Vector UnitRead 4) : List Nat := (List.range 4).filter fun p => unitAt us p = .out

/-! ## The end of a scrub step (R144) -/

/-- The totals and findings of a step's outcome (R144, R146). -/
def Igu.counted (g : Igu) (c : Nat) : Finding → Igu
  | .clean => { g with cleanTotal := tallyUp 73 g.cleanTotal }
  | .repaired u =>
    { g with repairedTotal := tallyUp 74 g.repairedTotal, foundRepaired := tallyUp 75 g.foundRepaired,
             lastFinding := some (c, .repaired u) }
  | .damaged =>
    { g with damagedTotal := tallyUp 76 g.damagedTotal, foundDamaged := tallyUp 77 g.foundDamaged,
             lastFinding := some (c, .damaged) }

/-- The end of a scrub step (R144), its read buffers returned (R175). A container that goes FREE at step 1 takes no mark at step 2:
R86 has it lose the mark, and R144 does not name the case (DESIGN CHOICE, log entry 100). -/
def State.scrubEnd (s : State) (c : Nat) (f : Finding) : State :=
  let s := s.readLower c
  let s := s.modCont c fun r => { r with scarred := decide (f = .damaged) }
  let s := s.onIgu fun g => { g.counted c f with step := none }
  let s := if f = .clean then s else s.noticeScrub
  s.returnBuffers .scrub 5

/-- A step that an array failure discards (R145). -/
def State.scrubDiscard (s : State) (c : Nat) : State :=
  ((s.onIgu fun g => { g with step := none }).readLower c).returnBuffers .scrub 5

/-! ## Labels and slots (R184, R185) -/

/-- The label of a position, from the array record (R184). -/
def State.labelFor (s : State) (p : Nat) (incomplete : Bool) (adoption : Option Nat) : Label :=
  { number := (s.arr.map fun a => a.number).getD 0, layout := s.layout, position := p, reserved := s.reserved,
    containers := s.containerCount, buckets := s.tables.buckets, memory := s.mec.size.getD 0, incomplete := incomplete,
    adoption := adoption }

/-- A label write: a WRITE of reserved unit 0 under the WRITE class (R184). -/
def State.writeLabel (s : State) (p : Nat) (who : Requester) (j : Job) (l : Label) : State :=
  s.submit p (writeUnitOp .write 0 l.bytes who j)

/-- The first unit of a slot, its header unit (R185). -/
def slotBase (r : Nat) : Slot → Nat
  | .a => 1
  | .b => r + 1

/-- The other slot. -/
def Slot.other : Slot → Slot
  | .a => .b
  | .b => .a

/-- The number of body units of a body. -/
def bodyUnits (length : Nat) : Nat := (length + unitSize - 1) / unitSize

/-- The units of a slot with the map in force: the header and the body's. -/
def State.slotUnits (s : State) : Nat := 1 + bodyUnits ((s.mec.map.map bodyLength).getD 0)

/-! ## The copy of a slot onto an adopted member (R149, R189) -/

/-- The walk starts and ADOPT_MEMBER is answered OK (R149). -/
def State.walkStarts (s : State) : State :=
  let s := s.onCkr fun k => { k with copy := none }
  match s.igu.adoption with
  | none => s
  | some a =>
    let s := s.onIgu fun g => { g with adoption := some { a with walking := true, tag := none }, rebuildCursor := 0 }
    match a.tag with
    | some tag => s.answer tag kindAdoptMember .ok [⟨1, a.position⟩, ⟨1, a.bay⟩, ⟨6, a.seq.getD 0⟩]
    | none => s

/-- The next member from position `p` on that can supply a unit of the slot. -/
def State.copySource (s : State) (p target : Nat) : Option Nat :=
  s.positions.find? fun q => p ≤ q && q ≠ target && !s.lostPosition q

/-- A unit of the slot is read from the next member that can supply it, or written as zeros (R189). -/
def State.copyUnit (s : State) (c : SlotCopy) (start target : Nat) : State :=
  let u := slotBase s.reserved c.slot + c.unit
  match s.copySource start target with
  | some q =>
    (s.onCkr fun k => { k with copy := some { c with writing := false, source := some q } }).submit q
      (readUnitOp .rebuild u .copyRead)
  | none =>
    (s.onCkr fun k => { k with copy := some { c with writing := true, source := none } }).submit target
      (writeUnitOp .write u (List.replicate unitSize 0) .ckr .copyWrite)

/-- CKR begins the copy of the current slot (R149). -/
def State.startCopy (s : State) (target : Nat) : State :=
  match s.ckr.slot with
  | some sl => s.copyUnit { slot := sl, unit := 0, writing := false, source := none } 0 target
  | none => s.walkStarts

/-- A read of the copy has come back: its bytes are written, or the next member is read. -/
def State.copyReadBack (s : State) (c : SlotCopy) (target : Nat) (r : Returned) : State :=
  match r.result.bytes with
  | some bs =>
    (s.onCkr fun k => { k with copy := some { c with writing := true, source := none } }).submit target
      (writeUnitOp .write (slotBase s.reserved c.slot + c.unit) bs .ckr .copyWrite)
  | none => s.copyUnit c (r.position + 1) target

/-- A write of the copy has come back: the next unit is copied, or the copy is complete; an error fails the new member. -/
def State.copyWriteBack (s : State) (c : SlotCopy) (target : Nat) (r : Returned) : State :=
  if r.result.bytes.isSome then
    if c.unit + 1 < s.slotUnits then s.copyUnit { c with unit := c.unit + 1 } 0 target else s.walkStarts
  else if r.result = .error then s.failMember target .write
  else s

end Sys2Proof.Machine
end

