-- ==== Sys2Proof/Machine/Integrity.lean ====
section
/-!
DEFINITION. The commands of the integrity unit (chapter 7): the scrub timer and its steps, the adoption of a member, and the
rebuild walk.
-/

namespace Sys2Proof.Machine

/-! ## The scrub (R137 to R146) -/

/-- SET_SCRUB (R137). -/
def State.setScrub (s : State) (tag period : Nat) : State :=
  if s.ctm.state = .failed then s.refuse tag kindSetScrub .arrayFailed
  else
    let p := min 65535 period
    (s.onIgu fun g => { g with period := p, timer := p }).answer tag kindSetScrub .ok [⟨2, p⟩]

/-- Execution of SET_SCRUB. -/
def execSetScrub (tag period : Nat) (s : State) : Out := .next ((s.taken (.setScrub tag period)).setScrub tag period)

/-- Whether the scrub timer counts (R138). -/
def State.scrubCounts (s : State) : Bool :=
  decide (0 < s.igu.period) && decide (s.pwc.box = .run) && s.ctm.state.attached

/-- Execution of SCRUB_TIMER_EXPIRE (R138): the timer has reached 0. -/
def execScrubTimerExpire (s : State) : Out :=
  .next (if s.scrubCounts ∧ s.igu.timer = 0 then
      let s := s.onIgu fun g => { g with timer := g.period }
      if s.igu.step.isSome then s.onIgu fun g => { g with lag := tallyUp 78 g.lag } else s.scrubSearch
    else s)

/-- Execution of SCRUB_STEP_START (R139): the test of a waiting step. -/
def execScrubStepStart (s : State) : Out := .next s.scrubTest

/-- A step's units are in hand or unavailable (R140 to R144): its outcome, with the checks made and the repair write
submitted. -/
def State.scrubEvaluate (s : State) (st : ScrubStep) : State :=
  let v := ({ layout := s.layout, container := st.container, units := st.units } : Stripe).evaluate
  let s := match v.checks with
    | some (area, gone) => s.checkContainer st.container area gone
    | none => s
  match v.repair with
  | some (p, bs) =>
    (s.onIgu fun g => { g with step := some { st with outcome := some v.finding } }).submit p
      (writeOp .scrub st.container 0 bs .igu .scrubRepair)
  | none => s.scrubEnd st.container v.finding

/-- Execution of SCRUB_READS_DONE (R140): the step's reads have come back; `bad` lists the positions whose read buffer MEC
reported an uncorrectable error in. -/
def execScrubReadsDone (bad : List Nat) (s : State) : Out :=
  .next (match s.igu.step with
    | none => s
    | some st =>
      if st.started = false ∨ st.outcome.isSome = true ∨ s.unitsBack st.units .scrubRead = false then s
      else
        let rs := s.returned fun j => j = .scrubRead
        let s := (s.dropReturned fun j => j = .scrubRead).bufferErrors bad st.reread
        if s.ctm.state = .failed then s.scrubDiscard st.container
        else
          let units := unitsAfter st.units rs bad st.reread
          let again := unitsOut units
          let st := { st with units := units, reread := st.reread ++ again }
          let s := s.onIgu fun g => { g with step := some st }
          if again.isEmpty then s.scrubEvaluate st
          else s.submitAll (again.map fun p => (p, readOp .scrub st.container 0 unitSize .igu .scrubRead)))

/-- Execution of REPAIR_WRITE_DONE (R144, R145): in a FAILED array the step is discarded, whatever its write has come to. -/
def execRepairWriteDone (s : State) : Out :=
  .next (match s.igu.step, s.returns.find? fun r => r.op.job = .scrubRepair with
    | some st, some r =>
      let s := { s with returns := s.returns.erase r }
      match st.outcome with
      | none => s
      | some f =>
        if s.ctm.state = .failed then s.scrubDiscard st.container
        else (if r.result = .error then s.failMember r.position .write else s).scrubEnd st.container f
    | none, some r => { s with returns := s.returns.erase r }
    | _, none => s)

/-! ## Adoption (R147 to R149) -/

/-- The jobs of an adoption. -/
def isAdoptionJob : Job → Bool
  | .adoptLabel | .finalLabel | .copyRead | .copyWrite => true
  | _ => false

/-- Whether a bay is bound to a position or to no channel (R147). -/
def State.bayFor (s : State) (b p : Nat) : Bool :=
  match s.positionOfBay b with
  | some q => decide (q = p)
  | none => true

/-- An accepted adoption (R148, steps 1 and 2): the channel bound, the member OFF, and the label write submitted. -/
def State.adopt (s : State) (tag b p : Nat) : State :=
  let begun : Adoption :=
    { position := p, bay := b, tag := some tag, labelled := false, seq := none, walking := false, closing := false }
  let s := s.dropReturned isAdoptionJob
  let s := s.onIgu fun g => { g with adoption := some begun, rebuildCursor := 0 }
  let s := s.modChan p fun c =>
    { c with bay := some b, member := { state := .off, cause := none, errors := 0 }, units := none }
  let s := (s.memberChange p .off).writeLabel p .igu .adoptLabel (s.labelFor p true none)
  s

/-- ADOPT_MEMBER (R147). With no array record in force n is taken as 0, so that every position is answered BAD_ARGUMENT before the
states are looked at (R68 and R147 leave it open: DESIGN CHOICE, log entry 70). -/
def State.adoptMember (s : State) (tag b p : Nat) : State :=
  if s.ctm.state = .failed then s.refuse tag kindAdoptMember .arrayFailed
  else if 3 < b ∨ s.nMembers ≤ p then s.refuse tag kindAdoptMember .badArgument
  else if s.pwc.box ≠ .run then s.refuse tag kindAdoptMember .wrongState
  else if s.ctm.state ≠ .degraded then s.refuse tag kindAdoptMember .wrongState
  else if s.member p ≠ .failed ∧ s.member p ≠ .absent then s.refuse tag kindAdoptMember .wrongState
  else if (s.bay b).presence.level = false then s.refuse tag kindAdoptMember .badArgument
  else if s.bayFor b p = false then s.refuse tag kindAdoptMember .badArgument
  else s.adopt tag b p

/-- Execution of ADOPT_MEMBER. -/
def execAdoptMember (tag b p : Nat) (s : State) : Out := .next ((s.taken (.adoptMember tag b p)).adoptMember tag b p)

/-- The first label write of an adoption has completed (R148, step 3): the adoption sequence is recorded, the array is derived
again, the second label write follows, and CKR is asked for the copy. -/
def State.labelWritten (s : State) (a : Adoption) : State :=
  let seq := (s.arr.map fun r => r.seq).getD 0
  let s := s.onIgu fun g => { g with adoption := some { a with labelled := true, seq := some seq } }
  let s := (s.noticeMember a.position).memberReported
  let s := s.writeLabel a.position .igu .adoptLabelSecond (s.labelFor a.position true (some seq))
  s.startCopy a.position

/-- Execution of ADOPT_LABEL_WRITTEN (R148). -/
def execAdoptLabelWritten (s : State) : Out :=
  .next (match s.returns.find? fun r => r.op.job = .adoptLabel with
    | none => s
    | some r =>
      let s := { s with returns := s.returns.erase r }
      match s.igu.adoption with
      | none => s
      | some a =>
        if a.labelled then s
        else if r.result.bytes.isSome then s.labelWritten a
        else if r.result = .error then s.failMember a.position .write
        else s)

/-- Whether a returned operation addresses a unit of the slot being copied. -/
def State.copyAddresses (s : State) (c : SlotCopy) (r : Returned) : Bool :=
  decide (r.op.target = .reserved (slotBase s.reserved c.slot + c.unit))

/-- Execution of CHECKPOINT_COPY_DONE (R149): the operation of the copy that CKR has out has come back; with the last unit
written the walk starts. -/
def execCheckpointCopyDone (s : State) : Out :=
  .next (match s.ckr.copy, s.igu.adoption with
    | some c, some a =>
      match s.returns.find? fun r => r.op.job = (if c.writing then Job.copyWrite else Job.copyRead) with
      | none => s
      | some r =>
        let s := { s with returns := s.returns.erase r }
        if s.copyAddresses c r then
          if c.writing then s.copyWriteBack c a.position r else s.copyReadBack c a.position r
        else s
    | _, _ => s)

/-! ## The rebuild walk (R150 to R152) -/

/-- The cursor advances past container `c` (R150): the MEMBER notice at each multiple of 1,024, and the final label write when
every container has been covered (R151). That label has the flag clear and still carries the adoption sequence: R151 names the flag
alone, and R184 lets the sequence be absent (DESIGN CHOICE, log entry 75). -/
def State.cursorUp (s : State) (a : Adoption) (c : Nat) : State :=
  let s := s.onIgu fun g => { g with rebuildCursor := c + 1 }
  let s := if (c + 1) % 1024 = 0 then s.noticeMember a.position else s
  if s.containerCount ≤ c + 1 then
    (s.onIgu fun g => { g with adoption := some { a with closing := true } }).writeLabel a.position .igu .finalLabel
      (s.labelFor a.position false a.seq)
  else s

/-- The rebuild of the container at the cursor begins (R150, step 1). -/
def State.rebuildBegin (s : State) (c : Nat) : State :=
  let job : RebuildJob :=
    { container := c, started := false, writing := false, units := Vector.replicate 4 .lost, reread := [],
      abandoned := false }
  ((s.readRaise c).onIgu fun g => { g with rebuild := some job }).askBuffers .rebuild s.nMembers

/-- The walk takes the container at the cursor (R150). -/
def State.walkContainer (s : State) (a : Adoption) (c : Nat) : State :=
  let below (r : Container) : Bool := match r.seq, a.seq with
    | some x, some y => decide (x < y)
    | _, _ => false
  match s.cont c with
  | some r =>
    match r.state, below r with
    | .sealed, true | .draining, true => s.rebuildBegin c
    | .sealing, true => s
    | _, _ => s.cursorUp a c
  | none => s.cursorUp a c

/-- Execution of REBUILD_STEP (R150). -/
def execRebuildStep (s : State) : Out :=
  .next (match s.igu.adoption with
    | none => s
    | some a =>
      if a.walking ∧ a.closing = false ∧ s.igu.rebuild.isNone = true ∧ s.ctm.state.attached = true then
        s.walkContainer a s.igu.rebuildCursor
      else s)

/-- The rebuild of a container has ended, with its read counted down and its buffers returned (R150, step 4); the cursor moves
on when the walk still runs. -/
def State.rebuildEnd (s : State) (c : Nat) (walks : Bool) : State :=
  let s := ((s.onIgu fun g => { g with rebuild := none }).readLower c).returnBuffers .rebuild 4
  match s.igu.adoption with
  | some a => if walks then s.cursorUp a c else s
  | none => s

/-- A container that the rebuild found damaged (R150). -/
def State.rebuildDamaged (s : State) (c : Nat) (area : List Byte) (gone : List Nat) : State :=
  (((s.checkContainer c area gone).modCont c fun r => { r with scarred := true })).onIgu fun g =>
    { g with rebuildDamage := tallyUp 79 g.rebuildDamage }

/-- The source units are in hand or unavailable (R150, steps 2 and 3). -/
def State.rebuildEvaluate (s : State) (r : RebuildJob) (p : Nat) : State :=
  let x : Stripe := { layout := s.layout, container := r.container, units := r.units }
  match x.missing.filter fun q => q ≠ p with
  | [] =>
    let fix := x.xorOthers p
    let area := match unitOn x.layout.members x.container p with
      | some j => x.areaWith j fix
      | none => x.area
    let s := if areaGood s.layout area then s else s.rebuildDamaged r.container area []
    (s.onIgu fun g => { g with rebuild := some { r with writing := true } }).submit p
      (writeOp .rebuild r.container 0 fix .igu .rebuildWrite)
  | _ =>
    let gone := x.missing.filterMap fun q => unitOn x.layout.members x.container q
    (s.rebuildDamaged r.container x.area gone).rebuildEnd r.container true

/-- Execution of REBUILD_READS_DONE (R150): the source reads have come back; `bad` lists the positions whose read buffer MEC
reported an uncorrectable error in. -/
def execRebuildReadsDone (bad : List Nat) (s : State) : Out :=
  .next (match s.igu.rebuild with
    | none => s
    | some r =>
      if r.started = false ∨ r.writing = true ∨ s.unitsBack r.units .rebuildRead = false then s
      else
        let rs := s.returned fun j => j = .rebuildRead
        let s := (s.dropReturned fun j => j = .rebuildRead).bufferErrors bad r.reread
        match r.abandoned, s.igu.adoption with
        | false, some a =>
          if s.ctm.state = .failed then s.rebuildEnd r.container false
          else
            let units := unitsAfter r.units rs bad r.reread
            let again := unitsOut units
            let r := { r with units := units, reread := r.reread ++ again }
            let s := s.onIgu fun g => { g with rebuild := some r }
            if again.isEmpty then s.rebuildEvaluate r a.position
            else s.submitAll (again.map fun p => (p, readOp .rebuild r.container 0 unitSize .igu .rebuildRead))
        | _, _ => s.rebuildEnd r.container false)

/-- Execution of REBUILD_WRITE_DONE (R150, R152). -/
def execRebuildWriteDone (s : State) : Out :=
  .next (match s.igu.rebuild, s.returns.find? fun r => r.op.job = .rebuildWrite with
    | some j, some r =>
      let s := { s with returns := s.returns.erase r }
      if r.result.bytes.isSome ∧ j.abandoned = false then s.rebuildEnd j.container true
      else
        let s := if r.result = .error ∧ j.abandoned = false then s.failMember r.position .write else s
        s.rebuildEnd j.container false
    | none, some r => { s with returns := s.returns.erase r }
    | _, none => s)

/-- Execution of REBUILD_COMPLETE (R151): the final label write has come back. -/
def execRebuildComplete (s : State) : Out :=
  .next (match s.returns.find? fun r => r.op.job = .finalLabel with
    | none => s
    | some r =>
      let s := { s with returns := s.returns.erase r }
      match s.igu.adoption with
      | none => s
      | some a =>
        if r.result.bytes.isSome then
          (s.onIgu fun g => { g with adoption := none, rebuildCursor := s.containerCount }).memberChange a.position .active
        else if r.result = .error then s.failMember a.position .write
        else s)

end Sys2Proof.Machine
end

