-- ==== Sys2Proof/Machine/CkptOps.lean ====
section
/-!
DEFINITION. Checkpoints (R188, R189) whatever asks for them, and what follows when a forming or an attach ends (R186, R194).
-/

namespace Sys2Proof.Machine

/-! ## The holds and the quiet (R24, R188) -/

/-- The body units of a checkpoint with the map in force. -/
def State.pieces (s : State) : Nat := bodyUnits ((s.mec.map.map bodyLength).getD 0)

/-- A checkpoint begun for a purpose, holding nothing yet: it goes to the other slot with the next sequence (R189), and a forming's
to slot A with sequence 1 (R186). -/
def State.newCkpt (s : State) (why : CkptWhy) (phase : CkptPhase) : Ckpt :=
  { why := why, phase := phase, slot := if why = .forming then .a else (s.ckr.slot.map Slot.other).getD .a,
    seq := if why = .forming then 1 else s.ckr.seq + 1, q := 0, members := [], piece := 0, crc := crcStart, out := [],
    retaken := false, retake := false, headersOut := [], headersWritten := 0, released := false }

/-- A checkpoint that begins with the holds: every OPEN or DRAINING stream is held (R24). -/
def State.startCheckpoint (s : State) (why : CkptWhy) : State :=
  let c := s.newCkpt why .holding
  let s := s.onCkr fun k => { k with op := .checkpoint, ckpt := some c }
  s.each (List.range 8) fun s i => s.modStream i fun t => { t with held := t.active }

/-- Whether every held stream is quiet (R24). -/
def State.heldQuiet (s : State) : Bool := (List.range 8).all fun i => !(s.stream i).held || s.streamQuiet i

/-- The partial recipe buffer of a quiet stream written out as a SEGMENT (R18, R24, R188). -/
def State.writePartial (s : State) (i : Nat) : State :=
  let t := s.stream i
  if t.held ∧ t.active = true ∧ t.recipe ≠ [] ∧ t.writingOut = false then
    if 65536 ≤ t.segments then s.streamFault i .indexFull
    else
      let s := s.modStream i fun t => { t with writingOut := true }
      if s.waitsFor .recipe then (s.joinsWait .recipe).wait (.record (.segment i))
      else if s.streamSealAsked then s.wait (.record (.segment i))
      else s.tryRecord (.segment i)
  else s

/-- Release walks and relocation copies paused (R63, R188): a segment that is being read is still to be lowered. -/
def State.pauseWalks (s : State) : State :=
  if s.oru.paused then s
  else (s.onOru fun u => { u with paused := true }).walkFinishes

/-- Whether a chunk record has a placement that is still to be made or copied. -/
def ChunkRec.placing (needed : Bool) (r : ChunkRec) : Bool :=
  match r.work with
  | .place | .insert .. | .copy .. => true
  | .placeWait => !needed
  | _ => false

/-- Whether the relocation walk has stopped after the step in hand (R188). -/
def Reloc.paused (r : Reloc) (needed : Bool) : Bool :=
  match r.stage with
  | .directory | .scan | .ending => true
  | .placeWait _ => needed
  | _ => false

/-- Whether a record placement is a stream's, which is made before the containers are sealed (R24): a SEGMENT or SEAL record, or
the RELEASE record of an ABORTING stream's object. -/
def State.ofAnyStream (s : State) : RecordReq → Bool
  | .segment _ => true
  | .closing _ => true
  | .release o => (s.abortingStreamOf o).isSome
  | .albums .. => false

/-- Whether a waiting placement is a stream's record. -/
def State.streamRecord (s : State) : Waiter → Bool
  | .record r => s.ofAnyStream r
  | _ => false

/-- Whether all that precedes the checkpoint's forced seal has come about (R24, R188): the held streams quiet with their partial
buffers written out, the walks and the relocation stopped, the hold list empty, and the placements of SEALING and ABORTING
streams made, except those that wait on the checkpoint-needed condition. -/
def State.readyToSealCkpt (s : State) : Bool :=
  let needed := s.ctm.checkpointNeeded
  s.heldQuiet && s.oru.paused && !s.oru.finishing && s.tables.holds.isEmpty &&
    ((List.range 8).all fun i =>
      let t := s.stream i
      t.queue.all (fun r => !r.placing needed) &&
        (!(t.held && t.active) || t.recipe.isEmpty || (t.writingOut && needed))) &&
    !(s.ctm.recordReqs.any s.ofAnyStream) && (needed || !(s.ctm.waiting.any s.streamRecord)) &&
    (s.ctm.reloc.all fun r => r.paused needed)

/-- The forced seal of a checkpoint asked of CTM (R188, step 3). -/
def State.askCkptSeal (s : State) (c : Ckpt) : State :=
  (s.onCkr fun k => { k with ckpt := some { c with phase := .sealing } }).onCtm fun m =>
    { m with sealReqs := m.sealReqs ++ [.checkpoint] }

/-- Whether a forced seal has been answered to its requester (R81). -/
def State.sealDone (s : State) (b : SealBy) : Bool :=
  !(s.ctm.sealReqs.contains b) && !(s.ctm.sealJobs.any fun j => j.1 = b)

/-! ## The copy (R189) -/

/-- The bytes of a piece of the body as it is taken from the memory; a word that is still bad is copied as read (R189). -/
def State.pieceBytes (s : State) (piece : Nat) : List Byte :=
  let total := (s.mec.map.map bodyLength).getD 0
  (List.range (min unitSize (total - piece * unitSize))).map fun k => s.readByte (tablesBase + piece * unitSize + k)

/-- A piece taken and written to every member of the copy. -/
def State.writePiece (s : State) (c : Ckpt) : State :=
  let bs := s.pieceBytes c.piece
  let c := { c with crc := crcRun c.crc bs, out := c.members }
  let s := s.onCkr fun k => { k with ckpt := some c }
  s.submitAll (c.members.map fun p =>
    (p, writeUnitOp .write (slotBase s.reserved c.slot + 1 + c.piece) (padTo unitSize bs) .ckr .ckptBody))

/-- Whether a position is one that a copy writes to (R189). -/
def State.ckptMember (s : State) (p : Nat) : Bool := !s.lostPosition p

/-- The copy begins (R188, step 4): Q and the members are fixed, and the first piece is written. -/
def State.startCopying (s : State) (c : Ckpt) : State :=
  let q := ((s.arr.map fun a => a.seq).getD 1) - 1
  let s := s.onCtm fun m => { m with noFree := true }
  s.writePiece { c with
    phase := .copying, q := q, members := s.positions.filter fun p => s.ckptMember p, piece := 0, crc := crcStart }

/-- The number that a header carries for the head of an empty list (log entry 9). -/
def listHead (l : List Nat) : Nat := l.headD noHandle

/-- The header of the slot being written (R185). -/
def State.headerFor (s : State) (c : Ckpt) : SlotHeader :=
  let t := s.tables
  { number := (s.arr.map fun a => a.number).getD 0, seq := c.seq, q := c.q, buckets := t.buckets,
    containers := s.containerCount, pool := (s.mec.map.map fun m => m.pool).getD 0,
    fence := (s.arr.map fun a => a.fence).getD 0, cursor := t.scrubCursor, pass := t.scrubPass,
    freeHead := listHead t.freeList, freeLength := t.freeList.length, quarantineHead := listHead t.quarantine,
    quarantineLength := t.quarantine.length, bodyLength := (s.mec.map.map bodyLength).getD 0,
    bodyCrc := crcFinish c.crc }

/-- The header written to a member that has all its body units (R189). -/
def State.writeHeader (s : State) (c : Ckpt) (p : Nat) : State :=
  (s.onCkr fun k => { k with ckpt := some { c with headersOut := c.headersOut ++ [p] } }).submit p
    (writeUnitOp .write (slotBase s.reserved c.slot) (s.headerFor c).bytes .ckr .ckptHeader)

/-- Whether the piece being written is the last one. -/
def State.lastPiece (s : State) (c : Ckpt) : Bool := decide (s.pieces ≤ c.piece + 1)

/-- A body unit write of the piece has come back on a member. -/
def State.pieceBack (s : State) (c : Ckpt) (p : Nat) (ok : Bool) : State :=
  let c := { c with out := c.out.filter fun q => q ≠ p,
                    members := if ok then c.members else c.members.filter fun q => q ≠ p }
  let s := s.onCkr fun k => { k with ckpt := some c }
  if s.lastPiece c ∧ c.retake = false then if ok then s.writeHeader c p else s
  else if c.out.isEmpty then
    if c.retake then s.writePiece { c with piece := 0, crc := crcStart, retaken := true, retake := false }
    else s.writePiece { c with piece := c.piece + 1 }
  else s

/-- Whether every header write has come back, the body being written, or given up for want of a member to write it to (log entry
81). -/
def State.headersBack (s : State) (c : Ckpt) : Bool :=
  decide (c.phase = .copying) && c.out.isEmpty && (c.members.isEmpty || (s.lastPiece c && !c.retake)) &&
    c.headersOut.all fun p => s.returns.any fun r => r.op.job = .ckptHeader && r.position = p

/-- The header writes that have come back good. -/
def State.headersGood (s : State) : Nat :=
  ((s.returned fun j => j = .ckptHeader).filter fun r => r.result.bytes.isSome).length

/-! ## The end of a forming or an attach (R186, R194) -/

/-- What follows when the array is formed or attached, whichever it was: the marker is valid (R178), the bay lamps are driven
(R113), MIRROR2 lowers a chunking setting of 14 (R78), the scrub timer runs from P (R136), and IGU's scrub figures and the
index tallies stand at 0 (R29, R136). -/
def State.arrayUp (s : State) (st : ArrayState) : State :=
  let s := (s.onCtm fun m => { m with state := st }).noticeArray .state
  let marker : Option Marker := match s.arr, s.mec.map with
    | some a, some m => some { number := a.number, buckets := m.buckets, containers := m.containers, pool := m.pool }
    | _, _ => none
  let s := s.onMec fun m => { m with marker := marker }
  let s := s.onPwc fun w => { w with bayLampsDriven := true }
  let s := { s with ing := { s.ing with k := min s.ing.k s.maxOrder } }
  let s := { s with idx := { s.idx with collisions := 0, leaked := 0, stray := 0 } }
  s.onIgu fun g =>
    { g with timer := g.period, step := none, lag := 0, deferred := 0, foundRepaired := 0, foundDamaged := 0,
             lastFinding := none }

/-- Forming ends (R186). -/
def State.formEnd (s : State) : State :=
  match s.ckr.form with
  | none => s
  | some f =>
    let s := s.onCkr fun k => { k with op := .none, form := none }
    let s := s.arrayUp .normal
    s.answer f.tag kindFormArray .ok
      [⟨4, (s.arr.map fun a => a.number).getD 0⟩, ⟨4, s.reserved⟩, ⟨4, s.containerCount⟩,
       ⟨4, (s.mec.map.map fun m => m.pool).getD 0⟩]

/-- The replay figures as ATTACH_ARRAY answers them (R194). The counted answers are five counts: CONFLICT, LOST of creates and raises
together, PINNED, NO_ENTRY, and the records passed over for their CRC; neither R194 nor R203 gives their number or order (DESIGN
CHOICE, log entry 12). -/
def Figures.fields (f : Figures) : List Field :=
  [⟨4, f.scanned⟩, ⟨4, f.accepted⟩, ⟨4, f.applied⟩, ⟨4, f.created⟩, ⟨4, f.sealed⟩, ⟨4, f.released⟩, ⟨4, f.conflicts⟩,
   ⟨4, f.lost⟩, ⟨4, f.pinned⟩, ⟨4, f.noEntries⟩, ⟨4, f.badRecords⟩]

/-- The attach ends (R194, R195): the array takes the state derived before its closing checkpoint (R68; log entry 19), the replay
figures are recorded, and RELEASE records that wait are placed. -/
def State.attachEnd (s : State) : State :=
  match s.ckr.attach with
  | none => s
  | some a =>
    let s := s.onCkr fun k => { k with op := .none, attach := none, figures := a.figures }
    let s := s.arrayUp a.derived
    let s := s.answer a.tag kindAttachArray .ok ([⟨6, s.ckr.seq⟩, ⟨6, s.ckr.q⟩] ++ a.figures.fields)
    s.retryWaiting

/-! ## The end of a checkpoint (R188, R189) -/

/-- The holds and the pauses lifted (R188, step 6). -/
def State.resume (s : State) : State :=
  let s := s.each (List.range 8) fun s i => s.modStream i fun t => { t with held := false }
  (s.onOru fun u => { u with paused := false, finishing := false }).onCtm fun m => { m with noOpen := false, noFree := false }

/-- A checkpoint that has reached a member (R189): its slot is current, the quarantine is released if it is not yet, the held
work resumes, and whoever asked is told. -/
def State.ckptSucceeds (s : State) (c : Ckpt) : State :=
  let s := if c.released then s else s.releaseQuarantine
  let s := s.onCkr fun k => { k with slot := some c.slot, seq := c.seq, q := c.q, op := .none, ckpt := none }
  let s := s.resume
  match c.why with
  | .request tag => s.answerCheckpoint tag c
  | .sleepEntry => s.onPwc fun w => { w with entryCheckpoint := true }
  | .forming => s.formEnd
  | .closing => s.attachEnd

/-- A checkpoint that has reached no member: a closing one fails the attach (R194), a forming one the forming; the held work
resumes and the current slot is unchanged. R189 does not say what is answered when the array is not FAILED and yet no header has
reached a member: CHECKPOINT is answered ARRAY_FAILED. R188 ends the holding back of new containers and of going FREE at the
quarantine's release, which does not come then: both end here, and the changes held back are made at the next release (DESIGN CHOICE,
log entry 81). -/
def State.ckptFails (s : State) (c : Ckpt) : State :=
  let s := (s.onCkr fun k => { k with op := .none, ckpt := none }).resume
  match c.why with
  | .request tag => s.refuse tag kindCheckpoint .arrayFailed
  | .sleepEntry => s
  | .forming => s.formFail 255
  | .closing => s.attachFail

/-- The header writes have come back (R189). -/
def State.headersDone (s : State) (c : Ckpt) : State :=
  let rs := s.returned fun j => j = .ckptHeader
  let good := s.headersGood
  let s := (s.dropReturned fun j => j = .ckptHeader).failWriters rs
  match s.ckr.ckpt with
  | none => s
  | some _ => if good = 0 then s.ckptFails c else s.ckptSucceeds { c with headersWritten := good }

end Sys2Proof.Machine
end

