-- ==== Sys2Proof/Machine/Power.lean ====
section
/-!
DEFINITION. The commands of the power and wake controller (chapter 8): sleep entry step by step, time and the alarm, the LAN
filter, the button, the settings, and the lamp outputs (R113, R114).
-/

namespace Sys2Proof.Machine

/-! ## Sleep entry (R155 to R160) -/

/-- Whether every ingest stream and every read stream is FREE (R155). -/
def State.streamsFree (s : State) : Bool :=
  ((List.range 8).all fun i => (s.stream i).state = .free) && (List.range 16).all fun i => (s.reader i).state = .free

/-- Whether a rebuild is running, from an accepted ADOPT_MEMBER until its walk completes or is abandoned (R147), or a relocation
is in progress. -/
def State.rearranging (s : State) : Bool := s.igu.adoption.isSome || s.ctm.reloc.isSome

/-- An accepted SLEEP (R155, R156): step 1 is applied, and step 2 begins. -/
def State.enterSleepEntry (s : State) (tag : Nat) : State :=
  let s := s.onPwc fun w =>
    { w with box := .sleepEntry, entryStep := some 2, sleepTag := some tag, entryCheckpoint := false, cause := none,
             laterCauses := 0, lateCause := none }
  s.walkFinishes.scrubWithdraw

/-- SLEEP (R155). -/
def State.sleep (s : State) (tag : Nat) : State :=
  if s.ctm.state = .failed then s.refuse tag kindSleep .arrayFailed
  else if s.pwc.box ≠ .run then s.refuse tag kindSleep .wrongState
  else if s.mec.state ≠ .ready then s.refuse tag kindSleep .wrongState
  else if s.ckr.op ≠ .none ∨ s.ctm.state = .attaching then s.refuse tag kindSleep .busy
  else if s.streamsFree = false then s.refuse tag kindSleep .wrongState
  else if s.rearranging then s.refuse tag kindSleep .wrongState
  else s.enterSleepEntry tag

/-- Execution of SLEEP. -/
def execSleep (tag : Nat) (s : State) : Out := .next ((s.taken (.sleep tag)).sleep tag)

/-- Whether the box is in SLEEP_ENTRY at a step. -/
def State.atStep (s : State) (n : Nat) : Bool := decide (s.pwc.box = .sleepEntry) && decide (s.pwc.entryStep = some n)

/-- Whether the drive work of step 2 has drained (R156). -/
def State.entryDrained (s : State) : Bool :=
  (s.igu.step.all fun st => !st.reading) && decide (s.oru.walkRead = .idle) && !s.oru.finishing &&
    (List.range 4).all fun p => (s.chan p).quiet

/-- Step 3 begins (R157): a forced seal of both open containers; with no array, steps 3 and 4 have nothing to do. -/
def State.beginStep3 (s : State) : State :=
  if s.ctm.state.attached then
    (s.onPwc fun w => { w with entryStep := some 3 }).onCtm fun m => { m with sealReqs := m.sealReqs ++ [.sleepEntry] }
  else (s.onPwc fun w => { w with entryCheckpoint := true }).beginStep5

/-- Execution of ENTRY_DRAIN_DONE (R156). -/
def execEntryDrainDone (s : State) : Out :=
  .next (if s.atStep 2 ∧ s.entryDrained = true then s.stepDone State.beginStep3 else s)

/-- Step 4 begins (R157): CKR is asked for a checkpoint. -/
def State.beginStep4 (s : State) : State :=
  (s.onPwc fun w => { w with entryStep := some 4, entryCheckpoint := false }).startCheckpoint .sleepEntry

/-- Execution of ENTRY_SEAL_DONE (R157). -/
def execEntrySealDone (s : State) : Out :=
  .next (if s.atStep 3 ∧ s.sealDone .sleepEntry = true then s.stepDone State.beginStep4 else s)

/-- Execution of ENTRY_CHECKPOINT_DONE (R157): CKR has reported the checkpoint ended. -/
def execEntryCheckpointDone (s : State) : Out :=
  .next (if s.atStep 4 ∧ s.ckr.ckpt = none then s.stepDone State.beginStep5 else s)

/-- Execution of GRACE_EXPIRE (R159): step 7 asks MEC to enter self-refresh. -/
def execGraceExpire (s : State) : Out :=
  .next (if s.atStep 6 ∧ s.pwc.graceTimer.isSome = true then
      (s.onPwc fun w => { w with entryStep := some 7, graceTimer := none }).onMec fun m => { m with entryAsked := true }
    else s)

/-- LNK is told that the host is unpowered (R200). -/
def Lnk.unpowered (l : Lnk) : Lnk :=
  { l with hostPowered := false, lane := none, laneBytes := [], entries := [], replyQueue := [], hold := false,
           receiver := .hunting, gathered := [], lastSync := false, header := none }

/-- A tag that no frame carries, the tag of a request whose entry has been freed (DESIGN CHOICE, log entry 16). -/
def deadTag : Nat := 65536

/-- A request that still waits at its owner, with the tag of an entry that is freed forgotten: its late answer is dropped,
whatever request takes the tag next (R200). -/
def Waiter.forget : Waiter → Waiter
  | .record (.albums _ o al) => .record (.albums deadTag o al)
  | w => w

/-- A record placement with the tag of its freed entry forgotten (R200). -/
def RecordReq.forget : RecordReq → RecordReq
  | .albums _ o al => .albums deadTag o al
  | r => r

/-- The tags of the freed entries forgotten by the owners whose work goes on through a sleep: pending releases (R63) and album
sets whose record waits (R55). Every other request that is answered when its work completes keeps SLEEP from being accepted
(R155, R200). -/
def State.forgetTags (s : State) : State :=
  (s.onOru fun u => { u with marks := u.marks.map fun e => (e.1, deadTag) }).onCtm fun m =>
    { m with waiting := m.waiting.map Waiter.forget, recordReqs := m.recordReqs.map RecordReq.forget }

/-- The rest of step 7 (R159): HOST_POWER falls, the box enters SLEEP and the LAN filter becomes active; a cause that came
during the step then starts a wake (R160). -/
def State.goDark (s : State) : State :=
  let late := s.pwc.lateCause
  let s := s.onPwc fun w =>
    { w with hostPower := false, box := .asleep, entryStep := none, sleeps := tallyUp 41 w.sleeps, filterActive := true,
             lateCause := none }
  let s := (s.onLnk Lnk.unpowered).forgetTags
  match late with
  | some k => s.wakeStart k
  | none => s

/-- Execution of SELF_REFRESH_ENTERED (R177, R159): MEC issues what it owes, enters self-refresh and reports it. -/
def execSelfRefreshEntered (s : State) : Out :=
  .next (if s.mec.entryAsked ∧ (s.mec.state = .ready ∨ s.mec.state = .selfRefresh) then
      let s := s.onMec fun m =>
        { m with state := .selfRefresh, refreshRunning := false, owed := 0, entryAsked := false }
      if s.atStep 7 then s.goDark else s
    else s)

/-- Execution of SELF_REFRESH_EXITED (R177, R161): MEC leaves self-refresh with nothing owed, or is READY already, and PWC
powers the host. -/
def execSelfRefreshExited (s : State) : Out :=
  .next (if s.mec.exitAsked then
      let s := s.onMec fun m =>
        if m.state = .selfRefresh then { m with state := .ready, refreshRunning := true, owed := 0, exitAsked := false }
        else { m with exitAsked := false }
      if s.pwc.box = .waking then
        (s.onPwc fun w => { w with hostPower := true }).onLnk fun l => { l with hostPowered := true }
      else s
    else s)

/-! ## Time and the alarm (R167) -/

/-- The alarm at a time fires (R167): it becomes off, and raises the ALARM notice or acts as a wake cause, by the box state. -/
def State.alarmRings (s : State) (t : Time) : State :=
  let noticed := decide (s.pwc.box = .run) || decide (s.pwc.box = .waking)
  let s := s.onPwc fun w => { w with alarm := none }
  let s := if noticed then s.notice slotAlarm [⟨4, t.toNat⟩, ⟨4, s.pwc.time.toNat⟩] else s
  s.wakeCause (.alarm t)

/-- The comparison of the alarm with the counter (R167). -/
def State.compareAlarm (s : State) : State :=
  match s.pwc.alarm with
  | some t => if t ≤ s.pwc.time then s.alarmRings t else s
  | none => s

/-- Execution of ALARM_FIRE (R167). -/
def execAlarmFire (s : State) : Out := .next s.compareAlarm

/-- The scrub timer's count of one second (R138). -/
def State.scrubCountdown (s : State) : State :=
  if s.scrubCounts then s.onIgu fun g => { g with timer := g.timer - 1 } else s

/-- Execution of TIME_TICK (R167, R121, R138): the counter advances by one second, grant expiry and the alarm are compared, and
the scrub timer counts. -/
def execTimeTick (s : State) : Out :=
  .next (((s.onPwc fun w => { w with time := w.time + 1 }).compareGrants).compareAlarm).scrubCountdown

/-- SET_TIME (R167). -/
def State.setTime (s : State) (tag : Nat) (t : Time) : State :=
  if s.ctm.state = .failed then s.refuse tag kindSetTime .arrayFailed
  else (((s.onPwc fun w => { w with time := t }).compareGrants).compareAlarm).answer tag kindSetTime .ok [⟨4, t.toNat⟩]

/-- Execution of SET_TIME. -/
def execSetTime (tag : Nat) (t : Time) (s : State) : Out := .next ((s.taken (.setTime tag t)).setTime tag t)

/-- SET_ALARM (R167). -/
def State.setAlarm (s : State) (tag off : Nat) (t : Time) : State :=
  if s.ctm.state = .failed then s.refuse tag kindSetAlarm .arrayFailed
  else if settingOn off then (s.onPwc fun w => { w with alarm := none }).answer tag kindSetAlarm .ok []
  else if t ≤ s.pwc.time then s.refuse tag kindSetAlarm .expired
  else (s.onPwc fun w => { w with alarm := some t }).answer tag kindSetAlarm .ok []

/-- Execution of SET_ALARM. -/
def execSetAlarm (tag off : Nat) (t : Time) (s : State) : Out :=
  .next ((s.taken (.setAlarm tag off t)).setAlarm tag off t)

/-! ## The power policy (R166) -/

/-- The values that a SET_POWER_POLICY puts in force, but for S (R166). A running idle timer starts again with its new time,
and a new time of 0 stops it. A timer that is idle stays so until its channel's next report of the start of idleness, also where
the old time was 0 and the channel is idle already (R165 and R166 do not say: DESIGN CHOICE, log entry 63). -/
def Pwc.policy (w : Pwc) (idles : Vector Nat 4) (grace : Nat) : Pwc :=
  { w with idleTimes := idles, grace := grace,
           idleTimers := Vector.ofFn fun p : Fin 4 => w.idleTimers[p] && decide (0 < idles[p]) }

/-- A spin-up limit asked for (R166): a higher one is in force at once, a lower one when the members in SPINNING_UP allow it. -/
def Pwc.askLimit (w : Pwc) (v : Nat) : Pwc := { w with limitAsked := v, limit := if w.limit < v then v else w.limit }

/-- SET_POWER_POLICY (R166), answered with the values in force, S in force among them. -/
def State.setPowerPolicy (s : State) (tag i0 i1 i2 i3 limit grace : Nat) : State :=
  if s.ctm.state = .failed then s.refuse tag kindSetPowerPolicy .arrayFailed
  else
    let idles : Vector Nat 4 := #v[min 255 i0, min 255 i1, min 255 i2, min 255 i3]
    let v := clamp 1 4 limit
    let g := clamp 1 255 grace
    let s := (s.onPwc fun w => (w.policy idles g).askLimit v).spinChanged
    s.answer tag kindSetPowerPolicy .ok
      [⟨2, min 255 i0⟩, ⟨2, min 255 i1⟩, ⟨2, min 255 i2⟩, ⟨2, min 255 i3⟩, ⟨1, s.pwc.limit⟩, ⟨2, g⟩]

/-- Execution of SET_POWER_POLICY. -/
def execSetPowerPolicy (tag i0 i1 i2 i3 limit grace : Nat) (s : State) : Out :=
  .next ((s.taken (.setPowerPolicy tag i0 i1 i2 i3 limit grace)).setPowerPolicy tag i0 i1 i2 i3 limit grace)

/-! ## The LAN filter (R168, R169) -/

/-- SET_STATION (R168). -/
def State.setStation (s : State) (tag : Nat) (address : List Byte) (broadcast : Nat) : State :=
  if s.ctm.state = .failed then s.refuse tag kindSetStation .arrayFailed
  else (s.onPwc fun w => { w with station := padTo 6 address, broadcast := settingOn broadcast }).answer tag
    kindSetStation .ok []

/-- Execution of SET_STATION. -/
def execSetStation (tag : Nat) (address : List Byte) (broadcast : Nat) (s : State) : Out :=
  .next ((s.taken (.setStation tag address broadcast)).setStation tag address broadcast)

/-- The pattern that a SET_WAKE_PATTERN installs, clamped (R168). -/
def WakePattern.put (enabled offset length : Nat) (bytes : List Byte) (mask : BitVec 16) (interval : Nat) : WakePattern :=
  { enabled := settingOn enabled, offset := min 127 offset, length := clamp 1 16 length, bytes := padTo 16 bytes,
    mask := mask, interval := min 255 interval, lastWake := none }

/-- A pattern's settings as a reply carries them (R203). -/
def WakePattern.fields (p : WakePattern) (number : Nat) : List Field :=
  [⟨1, number⟩, ⟨1, flag p.enabled⟩, ⟨1, p.offset⟩, ⟨1, p.length⟩, ⟨16, leValue p.bytes⟩, ⟨2, p.mask.toNat⟩,
   ⟨2, p.interval⟩]

/-- SET_WAKE_PATTERN (R168). -/
def State.setWakePattern (s : State) (tag number enabled offset length : Nat) (bytes : List Byte) (mask : BitVec 16)
    (interval : Nat) : State :=
  if s.ctm.state = .failed then s.refuse tag kindSetWakePattern .arrayFailed
  else if 7 < number then s.refuse tag kindSetWakePattern .badArgument
  else
    let p := WakePattern.put enabled offset length bytes mask interval
    (s.onPwc fun w => { w with patterns := w.patterns.setIfInBounds number p }).answer tag kindSetWakePattern .ok
      (p.fields number)

/-- Execution of SET_WAKE_PATTERN. -/
def execSetWakePattern (tag number enabled offset length : Nat) (bytes : List Byte) (mask : BitVec 16)
    (interval : Nat) (s : State) : Out :=
  .next ((s.taken (.setWakePattern tag number enabled offset length bytes mask interval)).setWakePattern tag number enabled
    offset length bytes mask interval)

/-- Whether a frame is considered (R169): its length, its frame check and its destination address. -/
def Pwc.considers (w : Pwc) (frame : List Byte) : Bool :=
  decide (64 ≤ frame.length ∧ frame.length ≤ 1522) && crcHolds frame &&
    (decide (frame.take 6 = w.station) || (w.broadcast && decide (frame.take 6 = List.replicate 6 0xFF)))

/-- Whether a pattern matches a considered frame, given less its frame check (R169). -/
def WakePattern.matches_ (p : WakePattern) (body : List Byte) : Bool :=
  decide (p.offset + p.length ≤ body.length) &&
    (List.range p.length).all fun i =>
      !(p.mask.getLsbD i) || decide (body[p.offset + i]?.getD 0 = p.bytes[i]?.getD 0)

/-- Whether a pattern's interval has passed (R169); the sum is formed exactly (R167). -/
def WakePattern.passed (p : WakePattern) (now : Time) : Bool :=
  match p.lastWake with
  | none => true
  | some l => decide (p.interval = 0) || decide (l.toNat + 60 * p.interval ≤ now.toNat) || decide (now < l)

/-- The patterns tried in ascending number (R169): those whose interval has not passed are counted as suppressed, and the first
that wakes is given. -/
def Pwc.tryPatterns (w : Pwc) (body : List Byte) : List Nat → Pwc × Option Nat
  | [] => (w, none)
  | n :: ns =>
    let p := w.patterns[n]?.getD WakePattern.resetRecord
    if p.enabled && p.matches_ body then
      if p.passed w.time then
        ({ w with patterns := w.patterns.setIfInBounds n { p with lastWake := some w.time } }, some n)
      else Pwc.tryPatterns { w with suppressed := tallyUp 43 w.suppressed } body ns
    else w.tryPatterns body ns

/-- Execution of LAN_FRAME (R169): a frame on the LAN tap, its frame check included. -/
def execLanFrame (frame : List Byte) (s : State) : Out :=
  .next (if s.pwc.filterActive then
      if s.pwc.considers frame then
        let r := s.pwc.tryPatterns (frame.take (frame.length - 4)) (List.range 8)
        let s := s.onPwc fun _ => r.1
        match r.2 with
        | some n => s.wakeCause (.lan n ((frame.drop 6).take 6))
        | none => s
      else s.onPwc fun w => { w with rejected := tallyUp 42 w.rejected }
    else s)

/-! ## The button (R170) -/

/-- A press classified (R170): a notice in RUN and WAKING, a wake cause in the other states and in WAKING a later cause. -/
def State.pressed (s : State) (long : Bool) : State :=
  let noticed := decide (s.pwc.box = .run) || decide (s.pwc.box = .waking)
  let s := if noticed then s.notice slotButton [⟨1, flag long⟩, ⟨4, s.pwc.time.toNat⟩] else s
  s.wakeCause (.button long)

/-- Execution of BUTTON_SHORT (R170): the line has followed the press and its release, and the press is classified. A press below
30 ms and the release of a long press are ignored, and no command (log entry 28). -/
def execButtonShort (s : State) : Out :=
  .next ((s.onPwc fun w => { w with button := (w.button.follow true).follow false }).pressed false)

/-- Execution of BUTTON_LONG (R170): the line has followed the release of the press before and this press, which is classified while
the button is held. -/
def execButtonLong (s : State) : Out :=
  .next ((s.onPwc fun w => { w with button := (w.button.follow false).follow true }).pressed true)

/-! ## Lamps (R113, R114) -/

/-- SET_LAMPS (R113), taken in every state. -/
def State.setLamps (s : State) (tag mode : Nat) : State :=
  let m : Option LampMode := match mode with
    | 0 => some .normal
    | 1 => some .test
    | 2 => some .dark
    | _ => none
  match m with
  | none => s.refuse tag kindSetLamps .badArgument
  | some m =>
    (s.onPwc fun w => { w with lampMode := m, bayLampsDriven := w.bayLampsDriven || decide (m ≠ .normal) }).answer tag
      kindSetLamps .ok [⟨1, mode⟩]

/-- Execution of SET_LAMPS. -/
def execSetLamps (tag mode : Nat) (s : State) : Out := .next ((s.taken (.setLamps tag mode)).setLamps tag mode)

/-- What a lamp output shows (R113, R114). -/
inductive Lamp where
  | highImpedance | off | steady | slow | alternating | fast
  deriving DecidableEq, Repr

/-- The bay lamp for a member state (R114). -/
def MemberState.lamp : MemberState → Lamp
  | .absent | .off | .standby => .off
  | .spinupWait | .spinningUp => .slow
  | .active => .steady
  | .rebuilding => .alternating
  | .failed => .fast

/-- The lamp output of a bay (R113, R114). -/
def State.bayLamp (s : State) (b : Nat) : Lamp :=
  if !s.pwc.bayLampsDriven then .highImpedance
  else match s.pwc.lampMode with
    | .test => .steady
    | .dark => .off
    | .normal =>
      match s.positionOfBay b with
      | some p => (s.member p).lamp
      | none => .off

/-- The box lamp (R113, R114). -/
def State.boxLamp (s : State) : Lamp :=
  match s.pwc.lampMode with
  | .test => .steady
  | .dark => .off
  | .normal =>
    match s.pwc.box with
    | .run => .steady
    | .sleepEntry | .waking => .slow
    | .asleep => .off

/-- Whether a lamp is lit at a millisecond of the 1 Hz time base (R114). -/
def Lamp.litAt (l : Lamp) (ms : Nat) : Bool :=
  match l with
  | .highImpedance | .off => false
  | .steady => true
  | .slow => decide (ms % 1000 < 500)
  | .alternating => decide (500 ≤ ms % 1000)
  | .fast => decide (ms % 250 < 125)

end Sys2Proof.Machine
end

