-- ==== Sys2Proof/Machine/Memory.lean ====
section
/-!
DEFINITION. The commands of the memory controller (chapter 9): bringing the memory up, bursts with their errors, refresh, the
read buffer pool, the region map and the retained-image marker.
-/

namespace Sys2Proof.Machine

/-! ## The MEMORY notice (R183) -/

/-- The causes of a MEMORY notice, in the order of R183. -/
inductive MemoryCause where
  | uncorrectable (region : Option Region)
  | refresh
  | init
  deriving DecidableEq, Repr

/-- The uncorrectable count of a region. -/
def Mec.count (m : Mec) (r : Region) : Nat := m.uncorrectable[r.number]?.getD 0

/-- The MEMORY notice (R183). A word of no region has no region and no count to carry (log entry 10). -/
def State.noticeMemory (s : State) (c : MemoryCause) : State :=
  s.notice slotMemory
    ((match c with
      | .uncorrectable (some r) => [⟨1, 0⟩, ⟨1, r.number⟩, ⟨4, s.mec.count r⟩]
      | .uncorrectable none => [⟨1, 0⟩, ⟨1, Config.absentField 1⟩, ⟨4, Config.absentField 4⟩]
      | .refresh => [⟨1, 1⟩]
      | .init => [⟨1, 2⟩]) ++
      [⟨4, s.mec.overflows⟩, ⟨4, s.mec.corrected⟩])

/-! ## Bringing the memory up (R173) -/

/-- Execution of MEMORY_INIT_DONE (R173): READY with the size found and every word zero, or FAILED after the second attempt.
The bursts that wait when MEC enters FAILED are dropped, and no refusal of them is shown: R173 says only that FAILED refuses every
burst (DESIGN CHOICE, log entry 76). -/
def execMemoryInitDone (size : Option Nat) (s : State) : Out :=
  .next (if s.mec.state = .initialising then
      match size with
      | none =>
        (s.onMec fun m => { m with state := .failed, marker := none, bursts := [] }).noticeMemory .init
      | some n =>
        if memorySizes.contains n then
          { s.onMec (fun m => { m with state := .ready, size := some n, refreshRunning := true }) with mem := [] }
        else s
    else s)

/-! ## Refresh (R176) -/

/-- Execution of REFRESH_TIMER_EXPIRE (R176); `busy` says that a burst is in progress, so that the owed refreshes wait. -/
def execRefreshTimerExpire (busy : Bool) (s : State) : Out :=
  .next (if s.mec.state = .ready ∧ s.mec.refreshRunning = true then
      let overflow := decide (1 ≤ s.mec.owed)
      let s := s.onMec fun m =>
        { m with owed := min 8 (m.owed + 1), overflows := if overflow then tallyUp 80 m.overflows else m.overflows }
      let s := if overflow then s.noticeMemory .refresh else s
      if busy then s else s.onMec fun m => { m with owed := 0 }
    else s)

/-! ## Bursts (R175, R179, R180) -/

end Sys2Proof.Machine

namespace Sys2Proof

/-- The first word that a burst touches, by address. -/
def Burst.first (b : Burst) : Nat := b.addr / 8 * 8

/-- The number of words that a burst touches. -/
def Burst.words (b : Burst) : Nat := (b.addr + b.len + 7) / 8 - b.addr / 8

/-- Whether a burst is one that R175 admits: 8 to 4,096 bytes of consecutive words within one region; only a write may cover a
part of a word. -/
def Burst.admitted (b : Burst) (map : Option Machine.RegionMap) : Bool :=
  decide (1 ≤ b.len) && decide (b.words ≤ 512) &&
    (if b.isWrite then decide (b.data.length = b.len) else decide (b.addr % 8 = 0) && decide (b.len % 8 = 0)) &&
    decide (Machine.regionAt map b.addr = Machine.regionAt map (b.addr + b.len - 1))

/-- Whether a write covers the whole of the word at an address. -/
def Burst.covers (b : Burst) (w : Nat) : Bool := decide (b.addr ≤ w) && decide (w + 8 ≤ b.addr + b.len)

/-- The words of a burst that MEC reads, by address: all of a read, and those that a write covers in part. -/
def Burst.wordsRead (b : Burst) : List Nat :=
  ((List.range b.words).map fun i => b.first + 8 * i).filter fun w => !b.isWrite || !b.covers w

end Sys2Proof

namespace Sys2Proof.Machine

/-- The error that the memory returns for a word of a burst: uncorrectable when the word is bad as it stands. -/
def State.wordError (s : State) (b : Burst) (w : Nat) : Option Bool :=
  if s.wordBad w then some true
  else if b.errors.contains ((w - b.first) / 8, true) then some true
  else if b.errors.contains ((w - b.first) / 8, false) then some false
  else none

/-- A correctable error (R179): counted; the word written back holds the value delivered. -/
def State.corrected (s : State) : State := s.onMec fun m => { m with corrected := tallyUp 81 m.corrected }

/-- A word is bad from here on until it is written (R180). -/
def State.wordLost (s : State) (w : Nat) : State :=
  if s.tableAddress w then s.onTables fun t => { t with bad := t.bad ++ [w] }
  else s.onMec fun m => { m with bad := m.bad ++ [w] }

/-- An uncorrectable error (R180): counted and reported to the owner of its region, with the MEMORY notice. A word of no region
is rewritten as zero and reported to nobody. So is a word of the retained index, container and pool regions while the map is absent,
between a warm reset and the attach; the tables, and which of their words are bad, are not touched by it. The object table keeps its
region while the map is absent, so that its words are counted, reported and stay bad then too (the rules say neither: DESIGN CHOICE,
log entry 79). -/
def State.uncorrectable (s : State) (w : Nat) : State :=
  match regionAt s.mec.map w with
  | some r =>
    let s := if s.wordBad w then s else s.wordLost w
    let s := s.onMec fun m =>
      { m with
        uncorrectable := m.uncorrectable.setIfInBounds r.number (tallyUp (90 + r.number) (m.count r)),
        reports := m.reports ++ [(some r, w)] }
    s.noticeMemory (.uncorrectable (some r))
  | none =>
    (s.zeroMem w 8).noticeMemory (.uncorrectable none)

/-- The words of a burst checked as MEC reads them (R179, R180): the state, and the addresses of the words flagged as bad. -/
def State.checkWords (s : State) (b : Burst) : List Nat → State × List Nat
  | [] => (s, [])
  | w :: ws =>
    match s.wordError b w with
    | some true =>
      let r := (s.uncorrectable w).checkWords b ws
      (r.1, w :: r.2)
    | some false => s.corrected.checkWords b ws
    | none => s.checkWords b ws

/-- A write's bytes taken into the memory, and its words good again (R180). A table region takes its content from the tables,
which the owner's own command has changed (log entry 8). The bytes of a bad word that the write does not cover are not known
(log entry 7). -/
def State.storeBurst (s : State) (b : Burst) : State :=
  if s.tableAddress b.addr then
    s.onTables fun t => { t with bad := t.bad.filter fun w => !wordTouches b.addr b.len w }
  else s.writeMem b.addr b.data

/-- The bytes that a read delivers, those of a flagged word being unknown (log entry 7). -/
def State.deliver (s : State) (b : Burst) (flagged : List Nat) : List Byte :=
  (List.range b.len).map fun i =>
    let a := b.addr + i
    if flagged.contains (a / 8 * 8) then Config.badWordByte a else s.byteAt a

/-- A body that a flagged word makes CKR take again, once (R189). -/
def Ckpt.flagged (c : Ckpt) : Ckpt :=
  if c.phase = .copying ∧ c.retaken = false then { c with retake := true } else c

/-- One burst carried (R175), then the owed refreshes (R176). -/
def State.carryBurst (s : State) (b : Burst) : State :=
  let r := s.checkWords b b.wordsRead
  let given := r.1.deliver b r.2
  let s := if b.isWrite then
      (r.1.storeBurst b).onMec fun m => { m with burstAnswer := .written }
    else
      let words := r.2.map fun w => (w - b.first) / 8
      r.1.onMec fun m => { m with burstAnswer := .delivered given words }
  let s := if b.piece && !r.2.isEmpty then s.onCkr fun k => { k with ckpt := k.ckpt.map Ckpt.flagged } else s
  s.onMec fun m => { m with owed := 0 }

/-- The oldest waiting burst carried. -/
def State.carryNext (s : State) : Out :=
  match s.mec.bursts with
  | [] => .next s
  | b :: rest =>
    let s := s.onMec fun m => { m with bursts := rest }
    if (s.mec.size.getD 0) < b.addr + b.len then .fault .noSuchAddress
    else if b.admitted s.mec.map then .next (s.carryBurst b)
    else .fault .notABurst

/-- Execution of MEMORY_BURST (R175): a burst asked for joins those that wait, and in READY the oldest is carried; in FAILED it
is refused. With no burst asked for, the oldest that waits is carried. Once PWC has asked for self-refresh, bursts wait (R177). -/
def execMemoryBurst (b : Option Burst) (s : State) : Out :=
  let waiting := s.onMec fun m => { m with bursts := m.bursts ++ b.toList }
  match s.mec.state with
  | .failed => .next (if b.isSome then s.onMec fun m => { m with burstAnswer := .refused } else s)
  | .ready => if s.mec.entryAsked then .next waiting else waiting.carryNext
  | _ => .next waiting

/-! ## The read buffer pool (R175) -/

/-- Execution of READ_BUFFER_REQUEST (R175). -/
def execReadBufferRequest (a : BufAsker) (n : Nat) (s : State) : Out := .next (s.askBuffers a n)

/-- Execution of READ_BUFFER_RETURN (R175). -/
def execReadBufferReturn (a : BufAsker) (n : Nat) (s : State) : Out := .next (s.returnBuffers a n)

/-! ## The region map and the marker (R174, R178) -/

/-- CKR asks MEC for the region map (R174): the map is put in force and P answered, or NO_ROOM. -/
def State.askMap (s : State) (b c : Nat) : State :=
  match s.mec.size.bind fun m => poolFor m b c with
  | some p => s.onMec fun m => { m with map := some { buckets := b, containers := c, pool := p }, mapAnswer := some p }
  | none => s.onMec fun m => { m with mapAnswer := none }

/-- CKR asks MEC for the marker (R178): its array number, with the map computed again, or INVALID. -/
def State.askMarker (s : State) : State :=
  match s.mec.marker with
  | some k => (s.askMap k.buckets k.containers).onMec fun m => { m with mapAnswer := some k.number }
  | none => s.onMec fun m => { m with mapAnswer := none }

/-- Execution of REGION_MAP_REQUEST (R174), while no table is in force. -/
def execRegionMapRequest (b c : Nat) (s : State) : Out := .next (if s.inUse then s else s.askMap b c)

/-- Execution of MARKER_REQUEST (R178), while no table is in force. -/
def execMarkerRequest (s : State) : Out := .next (if s.inUse then s else s.askMarker)

end Sys2Proof.Machine
end

