-- ==== Sys2Proof/Machine/Setup.lean ====
section
/-!
DEFINITION. The commands of the checkpoint and replay unit (chapter 10): forming an array, writing a checkpoint, and attaching
an array with its replay.
-/

namespace Sys2Proof.Machine

/-! ## Forming (R186) -/

/-- Whether numbers are distinct bays 0 to 3. -/
def distinctBays (bs : List Nat) : Bool := decide bs.Nodup && bs.all fun b => decide (b ≤ 3)

/-- The checks that FORM_ARRAY and ATTACH_ARRAY share (R186, R190): RUN, UNFORMED, MEC READY. -/
def State.mayAttach (s : State) : Bool :=
  decide (s.pwc.box = .run) && decide (s.ctm.state = .unformed) && decide (s.mec.state = .ready)

/-- A channel bound to a bay, or to none, with the given member record (R94, R95). -/
def Channel.bound (c : Channel) (bay : Option Nat) (m : Member) : Channel :=
  { c with bay := bay, member := m, units := none, idleReported := false, current := none }

/-- The state with channel `p` bound, and the MEMBER notice when the member's state has changed (R96). -/
def State.bind (s : State) (p : Nat) (bay : Option Nat) (m : Member) : State :=
  let was := s.member p
  let s := s.modChan p fun c => c.bound bay m
  if was = m.state then s else s.noticeMember p

/-- The member record of a drive that joins a position: nothing is counted against it (R95, R104). -/
def Member.joins (st : MemberState) : Member := { state := st, cause := none, errors := 0 }

/-- The member record of a position at which no drive joins: ABSENT, with the error count as it stood (R104). -/
def Member.gone (m : Member) : Member := { m with state := .absent, cause := none }

/-- Step 1 of forming (R186): channel j bound to the j-th listed bay with its member OFF, and a LABEL_READ for each. -/
def State.beginForming (s : State) (tag : Nat) (l : Layout) (bays : List Nat) (buckets : Nat) : State :=
  let form : Forming := { tag := tag, layout := l, bays := bays, buckets := buckets, stage := .drives }
  let s := s.onCtm fun m => { m with state := .attaching }
  let s := s.onCkr fun k => { k with op := .forming, form := some form }
  let s := s.each (List.range 4) fun s p => match bays[p]? with
    | some b => s.bind p (some b) (Member.joins .off)
    | none => s.bind p none (s.chan p).member.gone
  s.submitAll ((List.range bays.length).map fun p => (p, labelReadOp .labelRead))

/-- FORM_ARRAY (R186). -/
def State.formArray (s : State) (tag layout count : Nat) (bays : List Nat) (buckets : Nat) : State :=
  if s.ctm.state = .failed then s.refuse tag kindFormArray .arrayFailed
  else if !s.mayAttach then s.refuse tag kindFormArray .wrongState
  else match layoutOf layout with
    | none => s.refuse tag kindFormArray .badArgument
    | some l =>
      let bs := bays.take count
      if count ≠ l.members ∨ bs.length ≠ count ∨ distinctBays bs = false then s.refuse tag kindFormArray .badArgument
      else if !bucketCountGood buckets then s.refuse tag kindFormArray .badArgument
      else if !(bs.all fun b => (s.bay b).presence.level) then s.refuse tag kindFormArray .badArgument
      else s.beginForming tag l bs buckets

/-- Execution of FORM_ARRAY. -/
def execFormArray (tag layout count : Nat) (bays : List Nat) (buckets : Nat) (s : State) : Out :=
  .next ((s.taken (.formArray tag layout count bays buckets)).formArray tag layout count bays buckets)

/-- M: the units of the smallest drive that has reported ready (R186). -/
def State.smallestDrive (s : State) (n : Nat) : Nat :=
  ((List.range n).map fun p => (s.chan p).units.getD 0).foldl min (((s.chan 0).units).getD 0)

/-- Step 3 of forming (R186): the array record and the empty tables. -/
def State.emptyTables (s : State) (f : Forming) (m r c : Nat) : State :=
  let number := (crc32 (leBytes 4 s.pwc.time.toNat ++ leBytes 4 m)).toNat
  let record : ArrayRec :=
    { layout := f.layout, number := number, reserved := r, containers := c, seq := 1, fence := 0 }
  let tables := { Tables.blank with buckets := f.buckets, freeList := List.range c, array := some record }
  let s := { s with idx := Idx.resetRecord, oru := Oru.resetRecord }.tablesWritten tables
  s.onCtm fun x => { x with repairs := 0, dataLost := 0, degradedReads := 0 }

/-- Step 4 of forming (R186): each member's label written, and the header unit of slot B wiped. -/
def State.writeLabels (s : State) (n : Nat) : State :=
  s.each (List.range n) fun s p =>
    (s.writeLabel p .ckr .formLabel (s.labelFor p false none)).submit p
      (writeUnitOp .write (slotBase s.reserved .b) (List.replicate unitSize 0) .ckr .formWipe)

/-- Steps 2 to 4 of forming (R186). -/
def State.sizeArray (s : State) (f : Forming) : State :=
  let m := s.smallestDrive f.layout.members
  let r := reservedFor (s.mec.size.getD 0)
  let c := min 67108864 (m - 1 - 2 * r)
  if c < 1 then s.formFail 255
  else
    let s := s.askMap f.buckets c
    if s.mec.mapAnswer.isNone then s.formFail 255
    else
      let s := s.onCkr fun k => { k with form := some { f with stage := .labels } }
      (s.emptyTables f m r c).writeLabels f.layout.members

/-- Execution of FORM_DRIVES_READY (R186): every drive has reported ready and its LABEL_READ has come back. -/
def execFormDrivesReady (s : State) : Out :=
  .next (match s.ckr.form with
    | none => s
    | some f =>
      if f.stage = .drives ∧ f.bays.length ≤ (s.returned fun j => j = .labelRead).length then
        (s.dropReturned fun j => j = .labelRead).sizeArray f
      else s)

/-- Whether a job is one of step 4 of forming. -/
def isFormJob : Job → Bool
  | .formLabel | .formWipe => true
  | _ => false

/-- Execution of FORM_LABELS_WRITTEN (R186): the labels and the wipe are written, and the first checkpoint is begun. A
write of the zero unit that fails after the retry fails its member with cause WRITE, as a label's does: the rules name label, body and
header writes alone (DESIGN CHOICE, log entry 103). -/
def execFormLabelsWritten (s : State) : Out :=
  .next (match s.ckr.form with
    | none => s
    | some f =>
      let rs := s.returned isFormJob
      if f.stage = .labels ∧ 2 * f.bays.length ≤ rs.length then
        let s := (s.dropReturned isFormJob).failWriters rs
        if s.ckr.form.isNone then s
        else
          let s := s.onCkr fun k => { k with form := some { f with stage := .slot } }
          s.startCopying (s.newCkpt .forming .copying)
      else s)

/-! ## Checkpoints (R188, R189) -/

/-- CHECKPOINT (R188). -/
def State.checkpoint (s : State) (tag : Nat) : State :=
  if s.ctm.state = .failed then s.refuse tag kindCheckpoint .arrayFailed
  else if s.pwc.box ≠ .run then s.refuse tag kindCheckpoint .wrongState
  else if s.ctm.state.attached = false then s.refuse tag kindCheckpoint .wrongState
  else if s.ckr.ckpt.isSome then s.refuse tag kindCheckpoint .busy
  else s.startCheckpoint (.request tag)

/-- Execution of CHECKPOINT. -/
def execCheckpoint (tag : Nat) (s : State) : Out := .next ((s.taken (.checkpoint tag)).checkpoint tag)

/-- Execution of CHECKPOINT_QUIET (R188): every held stream is quiet; the partial recipe buffers are written out, the walks and
the relocation are paused, and when all of it has settled the forced seal is asked for. The buffers are written out in ascending
stream number, once every held stream is quiet (R24 and R188 give no order: DESIGN CHOICE, log entry 66). -/
def execCheckpointQuiet (s : State) : Out :=
  .next (match s.ckr.ckpt with
    | none => s
    | some c =>
      if c.phase = .holding ∧ s.heldQuiet = true then
        let s := (s.each (List.range 8) fun s i => s.writePartial i).pauseWalks
        match s.ckr.ckpt with
        | none => s
        | some c => if s.readyToSealCkpt then s.askCkptSeal c else s
      else s)

/-- Execution of CHECKPOINT_SEALED (R188): the forced seal is answered, and the copy begins. -/
def execCheckpointSealed (s : State) : Out :=
  .next (match s.ckr.ckpt with
    | none => s
    | some c => if c.phase = .sealing ∧ s.sealDone .checkpoint = true then s.startCopying c else s)

/-- The four table regions, of which the body is a copy (R185). -/
def tableRegions : List Region := [.objects, .index, .containers, .pool]

/-- Whether the last write of a piece may be taken: a body that is to be taken again waits until the owners of the words
reported have acted (R189). -/
def State.mayTakeUnit (s : State) (c : Ckpt) (p : Nat) : Bool :=
  decide (c.phase = .copying) && c.out.contains p &&
    (!c.retake || decide (c.out ≠ [p]) || (s.mec.reportOf tableRegions).isNone)

/-- Execution of CHECKPOINT_UNIT_WRITTEN (R189): a body unit write has come back on a member. -/
def execCheckpointUnitWritten (p : Nat) (s : State) : Out :=
  .next (match s.ckr.ckpt, s.returns.find? fun r => r.op.job = .ckptBody && r.position = p with
    | some c, some r =>
      if s.mayTakeUnit c p then
        let s := ({ s with returns := s.returns.erase r }).failWriters [r]
        match s.ckr.ckpt with
        | none => s
        | some c => s.pieceBack c p r.result.bytes.isSome
      else s
    | _, _ => s)

/-- Execution of QUARANTINE_RELEASE (R75, R188, R189): the slot's header has reached a member, the slot becomes the current one,
and CTM releases the quarantine. -/
def execQuarantineRelease (s : State) : Out :=
  .next (match s.ckr.ckpt with
    | none => s
    | some c =>
      if c.released = false ∧ s.headersBack c = true ∧ 0 < s.headersGood then
        let c := { c with released := true, headersWritten := s.headersGood }
        (s.releaseQuarantine).onCkr fun k => { k with slot := some c.slot, seq := c.seq, q := c.q, ckpt := some c }
      else s)

/-- Execution of CHECKPOINT_END (R189). -/
def execCheckpointEnd (s : State) : Out :=
  .next (match s.ckr.ckpt with
    | none => s
    | some c => if s.headersBack c then s.headersDone c else s)

/-! ## The closing checkpoint of an attach (R92, R194) -/

/-- A container's record as an attach adjusts it (R92). -/
def Container.adjusted (r : Container) : Container :=
  match r.state with
  | .draining => { r with state := .sealed, reads := 0 }
  | .opened | .sealing => { r with state := .draining, seq := none, reads := 0 }
  | .sealed => { r with reads := 0 }

/-- CTM adjusts the container table (R92): move destinations discarded, records adjusted, every buffer free, and every
container tested by R86 in ascending order. A record that changes is written, with both its copies (R180). -/
def State.adjustContainers (s : State) : State :=
  let s := s.onTables Tables.dropMoves
  let s := s.onTables fun t =>
    t.write (fun w => t.containers.any fun e => decide (e.2.adjusted ≠ e.2) && wordTouches (t.contAt e.1) 32 w)
      { t with containers := t.containers.map fun e => (e.1, e.2.adjusted) }
  let s := s.onCtm fun m => { m with buffers := Vector.replicate 4 none, reloc := none }
  (s.tables.containers.map fun e => e.1).foldl (fun s c => s.testFree c) s

/-- The containers adjusted, the array derived, and the closing checkpoint begun (R194, R195): steps 2 to 6 of R188. The state
derived is put in force when the attach ends (R68). -/
def State.closeAttach (s : State) (a : Attach) : State :=
  let s := s.adjustContainers
  let s := s.onCkr fun k => { k with attach := some { a with stage := .closing, derived := s.derived } }
  let s := s.pauseWalks
  s.askCkptSeal (s.newCkpt .closing .sealing)

/-- An object as an attach adjusts it (R66). An OPEN one is released as by abort, with a RELEASE record if a SEGMENT record of it has
been copied, whether or not its map names one (R62, R51). A LOST object stays LOST, and no walk of it is left (R64, R65). -/
def Obj.adjusted (r : Obj) : Obj :=
  match r.state with
  | .releasePending => { r with state := .releasing, stream := none, walk := some Walk.start, tail := none, recorded := true }
  | .opened => { r with state := .releasing, stream := none, walk := some Walk.start, tail := none }
  | .lost => { r with stream := none, walk := none, tail := none }
  | _ => r

/-- ORU adjusts the objects (R66) and takes its figures on the device, with the id cursor at the highest id in use (R49). Several
OPEN objects join the release queue behind the others in ascending id, where R66 and R194 give no order among them (DESIGN CHOICE,
log entry 34). -/
def State.adjustObjects (s : State) : State :=
  let before := s.tables.objects
  let first := (before.filter fun e => e.2.state = .releasing || e.2.state = .releasePending).map fun e => e.1
  let behind := (before.filter fun e => e.2.state = .opened).map fun e => e.1
  let s := s.onTables fun t =>
    t.write (fun w => t.objects.any fun e => decide (e.2.adjusted ≠ e.2) && t.objWords e.1 (some e.2.adjusted) w)
      { t with objects := t.objects.map fun e => (e.1, e.2.adjusted) }
  let cursor := before.foldl (fun n e => max n e.1) 0
  s.onOru fun u => { u.cleared with cursor := cursor, queue := first ++ behind }

/-! ## Attach: the labels (R190) -/

/-- ATTACH_ARRAY accepted (R190, step 1). -/
def State.beginAttach (s : State) (tag : Nat) : State :=
  let bays := (List.range 4).filter fun b => (s.bay b).presence.level
  let a : Attach :=
    { tag := tag, stage := .labels, bays := bays, usable := [], warm := false, label := none, heads := [], slot := .a,
      seq := 0, otherTried := false, sources := [], whole := [], units := [], scanning := none, rest := [], misses := 0,
      accepted := [], items := [], applied := [], walking := none, directories := [], derived := .unformed,
      figures := Figures.zero }
  let s := s.onCtm fun m => { m with state := .attaching }
  let s := s.onCkr fun k => { k with op := .attaching, attach := some a }
  let s := s.each bays fun s b => s.bind b (some b) (Member.joins .off)
  s.submitAll (bays.map fun b => (b, labelReadOp .labelRead))

/-- ATTACH_ARRAY (R190). -/
def State.attachArray (s : State) (tag : Nat) : State :=
  if s.ctm.state = .failed then s.refuse tag kindAttachArray .arrayFailed
  else if !s.mayAttach then s.refuse tag kindAttachArray .wrongState
  else s.beginAttach tag

/-- Execution of ATTACH_ARRAY. -/
def execAttachArray (tag : Nat) (s : State) : Out := .next ((s.taken (.attachArray tag)).attachArray tag)

/-- Whether two labels agree (R190, step 3). -/
def Label.agrees (x y : Label) : Bool :=
  decide (x.number = y.number) && decide (x.layout = y.layout) && decide (x.reserved = y.reserved) &&
    decide (x.containers = y.containers) && decide (x.buckets = y.buckets) && decide (x.memory = y.memory)

/-- The labels read, by bay: those that are valid (R190, step 2). -/
def labelsRead (rs : List Returned) : List (Nat × Label) :=
  rs.filterMap fun r => (r.result.bytes.bind Label.parse).map fun l => (r.position, l)

/-- The member record that a drive takes to its position (R190, steps 4 and 5): ABSENT when its rebuild was not complete; FAILED
when its member has failed since its label was read, which leaves the position lost; otherwise ACTIVE. -/
def Member.rebound (m : Member) (l : Label) : Member :=
  if l.incomplete then m.gone else if m.state = .failed then m else Member.joins .active

/-- The channels bound by the labels (R190, steps 4 and 5): a drive whose rebuild was not complete stays bound with its member
ABSENT and its bay off; a channel with no drive is bound to no bay; every other bay is off. A spin-up that waits or runs ends with
it, and S in force may fall (R163, R166). So do a standby operation, a standby request and the operations of every channel, a good
drive's too: they are abandoned and answered to nobody, of which R94, R108 and R190 do not speak (DESIGN CHOICE, log entry 85). -/
def State.rebind (s : State) (ls : List (Nat × Label)) : State :=
  let was (b : Nat) : Member := (s.chan b).member
  let s := s.onPwc Pwc.quieted
  let s := s.each (List.range 4) fun s p => match ls.find? fun e => e.2.position = p with
    | some (b, l) => s.bind p (some b) ((was b).rebound l)
    | none => s.bind p none (was p).gone
  let lit := (ls.filter fun e => ((was e.1).rebound e.2).state = .active).map fun e => e.1
  let s := s.each ((List.range 4).filter fun b => !lit.contains b) fun s b => s.bayOff b
  (s.each (List.range 4) fun s p => s.idleUpdate p).limitFalls

/-- The attach in progress replaced. -/
def State.setAttach (s : State) (a : Attach) : State := s.onCkr fun k => { k with attach := some a }

/-- The channel with a standby operation in progress abandoned. -/
def Channel.standbyAbandoned (c : Channel) : Channel :=
  if c.current.any fun o => o.kind = .standby then { c with current := none } else c

/-- A position left unusable: its member ABSENT and its bay off (R190). A spin-up of it ends with it (R163, R166). So does a standby
operation: it is abandoned and answered to nobody, as by a failure of the member (R105), so that its end changes nothing. R108 and
R190 do not say what becomes of one (DESIGN CHOICE, log entry 85). -/
def State.dropPosition (s : State) (p : Nat) : State :=
  let s := (s.onPwc fun w => (w.spinDropped p).standbyDropped p).modChan p Channel.standbyAbandoned
  (s.memberBayOff p).setMember p .absent

/-- Positions left unusable, one after another. -/
def State.dropPositions (s : State) (ps : List Nat) : State := (s.each ps State.dropPosition).spinChanged

/-- The header units of both slots read on every usable member (R191). -/
def State.readHeaders (s : State) (a : Attach) : State :=
  let r := (a.label.map fun l => l.reserved).getD 0
  (s.setAttach { a with stage := .headers }).submitAll
    ((a.usable.map fun p =>
      [(p, readUnitOp .read (slotBase r .a) (.slotHeader false)),
       (p, readUnitOp .read (slotBase r .b) (.slotHeader true))]).flatten)

/-- A warm attach when the marker names the array of the labels; otherwise the retained image is discarded (R190, R195). The map of a
valid marker that names another array is never put in force: R178 puts it in force before the numbers are compared, and R195 only
once they are equal (DESIGN CHOICE, log entry 78). -/
def State.chooseWarm (s : State) (a : Attach) (l : Label) : State × Attach :=
  match s.mec.marker with
  | some k =>
    if k.number = l.number then (s.askMarker, { a with warm := true })
    else (s.onMec fun m => { m with marker := none }, a)
  | none => (s, a)

/-- The labels have been read (R190, steps 2 to 5). -/
def State.takeLabels (s : State) (a : Attach) (ls : List (Nat × Label)) : State :=
  match ls with
  | [] => s.attachFail
  | (_, l) :: _ =>
    let positions := ls.map fun e => e.2.position
    if (ls.all fun e => l.agrees e.2) = false ∨ ¬ positions.Nodup ∨ some l.memory ≠ s.mec.size then s.attachFail
    else
      let s := s.rebind ls
      let usable := (List.range 4).filter fun p => s.member p = .active
      let a := { a with label := some l, usable := usable }
      let s := s.setAttach a
      if usable.length + 1 < l.layout.members then s.attachFail
      else
        let r := s.chooseWarm a l
        r.1.readHeaders r.2

/-- Execution of ATTACH_LABELS_READ (R190): every LABEL_READ has come back. -/
def execAttachLabelsRead (s : State) : Out :=
  .next (match s.ckr.attach with
    | none => s
    | some a =>
      let rs := s.returned fun j => j = .labelRead
      if a.stage = .labels ∧ a.bays.length ≤ rs.length then
        (s.dropReturned fun j => j = .labelRead).takeLabels a (labelsRead rs)
      else s)

/-! ## Attach: the slots (R191, R195) -/

/-- Whether a job is the read of a header unit. -/
def isHeaderJob : Job → Bool
  | .slotHeader _ => true
  | _ => false

/-- Which slot a header read was for. -/
def headerSlot : Job → Bool
  | .slotHeader b => b
  | _ => false

/-- The headers read from usable members whose CRC checks and whose array number is the array's (R191). -/
def headsRead (rs : List Returned) (l : Label) : List HeadRead :=
  rs.filterMap fun r => (r.result.bytes.bind SlotHeader.parse).bind fun h =>
    if h.number = l.number then some { position := r.position, slotB := headerSlot r.op.job, header := h } else none

/-- The positions that hold a slot with a sequence. -/
def Attach.holders (a : Attach) (slotB : Bool) (seq : Nat) : List Nat :=
  a.usable.filter fun p => a.heads.any fun h => h.position = p && h.slotB = slotB && h.header.seq = seq

/-- The slots and sequences that at least n − 1 usable members hold (R191), in some slots only. -/
def Attach.held (a : Attach) (slots : List Bool) : List (Bool × Nat) :=
  (a.heads.map fun h => (h.slotB, h.header.seq)).filter fun e =>
    slots.contains e.1 && decide (a.members ≤ (a.holders e.1 e.2).length + 1)

/-- The highest of them. -/
def highest (es : List (Bool × Nat)) : Option (Bool × Nat) :=
  es.foldl (fun best e => match best with
    | none => some e
    | some b => if b.2 < e.2 then some e else some b) none

/-- The slot that a header read names. -/
def slotOf (slotB : Bool) : Slot := if slotB then .b else .a

/-- The header of a slot with a sequence: the first read to come back with them. The members' headers of one slot and sequence can
differ in the scrub cursor and the pass count, and R191 does not say whose it takes (DESIGN CHOICE, log entry 96). -/
def Attach.headerOf (a : Attach) (sl : Slot) (seq : Nat) : Option SlotHeader :=
  (a.heads.find? fun h => slotOf h.slotB = sl && h.header.seq = seq).map fun h => h.header

/-- Stale drives excluded (R190): those on which neither slot holds a valid header with the sequence loaded. The attach fails
when too few positions are left. -/
def State.dropStale (s : State) (a : Attach) (seq : Nat) : State × Attach :=
  let fresh (p : Nat) : Bool := a.heads.any fun h => h.position = p && h.header.seq = seq
  let stale := a.usable.filter fun p => !fresh p
  let a := { a with usable := a.usable.filter fresh }
  ((s.dropPositions stale).setAttach a, a)

/-- The body of a slot read from its members, each unit from the first of them (R191). -/
def State.readBody (s : State) (a : Attach) (sl : Slot) (seq : Nat) (members : List Nat) : State :=
  match members, a.headerOf sl seq with
  | p :: _, some h =>
    let r := (a.label.map fun l => l.reserved).getD 0
    let a := { a with stage := .body, slot := sl, seq := seq, sources := members, units := [] }
    (s.setAttach a).submitAll
      ((List.range (bodyUnits h.bodyLength)).map fun u =>
        (p, readUnitOp .read (slotBase r sl + 1 + u) (.slotBody u)))
  | _, _ => s.attachFail

/-- The slot and sequence chosen, and the members that hold that copy (R191). -/
def State.loadSlot (s : State) (a : Attach) (e : Bool × Nat) : State :=
  let members := a.holders e.1 e.2
  s.readBody { a with whole := members } (slotOf e.1) e.2 members

/-- No copy of the slot is valid: the other slot is tried the same way, once (R191). -/
def State.tryOther (s : State) (a : Attach) : State :=
  if a.otherTried then s.attachFail
  else match highest (a.held [decide (a.slot = .a)]) with
    | some e => s.loadSlot { a with otherTried := true } e
    | none => s.attachFail

/-- The hold list given back (R33): each handle lowered in list order, then the list emptied. -/
def State.giveBackHolds (s : State) : State :=
  let hs := s.tables.holds
  (hs.foldl (fun s h => s.idxLower h.handle) s).onTables fun t => t.setHolds []

/-- A warm attach from the choice of the slot on (R195): the retained tables are in force, holds are given back, objects and
containers adjusted, and the closing checkpoint begun. -/
def State.warmAttach (s : State) (a : Attach) (e : Bool × Nat) (q : Nat) : State :=
  let s := s.onCkr fun k => { k with slot := some (slotOf e.1), seq := e.2, q := q }
  let r := s.dropStale a e.2
  if r.2.usable.length + 1 < a.members then r.1.attachFail
  else
    let s := { r.1 with inUse := true }
    (s.giveBackHolds.adjustObjects).closeAttach r.2

/-- The headers have been read (R191, R195). -/
def State.takeHeaders (s : State) (a : Attach) : State :=
  match highest (a.held [false, true]) with
  | none => s.attachFail
  | some e =>
    if a.warm then s.warmAttach a e (((a.headerOf (slotOf e.1) e.2).map fun h => h.q).getD 0) else s.loadSlot a e

/-- Execution of SLOT_HEADERS_READ (R191): every header read has come back. -/
def execSlotHeadersRead (s : State) : Out :=
  .next (match s.ckr.attach with
    | none => s
    | some a =>
      if a.stage = .headers ∧ s.stillOut isHeaderJob = false then
        let rs := s.returned isHeaderJob
        let s := s.dropReturned isHeaderJob
        match a.label with
        | some l => (s.setAttach { a with heads := headsRead rs l }).takeHeaders { a with heads := headsRead rs l }
        | none => s.attachFail
      else s)

/-- Whether a job is the read of a body unit. -/
def isBodyJob : Job → Bool
  | .slotBody _ => true
  | _ => false

/-- The number of a body unit. -/
def bodyUnitOf : Job → Nat
  | .slotBody u => u
  | _ => 0

/-- The member after a position in the order of the sources. -/
def Attach.sourceAfter (a : Attach) (p : Nat) : Option Nat := ((a.sources.dropWhile fun q => q ≠ p).drop 1).head?

/-- The tables that a loaded slot stands for (R191): the body, with the array record from the label and the header, the free
list lengthened by the quarantine list, and the cursor and pass count of the header. The hold list is empty in every checkpoint
(R33). The heads and lengths of the recorded lists stand in the header and in the body, and R191 does not say which it takes: those of
the body are followed (DESIGN CHOICE, log entry 102). -/
def loadedTables (body : List Byte) (l : Label) (h : SlotHeader) : Tables :=
  let t := tablesOfBody body l.buckets l.containers
  { t with
    buckets := l.buckets, holds := [], freeList := t.freeList ++ t.quarantine, quarantine := [], scrubCursor := h.cursor,
    scrubPass := h.pass,
    array := some { layout := l.layout, number := l.number, reserved := l.reserved, containers := l.containers,
                    seq := h.q + 1, fence := h.fence } }

/-- Replay begins to apply (R192): the accepted containers whose sequences run without a gap. -/
def gapless (as_ : List Accepted) : Nat → Nat → List Accepted
  | 0, _ => []
  | fuel + 1, k =>
    match as_.find? fun x => x.seq = k with
    | some x => x :: gapless as_ fuel (k + 1)
    | none => []

/-- The items of a container, in directory order (R193). -/
def Accepted.items (x : Accepted) : List ReplayItem :=
  match x.kind with
  | .data => x.entries.map fun e => .entry x.container e
  | .recipe => x.records.map fun r => .record x.container r.1 r.2

/-- An applied container leaves the free list and becomes SEALED (R192). -/
def State.applyContainer (s : State) (x : Accepted) : State :=
  let record : Container :=
    { state := .sealed, kind := x.kind, seq := some x.seq, live := 0, segRefs := 0, entries := x.count, fill := 0,
      reads := 0, scarred := false }
  (s.onTables fun t => t.setLists (t.freeList.filter fun c => c ≠ x.container) t.quarantine).setCont x.container (some record)

/-- The scan has ended (R192): the gapless run is chosen, the sequence counter set, and the containers made SEALED. -/
def State.endScan (s : State) (a : Attach) : State :=
  let run := gapless a.accepted a.accepted.length (s.ckr.q + 1)
  let top := a.accepted.foldl (fun n x => max n x.seq) s.ckr.q
  let s := s.onArray fun r => { r with seq := top + 1 }
  let s := run.foldl (fun s x => s.applyContainer x) s
  let items := ((run.filter fun x => x.kind = .data) ++ run.filter fun x => x.kind = .recipe).map Accepted.items
  s.setAttach { a with
    stage := .apply, scanning := none, rest := [], applied := run, items := items.flatten,
    figures := { a.figures with applied := run.length } }

/-- The next container of the scan read, or the scan ended (R192). -/
def State.scanNext (s : State) (a : Attach) : State :=
  match a.rest with
  | c :: rest =>
    if 4 ≤ a.misses then s.endScan a
    else
      let ps := s.positions.filter fun p => !s.lostPosition p
      (s.setAttach { a with stage := .scan, scanning := some c, rest := rest }).submitAll
        (ps.map fun p => (p, readOp .read c 0 unitSize .ckr .scanRead))
  | [] => s.endScan a

/-- A body that checks is loaded (R191): MEC's map is asked for, the tables are in force, stale drives are excluded, and the
scan begins. -/
def State.loadBody (s : State) (a : Attach) (l : Label) (h : SlotHeader) (body : List Byte) : State :=
  let s := s.askMap l.buckets l.containers
  if s.mec.mapAnswer ≠ some h.pool then s.attachFail
  else
    let s := s.tablesWritten (loadedTables body l h)
    let s := s.onCkr fun k => { k with slot := some a.slot, seq := a.seq, q := h.q }
    let r := s.dropStale a a.seq
    if r.2.usable.length + 1 < a.members then r.1.attachFail
    else r.1.scanNext { r.2 with units := [], rest := s.tables.freeList, misses := 0 }

/-- Every unit of the body is in hand: it is loaded when its CRC checks, and otherwise the whole body is read again from the next
member (R191). -/
def State.checkBody (s : State) (a : Attach) (l : Label) (h : SlotHeader) : State :=
  let body := ((List.range (bodyUnits h.bodyLength)).map fun u => (getKey a.units u).getD []).flatten.take h.bodyLength
  if crc32 body = h.bodyCrc then s.loadBody a l h body
  else match a.whole.drop 1 with
    | [] => s.tryOther a
    | ms => s.readBody { a with whole := ms } a.slot a.seq ms

/-- The reads of the body that have come back (R191): a unit whose read failed is read from the next member that holds the
copy; a unit that none can supply leaves no valid copy. -/
def State.takeBody (s : State) (a : Attach) (l : Label) (h : SlotHeader) (rs : List Returned) : State :=
  let good := rs.filterMap fun r => r.result.bytes.map fun bs => (bodyUnitOf r.op.job, bs)
  let a := { a with units := good.foldl (fun m e => putKey m e.1 e.2) a.units }
  let failed := rs.filter fun r => r.result.bytes.isNone
  let again := failed.map fun r => (a.sourceAfter r.position, bodyUnitOf r.op.job)
  if failed.isEmpty then s.checkBody a l h
  else if again.any fun e => e.1.isNone then s.tryOther a
  else
    (s.setAttach a).submitAll (again.filterMap fun e => e.1.map fun p =>
      (p, readUnitOp .read (slotBase l.reserved a.slot + 1 + e.2) (.slotBody e.2)))

/-- Execution of SLOT_BODY_READ (R191): the reads of the body that were out have come back. -/
def execSlotBodyRead (s : State) : Out :=
  .next (match s.ckr.attach with
    | none => s
    | some a =>
      if a.stage = .body ∧ s.stillOut isBodyJob = false then
        let rs := s.returned isBodyJob
        let s := s.dropReturned isBodyJob
        match a.label, a.headerOf a.slot a.seq with
        | some l, some h => s.takeBody a l h rs
        | _, _ => s.attachFail
      else s)

/-! ## Attach: the replay scan (R192) -/

/-- The units of a container as its reads gave them. -/
def scanUnits (rs : List Returned) : Vector UnitRead 4 :=
  Vector.ofFn fun p : Fin 4 =>
    match (rs.find? fun r => r.position = p.val).bind fun r => r.result.bytes with
    | some bs => .bytes bs
    | none => .lost

/-- The data area of a scanned container when its area CRC can be made to match (R192), with the repair that this takes. -/
def Stripe.scanArea (x : Stripe) : Option (List Byte × Option (Nat × List Byte)) :=
  match x.missing with
  | [] =>
    if areaGood x.layout x.area then some (x.area, none)
    else x.pinpoint.map fun j =>
      (x.areaWith j (x.xorOthers (x.holder j)), some (x.holder j, x.xorOthers (x.holder j)))
  | [p] =>
    let area := match unitOn x.layout.members x.container p with
      | some j => x.areaWith j (x.xorOthers p)
      | none => x.area
    if areaGood x.layout area then some (area, none) else none
  | _ => none

/-- What the scan accepts from a data area (R192). -/
def acceptArea (l : Layout) (c q : Nat) (area : List Byte) : Option Accepted :=
  let dir := area.drop l.chunkSpace
  match parseHeader dir with
  | some (kind, seq, count) =>
    if count ≤ 255 ∧ q < seq then
      let entries := parseEntries dir
      some { container := c, kind := kind, seq := seq, count := count, entries := entries,
             records := if kind = .recipe then
               entries.map fun e => (e.offset, RecipeRec.parse (area.drop e.offset)) else [] }
    else none
  | none => none

/-- A scanned container accepted or not (R192): a repair write is queued for a unit that was wrong. -/
def State.scanned (s : State) (a : Attach) (c : Nat) (rs : List Returned) : State :=
  let x : Stripe := { layout := s.layout, container := c, units := scanUnits rs }
  let a := { a with figures := { a.figures with scanned := tallyUp 61 a.figures.scanned } }
  match x.scanArea.bind fun e => (acceptArea s.layout c s.ckr.q e.1).map fun acc => (acc, e.2) with
  | some (acc, fix) =>
    let s := match fix with
      | some (p, bs) => s.submit p (writeOp .scrub c 0 bs .ckr .repair)
      | none => s
    s.scanNext { a with
      misses := 0, accepted := a.accepted ++ [acc],
      figures := { a.figures with accepted := tallyUp 62 a.figures.accepted } }
  | none => s.scanNext { a with misses := a.misses + 1 }

/-- Execution of REPLAY_SCAN_READ (R192): the units of the container being scanned have come back. -/
def execReplayScanRead (s : State) : Out :=
  .next (match s.ckr.attach with
    | none => s
    | some a =>
      match a.scanning with
      | none => s
      | some c =>
        if a.stage = .scan ∧ s.stillOut (fun j => j = .scanRead) = false then
          let rs := s.returned fun j => j = .scanRead
          (s.dropReturned fun j => j = .scanRead).scanned a c rs
        else s)

/-! ## Attach: the replay (R193) -/

/-- The replay figures changed. -/
def State.countReplay (s : State) (f : Figures → Figures) : State :=
  s.onCkr fun k => { k with attach := k.attach.map fun a => { a with figures := f a.figures } }

/-- A counted answer of IDX. -/
def State.countAnswer (s : State) : State :=
  match s.idx.answer with
  | .conflict => s.countReplay fun f => { f with conflicts := tallyUp 63 f.conflicts }
  | .lost => s.countReplay fun f => { f with lost := tallyUp 64 f.lost }
  | .pinned => s.countReplay fun f => { f with pinned := tallyUp 65 f.pinned }
  | .noEntry => s.countReplay fun f => { f with noEntries := tallyUp 66 f.noEntries }
  | _ => s

/-- A DATA entry applied (R193): CONFLICT and LOST are counted for a NEW entry. -/
def State.applyEntry (s : State) (c : Nat) (e : DirEntry) : State :=
  if e.handle = noHandle then s
  else match e.kind with
    | 0 =>
      let s := s.idxCreate e.handle e.fp c e.offset
      match s.idx.answer with
      | .conflict | .lost => s.countAnswer
      | _ => s
    | 1 => s.idxReplayMove e.handle e.fp c e.offset
    | _ => s

/-- An object as a replayed SEGMENT creates it (R193): OPEN, of kind OTHER, with owner 0 and no album. -/
def Obj.replayed : Obj :=
  { kind := 2, owner := 0, state := .opened, length := 0, chunks := 0, albums := 0, created := 0, sealedAt := 0, map := [],
    stream := none, walk := none, tail := none, recorded := true }

/-- A SEGMENT record applied (R193). Its location joins the map also when the pool has no free slot, of which R193 does not speak
(DESIGN CHOICE, log entry 67). A record that is passed over, its ordinal not being the map's length, shows too that the OPEN object's
stream has copied a SEGMENT record, so that its release places a RELEASE record (R62; DEDUCED, log entry 34). -/
def State.applySegment (s : State) (c off o ord : Nat) (hs : List Nat) : State :=
  let s := if (s.obj o).isSome ∨ o = 0 then s
    else (s.setObj o (some Obj.replayed)).countReplay fun f => { f with created := tallyUp 67 f.created }
  match s.obj o with
  | none => s
  | some r =>
    if r.state = .opened then
      let r := { r with recorded := true }
      if r.map.length = ord then
        let s := (s.setObj o (some { r with map := r.map ++ [{ container := c, offset := off }] })).segRefRaise c
        hs.foldl (fun s h => (s.idxRaise h).countAnswer) s
      else s.setObj o (some r)
    else s

/-- A SEAL record applied (R193). -/
def State.applySeal (s : State) (o len chunks kind owner : Nat) (al : Albums) (segs : Nat) : State :=
  match s.obj o with
  | none => s
  | some r =>
    if r.state = .opened ∧ segs = r.map.length then
      (s.setObj o (some { r with
        state := .sealed, length := len, chunks := chunks, kind := kind, owner := owner, albums := al, stream := none,
        sealedAt := 0 })).countReplay fun f => { f with sealed := tallyUp 68 f.sealed }
    else s

/-- An object that replay frees (R193). -/
def State.replayFree (s : State) (o : Nat) : State :=
  (s.countReplay fun f => { f with released := tallyUp 60 f.released }).finishRelease o

/-- A RELEASE record applied (R193): the object is walked before the next record, from its recorded position if it is RELEASING
and with no walk if it is LOST. -/
def State.applyRelease (s : State) (o : Nat) : State :=
  match s.obj o with
  | none => s
  | some r =>
    if r.state = .lost ∨ (r.state = .releasing ∧ r.walkEnded = true) then s.replayFree o
    else
      let r := if r.state = .releasing then r
        else { r with state := .releasing, stream := none, walk := some Walk.start, tail := none }
      (s.setObj o (some r)).onCkr fun k => { k with attach := k.attach.map fun a => { a with walking := some o } }

/-- One item of replay applied (R193). -/
def State.applyItem (s : State) : ReplayItem → State
  | .entry c e => s.applyEntry c e
  | .record _ _ none => s.countReplay fun f => { f with badRecords := tallyUp 69 f.badRecords }
  | .record c off (some (.segment o ord hs)) => s.applySegment c off o ord hs
  | .record _ _ (some (.closing o len chunks kind owner al segs)) => s.applySeal o len chunks kind owner al segs
  | .record _ _ (some (.albums o al)) =>
    match s.obj o with
    | some r =>
      if r.state = .opened ∨ r.state = .sealed then s.setObj o (some { r with albums := al }) else s
    | none => s
  | .record _ _ (some (.release o)) => s.applyRelease o

/-- The items applied until none is left or an object is to be walked (R193). The fuel is the number of items. -/
def State.applyItems (s : State) : Nat → State
  | 0 => s
  | fuel + 1 =>
    match s.ckr.attach with
    | none => s
    | some a =>
      match a.walking, a.items with
      | none, i :: rest => ((s.setAttach { a with items := rest }).applyItem i).applyItems fuel
      | _, _ => s

/-- The containers have been applied (R194): ORU adjusts the objects, and the walks begin. -/
def State.endReplay (s : State) : State :=
  match s.ckr.attach with
  | none => s
  | some a =>
    if a.walking.isNone ∧ a.items.isEmpty = true then (s.setAttach { a with stage := .walks }).adjustObjects else s

/-- Execution of REPLAY_APPLY (R193). -/
def execReplayApply (s : State) : Out :=
  .next (match s.ckr.attach with
    | none => s
    | some a =>
      if a.stage = .apply ∧ a.walking.isNone = true then (s.applyItems a.items.length).endReplay else s)

/-! ## Attach: its end (R194) -/

/-- Whether every object in the release queue has ended its walk (R194). -/
def State.walksDone (s : State) : Bool := s.oru.queue.all fun o => (s.obj o).all Obj.walkEnded

/-- Remove-if-unreferenced for every NEW and MOVED handle of a directory (R194). -/
def State.removeUnraised (s : State) (es : List DirEntry) : State :=
  (es.filter fun e => e.handle != noHandle && decide (e.kind ≤ 1)).foldl (fun s e => s.idxRemoveIf e.handle) s

/-- The applied DATA containers, in the order in which they were applied (R194). -/
def Attach.dataApplied (a : Attach) : List Nat := (a.applied.filter fun x => x.kind = .data).map fun x => x.container

/-- The directory of the next applied DATA container read again, or, with none left, the containers adjusted and the closing
checkpoint begun (R194). -/
def State.nextDirectory (s : State) (a : Attach) : State :=
  match a.directories with
  | [] => s.closeAttach a
  | c :: rest =>
    (s.setAttach { a with stage := .directories, directories := rest }).newRead .attachDirectory none .read c
      s.layout.chunkSpace directorySize .directory

/-- A directory has been read again (R194): its unraised entries are removed, and the next one is read. A directory that cannot be
read is passed over (R194 does not say: DESIGN CHOICE, log entry 55). -/
def State.directoryRead (s : State) (rep : ReadReport) : State :=
  let s := s.dropReport rep
  let s := match rep.answer with
    | .bytes bs => (s.removeUnraised (parseEntries bs)).bufferDone rep.job
    | _ => s
  match s.ckr.attach with
  | some a => s.nextDirectory a
  | none => s

/-- Execution of REPLAY_WALKS_DONE (R194): the walks have ended; the directories of the applied DATA containers are read again one
by one, entries that no recipe raised are removed, the containers adjusted, and the closing checkpoint begun. -/
def execReplayWalksDone (s : State) : Out :=
  .next (match s.ckr.attach with
    | none => s
    | some a =>
      if a.stage = .walks then
        if s.walksDone then s.nextDirectory { a with directories := a.dataApplied } else s
      else if a.stage = .directories then
        match s.reportFor fun w => w = .attachDirectory with
        | some rep => s.directoryRead rep
        | none => s
      else s)

end Sys2Proof.Machine
end

