-- ==== Sys2Proof/Machine/Link.lean ====
section
/-!
DEFINITION. The commands of the link interface (chapter 11): the receiver, the pending entries, the outbound arbiter.
-/

namespace Sys2Proof.Machine

/-! ## The receiver (R197, R198) -/

/-- The receiver returned to HUNTING with nothing in hand. -/
def Lnk.hunt (l : Lnk) : Lnk := { l with receiver := .hunting, gathered := [], lastSync := false, header := none }

/-- A frame begins at its 0xC3 (R198): it is skipped when HOLD is asserted at that byte. The bytes after the sync in hand are
kept. -/
def Lnk.beginFrame (l : Lnk) (bytes : List Byte) : Lnk :=
  { l with receiver := if l.hold then .skipping else .header, gathered := bytes, lastSync := false, header := none }

/-- Execution of FRAME_SYNC (R198). -/
def execFrameSync (s : State) : Out :=
  .next (if s.lnk.hostPowered ∧ s.lnk.receiver = .hunting then s.onLnk fun l => l.beginFrame [] else s)

/-- The two bytes that begin a frame (R197). -/
def syncBytes : List Byte := [0xC3, 0x3C]

/-- The bytes after the first sync in a run, if it holds one. -/
def afterSync : List Byte → Option (List Byte)
  | x :: y :: rest => if x = 0xC3 ∧ y = 0x3C then some rest else afterSync (y :: rest)
  | _ => none

/-- The receiver hunts through bytes that it has rejected (R198): a sync among them begins a frame, and a last byte of 0xC3 may
be the start of one. HOLD is judged as it stands when the bytes are hunted through again, and not as it stood when that byte
arrived, between which it may have fallen: R198 does not say which (DESIGN CHOICE, log entry 104). -/
def Lnk.rehunt (l : Lnk) (bytes : List Byte) : Lnk :=
  match afterSync bytes with
  | some rest => l.beginFrame rest
  | none => { l.hunt with lastSync := decide (bytes.getLast? = some 0xC3) }

/-- The header that 8 header bytes hold, when its check agrees and its length is at most 16,384 (R197, R198). -/
def headerOf (bs : List Byte) : Option Header :=
  match readFields [1, 1, 2, 2, 2] bs with
  | [kind, flags, tag, len, check] =>
    if check = (crc32 (bs.take 6)).toNat % 65536 ∧ len ≤ 16384 then
      some { kind := kind, flags := flags, tag := tag, length := len }
    else none
  | _ => none

/-- A frame discarded under HOLD (R198): counted, with the LINK notice. -/
def State.frameDiscarded (s : State) : State :=
  (s.onLnk fun l => { l with discarded := tallyUp 3 l.discarded }).noticeLink

/-- The 8 header bytes are in hand (R198). A good header first ends WAKING (R162). -/
def State.headerComplete (s : State) (bs : List Byte) : State :=
  let skipping := decide (s.lnk.receiver = .skipping)
  match headerOf bs with
  | some h =>
    if skipping then s.onLnk fun l => { l with gathered := [], header := some h }
    else s.wakingEnd.onLnk fun l => { l with receiver := .payload, gathered := [], header := some h }
  | none =>
    let s := if skipping then s.frameDiscarded
      else (s.onLnk fun l => { l with headerErrors := tallyUp 0 l.headerErrors }).noticeLink
    s.onLnk fun l => l.rehunt (0x3C :: bs)

/-- Whether the receiver is gathering a header. -/
def Lnk.gathering (l : Lnk) : Bool :=
  decide (l.receiver = .header) || (decide (l.receiver = .skipping) && l.header.isNone)

/-- Execution of HEADER_RECEIVED (R198): header bytes arrive, and with the eighth the header is checked. -/
def execHeaderReceived (bytes : List Byte) (s : State) : Out :=
  .next (if s.lnk.gathering then
      let bs := s.lnk.gathered ++ bytes
      if bs.length < 8 then s.onLnk fun l => { l with gathered := bs } else s.headerComplete (bs.take 8)
    else s)

/-- Execution of FRAME_SKIPPED (R198): the payload of a frame under HOLD has been passed over. -/
def execFrameSkipped (s : State) : Out :=
  .next (if s.lnk.receiver = .skipping ∧ s.lnk.header.isSome = true then (s.onLnk Lnk.hunt).frameDiscarded else s)

/-- Execution of LINE_BREAK (R198). -/
def execLineBreak (s : State) : Out :=
  .next (if s.lnk.receiver = .hunting then s.onLnk Lnk.hunt
    else (s.onLnk fun l => { l.hunt with breaks := tallyUp 1 l.breaks }).noticeLink)

/-! ## Pending entries (R199, R200) -/

/-- The check of a frame (R199): the refusal of the first check that fails. -/
def State.checkFrame (s : State) (h : Header) (payload : List Byte) (crc : Crc) : Option Status :=
  if (0 < h.length ∧ crc32 payload ≠ crc) ∨ h.flags ≠ 0 then some .malformed
  else if !isRequestKind h.kind then some .unknownKind
  else if s.lnk.entries.any fun e => !e.refusal && e.tag = h.tag then some .tagInUse
  else if !lengthGood h.kind h.length then some .malformed
  else if s.ctm.state = .failed ∧ h.kind ≠ kindGetStatus ∧ h.kind ≠ kindGetObject ∧ h.kind ≠ kindSetLamps then
    some .arrayFailed
  else none

/-- The fields of LNK's own refusals: an INGEST_DATA reply always carries its two figures (R203), which name no stream when the
payload gives none. -/
def State.refusalFields (s : State) (h : Header) (payload : List Byte) (crc : Crc) : List Field :=
  if h.kind = kindIngestData then
    s.ingestFigures (if 7 ≤ h.length ∧ crc32 payload = crc then (payload.headD 0).toNat else 8)
  else []

/-- A pending entry taken (R199); the 32nd asserts HOLD. -/
def Lnk.takeEntry (l : Lnk) (e : Entry) : Lnk :=
  { l with entries := l.entries ++ [e], hold := l.hold || decide (32 ≤ l.entries.length + 1) }

/-- The tally of malformed frames (R199). -/
def Lnk.countMalformed (l : Lnk) (st : Status) : Lnk :=
  if st = .malformed then { l with malformed := tallyUp 2 l.malformed } else l

/-- A frame offered by the receiver (R199): refused at once, or handed to its owner (R200). -/
def State.frameOffered (s : State) (h : Header) (payload : List Byte) (crc : Crc) : State :=
  let entry (refusal : Bool) : Entry := { tag := h.tag, kind := h.kind, refusal := refusal }
  match s.checkFrame h payload crc with
  | some st =>
    let reply : Reply :=
      { tag := h.tag, kind := h.kind, status := st, fields := s.refusalFields h payload crc, refusal := true }
    s.onLnk fun l =>
      { (l.takeEntry (entry true)).countMalformed st with replyQueue := l.replyQueue ++ [reply] }
  | none =>
    s.onLnk fun l =>
      { l.takeEntry (entry false) with dispatched := l.dispatched ++ (requestOf h.kind h.tag payload).toList }

/-- Execution of FRAME_RECEIVED (R198, R199): the payload of the frame's length, and its CRC, have been gathered. -/
def execFrameReceived (payload : List Byte) (crc : Crc) (s : State) : Out :=
  .next (match s.lnk.receiver, s.lnk.header with
    | .payload, some h =>
      if payload.length = h.length then (s.onLnk Lnk.hunt).frameOffered h payload crc else s
    | _, _ => s)

/-! ## The outbound lane (R201, R202) -/

/-- The bytes of a frame (R197). -/
def frameBytes (kind flags tag : Nat) (payload : List Byte) : List Byte :=
  let head := leBytes 1 kind ++ leBytes 1 flags ++ leBytes 2 tag ++ leBytes 2 payload.length
  syncBytes ++ head ++ leBytes 2 (crc32 head).toNat ++ payload ++
    (if payload.isEmpty then [] else leBytes 4 (crc32 payload).toNat)

/-- The bytes of a message on the lane (R197, R200, R203). -/
def OutMsg.frame : OutMsg → List Byte
  | .reply r => frameBytes r.kind 1 r.tag (leBytes 1 r.status.code ++ fieldBytes r.fields)
  | .notice slot fs => frameBytes (noticeKind slot) 2 0 (fieldBytes fs)
  | .data i off bs => frameBytes 0x60 3 0 (leBytes 1 i ++ leBytes 6 off ++ bs)

/-- A message begun (R201). -/
def State.begin_ (s : State) (m : OutMsg) : State :=
  s.onLnk fun l => { l with lane := some m, laneBytes := m.frame }

/-- The lowest-numbered pending notice slot (R201). -/
def Lnk.nextNotice (l : Lnk) : Option (Nat × List Field) :=
  (List.range 37).findSome? fun n => (l.notices[n]?.getD none).map fun fs => (n, fs)

/-- A notice begun (R202): its slot is emptied and the block that raised it is told; IGU's finding tallies return to 0 (R146). -/
def State.beginNotice (s : State) (n : Nat) (fs : List Field) : State :=
  let s := (s.onLnk fun l => { l with notices := l.notices.setIfInBounds n none }).begin_ (.notice n fs)
  if n = slotScrub then
    s.onIgu fun g => { g with foundRepaired := 0, foundDamaged := 0, lastFinding := none }
  else s

/-- The read streams in the order of the round-robin (R201): those above the pointer, then the others. -/
def Lnk.streamOrder (l : Lnk) : List Nat := (List.range 16).map fun k => (l.roundRobin + 1 + k) % 16

/-- The next stream to serve, with its message's offset and bytes: one whose bytes are in hand (R181, R201). -/
def State.nextData (s : State) : Option (Nat × Nat × List Byte) :=
  s.lnk.streamOrder.findSome? fun i =>
    (s.reader i).offered.bind fun o => o.bytes.map fun bs => (i, o.offset, bs)

/-- A DATA message begun (R129, R201). -/
def State.beginData (s : State) (i off : Nat) (bs : List Byte) : State :=
  let s := (s.onLnk fun l => { l with roundRobin := i }).begin_ (.data i off bs)
  s.modReader i fun r => { r with offered := none, sending := some bs.length }

/-- The arbiter's choice (R201). -/
def State.arbitrate (s : State) : State :=
  match s.lnk.replyQueue with
  | r :: rest => (s.onLnk fun l => { l with replyQueue := rest }).begin_ (.reply r)
  | [] =>
    match s.lnk.nextNotice with
    | some (n, fs) => s.beginNotice n fs
    | none =>
      match s.nextData with
      | some (i, off, bs) => s.beginData i off bs
      | none => s

/-- Whether the arbiter may choose (R201). -/
def State.mayBegin (s : State) : Bool :=
  s.lnk.lane.isNone && s.lnk.hostPowered && !decide (s.pwc.box = .waking)

/-- Execution of MESSAGE_BEGIN (R201). -/
def execMessageBegin (s : State) : Out := .next (if s.mayBegin then s.arbitrate else s)

/-- A pending entry freed (R199): HOLD is deasserted. -/
def Lnk.freeEntry (l : Lnk) (e : Entry) : Lnk := { l with entries := l.entries.erase e, hold := false }

/-- Execution of REPLY_SENT (R201). -/
def execReplySent (s : State) : Out :=
  .next (match s.lnk.lane with
    | some (.reply r) =>
      s.onLnk fun l =>
        { l.freeEntry { tag := r.tag, kind := r.kind, refusal := r.refusal } with lane := none, laneBytes := [] }
    | _ => s)

/-- Execution of NOTICE_SENT (R201). -/
def execNoticeSent (s : State) : Out :=
  .next (match s.lnk.lane with
    | some (.notice _ _) => s.onLnk fun l => { l with lane := none, laneBytes := [] }
    | _ => s)

end Sys2Proof.Machine
end

