-- ==== Sys2Proof/Machine/Status.lean ====
section
/-!
DEFINITION. GET_STATUS (R204): the figures of each section, in the order in which its rule lists them. Log entry 12 gives the
sizes that R203 and R204 leave open, and log entry 10 what stands for a figure that is absent.
-/

namespace Sys2Proof.Machine

/-- A count or a tally: 4 bytes (R204). -/
def count4 (n : Nat) : Field := ⟨4, n⟩

/-- A truth value as a field. -/
def flag1 (b : Bool) : Field := ⟨1, flag b⟩

/-- A value of a list of two names by its place, 0 for the first (R196; log entry 12). -/
def place1 (first : Bool) : Field := ⟨1, flag !first⟩

/-- Section 0 (R204). HOLD is `asserted or deasserted` (R196). -/
def Lnk.status (l : Lnk) : List Field :=
  [count4 l.entries.length, place1 l.hold, ⟨1, l.receiver.code⟩, count4 l.replyQueue.length,
   count4 (l.notices.toList.filter fun n => n.isSome).length, count4 l.headerErrors, count4 l.breaks, count4 l.malformed,
   count4 l.discarded]

/-- The figures of one ingest stream in section 1 (R204). -/
def Stream.status (t : Stream) : List Field :=
  [⟨1, t.state.code⟩, optField 2 t.object, optField 1 t.k, ⟨6, t.received⟩, ⟨4, t.freeSpace⟩, count4 t.queue.length,
   count4 t.verifying, count4 t.recipe.length, optField 1 (t.cause.map FaultCause.code)]

/-- Section 1 (R204). -/
def Ing.status (g : Ing) : List Field := ⟨1, g.k⟩ :: (g.streams.toList.map Stream.status).flatten

/-- The entries that satisfy a test. -/
def Tables.countEntries (t : Tables) (f : IdxEntry → Bool) : Nat := (t.entries.filter fun e => f e.2).length

/-- Section 2 (R48). While no index is in force every count is 0, the records of the hold list among them, also between a warm reset
and the attach, when the memory still holds the list (R29): R48 gives 0 for B alone (DESIGN CHOICE, log entry 91). -/
def State.statusIdx (s : State) : List Field :=
  let t := s.tables
  let v (n : Nat) : Field := count4 (if s.inUse then n else 0)
  [v t.buckets, v (t.countEntries fun e => e.state = .pending), v (t.countEntries fun e => e.state = .stored),
   v (t.countEntries fun e => e.state = .damaged), v (t.countEntries fun e => e.refcount = pinned),
   v (t.buckets - t.chained.length), v (t.headers.filter fun e => e.2.lost).length, v t.holds.length,
   count4 s.idx.collisions, count4 s.idx.leaked, count4 s.idx.stray]

/-- The objects that are in a state. -/
def Tables.countObjects (t : Tables) (st : ObjState) : Nat := (t.objects.filter fun e => e.2.state = st).length

/-- Section 3 (R67): while no table exists every figure is 0. -/
def State.statusOru (s : State) : List Field :=
  let t := s.tables
  let v (n : Nat) : Field := count4 (if s.inUse then n else 0)
  [v t.objects.length, v (t.countObjects .opened), v (t.countObjects .sealed), v (t.countObjects .releasePending),
   v (t.countObjects .releasing), v (t.countObjects .lost), v s.oru.queue.length, v s.poolFree,
   v ((s.mec.map.map fun m => m.pool).getD 0), v s.oru.skipped, v s.oru.lostCount]

/-- The containers that are in a state. -/
def Tables.countContainers (t : Tables) (st : ContState) : Nat := (t.containers.filter fun e => e.2.state = st).length

/-- Section 4 (R93): while the array is UNFORMED every figure is 0, and while no table is in force those of the tables are. -/
def State.statusCtm (s : State) : List Field :=
  let t := if s.inUse then s.tables else Tables.blank
  let fields : List Field :=
    [optField 1 (s.arr.map fun a => a.layout.code), optField 1 (s.arr.map fun a => a.layout.members),
     ⟨1, s.ctm.state.code⟩, optField 4 (s.arr.map fun a => a.number), optField 4 (s.arr.map fun a => a.reserved),
     optField 4 (s.arr.map fun a => a.containers), optField 6 (s.arr.map fun a => a.seq),
     optField 4 (s.arr.map fun a => a.fence), count4 t.freeList.length, count4 t.quarantine.length,
     count4 (t.countContainers .opened), count4 (t.countContainers .sealing), count4 (t.countContainers .sealed),
     count4 (t.countContainers .draining), count4 (t.containers.filter fun e => e.2.scarred).length,
     flag1 s.ctm.checkpointNeeded, optField 4 (s.ctm.reloc.map fun r => r.source),
     optField 4 (s.ctm.reloc.map fun r => r.cursor), optField 4 (s.ctm.reloc.map fun r => r.moved),
     optField 4 (s.ctm.reloc.map fun r => r.left), count4 s.ctm.repairs, count4 s.ctm.dataLost, count4 s.ctm.degradedReads]
  if s.ctm.state = .unformed then fields.map fun f => { f with value := 0 } else fields

/-- The class of an operation; a STANDBY has none (R97). -/
def opClass (o : Op) : Option Nat := if o.kind = .standby then none else some (classNumber o.cls)

/-- The figures of channel `p` in section 5 (R115). -/
def Channel.status (c : Channel) (p : Nat) : List Field :=
  [⟨1, p⟩, optField 1 c.bay, ⟨1, c.member.state.code⟩, optField 1 (c.member.cause.map failCauseCode),
   count4 c.member.errors] ++
  (c.queues.toList.map fun q => count4 q.length) ++ [count4 (c.waiting.toList.map List.length).sum] ++
  [optField 1 (c.current.map fun o => opKindCode o.kind), optField 1 (c.current.bind opClass),
   optField 1 (c.current.map fun o => flag o.retry), ⟨1, c.frame.length⟩, ⟨1, c.position⟩] ++
  (c.underruns.toList.map count4) ++ [count4 c.retries]

/-- The figures of a bay in section 5 (R115). Sense and presence are carried by their places in `on or off` and `present or
absent` (R109, R196). -/
def Bay.status (b : Bay) : List Field :=
  [flag1 b.enable, place1 b.sense.level, place1 b.presence.level, flag1 b.powerFault]

/-- Section 5 (R115). -/
def State.statusDch (s : State) : List Field :=
  ((List.range 4).map fun p => (s.chan p).status p).flatten ++ (s.pwc.bays.toList.map Bay.status).flatten ++
    [count4 s.pwc.powerFaults, ⟨1, s.pwc.lampMode.code⟩]

/-- The figures of a read stream in section 6 (R135), the states of its chunks in flight last, with no count before them (DESIGN
CHOICE, log entry 12). -/
def ReadStream.status (r : ReadStream) : List Field :=
  [⟨1, r.state.code⟩, optField 2 r.object, optField 1 r.grant, ⟨4, r.position⟩, ⟨6, r.delivered⟩, ⟨6, r.stop⟩] ++
  ((r.reason.map EndReason.code).toList.map fun e => ⟨1, e⟩) ++ r.flights.map fun f => ⟨1, f.state.code⟩

/-- The grants that are in a state. -/
def Rds.countGrants (d : Rds) (st : GrantState) : Nat := (d.grants.toList.filter fun g => g.state = st).length

/-- Section 6 (R135): the streams that are not FREE come one after the other, with no count before them (DESIGN CHOICE, log entry
12). -/
def Rds.status (d : Rds) : List Field :=
  [count4 (d.countGrants .free), count4 (d.countGrants .active), count4 (d.countGrants .expired),
   count4 (d.countGrants .revoked)] ++
  ((d.streams.toList.filter fun r => r.state ≠ .free).map ReadStream.status).flatten ++ d.ends.toList.map count4

/-- Section 7 (R153). -/
def State.statusIgu (s : State) : List Field :=
  let g := s.igu
  [⟨2, g.period⟩, ⟨2, g.timer⟩, ⟨4, s.cursorShown⟩, ⟨4, s.passShown⟩, optField 4 (g.step.map fun st => st.container),
   optField 1 (g.step.map fun st => flag st.reading), count4 g.lag, count4 g.deferred, count4 g.foundRepaired,
   count4 g.foundDamaged] ++ findingFields g.lastFinding ++
  [count4 g.cleanTotal, count4 g.repairedTotal, count4 g.damagedTotal, count4 g.chunksMarked, count4 g.recordsFailed,
   flag1 g.adoption.isSome, optField 1 (g.adoption.map fun a => a.position), optField 1 (g.adoption.map fun a => a.bay),
   optField 6 (g.adoption.bind fun a => a.seq), ⟨4, g.rebuildCursor⟩, count4 g.rebuildDamage]

/-- A wake pattern's settings and last wake in section 8 (R171). -/
def WakePattern.status (p : WakePattern) : List Field :=
  [flag1 p.enabled, ⟨1, p.offset⟩, ⟨1, p.length⟩, ⟨16, leValue p.bytes⟩, ⟨2, p.mask.toNat⟩, ⟨2, p.interval⟩,
   optField 4 (p.lastWake.map fun t => t.toNat)]

/-- Section 8 (R171). HOST_POWER is `asserted or deasserted` and an idle timer `running or idle` (R154). The spin-up queue and the
members in SPINNING_UP are carried one after the other with no count before them, since R171 names none (DESIGN CHOICE, log
entry 12). -/
def State.statusPwc (s : State) : List Field :=
  let w := s.pwc
  [⟨1, w.box.code⟩, optField 1 w.entryStep, place1 w.hostPower, ⟨1, w.grace⟩, optField 1 w.graceTimer, ⟨1, w.limitAsked⟩,
   ⟨1, w.limit⟩] ++
  (w.spinQueue.map fun e => [(⟨1, e.position⟩ : Field), ⟨1, e.attempt⟩]).flatten ++
  (((List.range 4).filter fun p => s.member p = .spinningUp).map fun p => ⟨1, p⟩) ++
  (w.idleTimes.toList.map fun n => ⟨2, n⟩) ++ (w.idleTimers.toList.map place1) ++
  [⟨4, w.time.toNat⟩, optField 4 (w.alarm.map fun t => t.toNat), ⟨6, leValue w.station⟩, flag1 w.broadcast] ++
  (w.patterns.toList.map WakePattern.status).flatten ++ [count4 w.sleeps] ++ w.wakes.toList.map count4 ++
  [count4 w.rejected, count4 w.suppressed]

/-- Section 9 (R183). -/
def Mec.status (m : Mec) : List Field :=
  [⟨1, m.state.code⟩, optField 6 m.size, flag1 m.map.isSome, optField 4 (m.map.map fun x => x.buckets),
   optField 4 (m.map.map fun x => x.containers), optField 4 (m.map.map fun x => x.pool), flag1 m.marker.isSome,
   optField 4 (m.marker.map fun k => k.number), count4 m.freeBuffers, count4 m.bufferQueue.length, count4 m.owed,
   count4 m.corrected, count4 m.overflows] ++ m.uncorrectable.toList.map count4

/-- Section 10 (R185): the slot is A, B or none. -/
def Ckr.status (k : Ckr) : List Field :=
  [⟨1, (k.slot.map Slot.code).getD 2⟩, ⟨6, k.seq⟩, ⟨1, k.op.code⟩] ++ k.figures.fields ++ [⟨6, k.q⟩]

/-- The figures of a section, or none for a number that names no section (R204). -/
def State.statusOf (s : State) : Nat → Option (List Field)
  | 0 => some s.lnk.status
  | 1 => some s.ing.status
  | 2 => some s.statusIdx
  | 3 => some s.statusOru
  | 4 => some s.statusCtm
  | 5 => some s.statusDch
  | 6 => some s.rds.status
  | 7 => some s.statusIgu
  | 8 => some s.statusPwc
  | 9 => some s.mec.status
  | 10 => some s.ckr.status
  | _ => none

/-- GET_STATUS (R204), taken in every state. -/
def State.getStatus (s : State) (tag figures : Nat) : State :=
  match s.statusOf figures with
  | some fs => s.answer tag kindGetStatus .ok fs
  | none => s.refuse tag kindGetStatus .badArgument

/-- Execution of GET_STATUS. -/
def execGetStatus (tag figures : Nat) (s : State) : Out :=
  .next ((s.taken (.getStatus tag figures)).getStatus tag figures)

end Sys2Proof.Machine
end

