-- ==== Sys2Proof/Machine/Resets.lean ====
section
/-!
DEFINITION. The two resets: each block takes the values that its chapter gives for the event.
-/

namespace Sys2Proof.Machine

/-- Execution of POWER_ON_RESET (R154): every block at its power-on values. The commands that wait stay with their sender. -/
def execPowerOnReset (s : State) : Out := .next { State.reset with pending := s.pending }

/-- MEC after a warm reset (R172, R177, R178): state, size, refresh and marker kept, SELF_REFRESH left, the map absent, the pool
whole, waiting bursts discarded and the counts at 0. Refreshes owed are issued at once, with no burst in progress (R176). -/
def Mec.warm (m : Mec) : Mec :=
  let asleep := decide (m.state = .selfRefresh)
  { Mec.powerOn with
    state := if asleep then .ready else m.state, size := m.size, refreshRunning := m.refreshRunning || asleep,
    owed := 0, marker := m.marker, bad := m.bad }

/-- The content of START after a warm reset (R196). -/
def startWarm (m : Mec) : List Field := [⟨1, 1⟩, ⟨1, flag m.marker.isSome⟩, ⟨1, m.state.code⟩, optField 6 m.size]

/-- Execution of WARM_RESET (R196): the memory and its tables are kept and out of use, the time counter runs on, and every block
takes its warm-reset values. -/
def execWarmReset (s : State) : Out :=
  let mec := s.mec.warm
  .next { State.reset with
    lnk := Lnk.resetRecord (startWarm mec), pwc := Pwc.resetRecord s.pwc.time, mec := mec, tables := s.tables,
    mem := s.mem, pending := s.pending }

end Sys2Proof.Machine
end

