-- ==== Sys2Proof/Machine/Dispatch.lean ====
section
/-!
DEFINITION. One arm per command: each is one direct call of the command's meaning.
-/

namespace Sys2Proof.Machine

open Host

/-- What a command does to everything but the queue of waiting commands. -/
def exec (i : Instr) (s : State) : Host.Outcome State Fault Refusal :=
  match i with
  | .openIngest tag kind owner albums => Sys2Proof.Machine.execOpenIngest tag kind owner albums s
  | .ingestData tag stream offset data => Sys2Proof.Machine.execIngestData tag stream offset data s
  | .closeIngest tag stream => Sys2Proof.Machine.execCloseIngest tag stream s
  | .abortIngest tag stream => Sys2Proof.Machine.execAbortIngest tag stream s
  | .setChunking tag k => Sys2Proof.Machine.execSetChunking tag k s
  | .getObject tag id mode => Sys2Proof.Machine.execGetObject tag id mode s
  | .setAlbums tag id albums => Sys2Proof.Machine.execSetAlbums tag id albums s
  | .releaseObject tag id => Sys2Proof.Machine.execReleaseObject tag id s
  | .putGrant tag id albums notAfter allowance limit => Sys2Proof.Machine.execPutGrant tag id albums notAfter allowance limit s
  | .revokeGrant tag id => Sys2Proof.Machine.execRevokeGrant tag id s
  | .getGrant tag id => Sys2Proof.Machine.execGetGrant tag id s
  | .openRead tag object grant start count => Sys2Proof.Machine.execOpenRead tag object grant start count s
  | .stopRead tag stream => Sys2Proof.Machine.execStopRead tag stream s
  | .relocateContainer tag c => Sys2Proof.Machine.execRelocateContainer tag c s
  | .setScrub tag period => Sys2Proof.Machine.execSetScrub tag period s
  | .adoptMember tag bay position => Sys2Proof.Machine.execAdoptMember tag bay position s
  | .sleep tag => Sys2Proof.Machine.execSleep tag s
  | .setPowerPolicy tag idle0 idle1 idle2 idle3 limit grace => Sys2Proof.Machine.execSetPowerPolicy tag idle0 idle1 idle2 idle3 limit grace s
  | .setWakePattern tag number enabled offset length bytes mask interval => Sys2Proof.Machine.execSetWakePattern tag number enabled offset length bytes mask interval s
  | .setStation tag address broadcast => Sys2Proof.Machine.execSetStation tag address broadcast s
  | .setAlarm tag off time => Sys2Proof.Machine.execSetAlarm tag off time s
  | .setTime tag time => Sys2Proof.Machine.execSetTime tag time s
  | .setLamps tag mode => Sys2Proof.Machine.execSetLamps tag mode s
  | .formArray tag layout bayCount bays buckets => Sys2Proof.Machine.execFormArray tag layout bayCount bays buckets s
  | .attachArray tag => Sys2Proof.Machine.execAttachArray tag s
  | .checkpoint tag => Sys2Proof.Machine.execCheckpoint tag s
  | .getStatus tag figures => Sys2Proof.Machine.execGetStatus tag figures s
  | .setServiceFrame tag selector f classes => Sys2Proof.Machine.execSetServiceFrame tag selector f classes s
  | .powerOnReset => Sys2Proof.Machine.execPowerOnReset s
  | .warmReset => Sys2Proof.Machine.execWarmReset s
  | .headerReceived bytes => Sys2Proof.Machine.execHeaderReceived bytes s
  | .frameReceived payload crc => Sys2Proof.Machine.execFrameReceived payload crc s
  | .frameSkipped => Sys2Proof.Machine.execFrameSkipped s
  | .lineBreak => Sys2Proof.Machine.execLineBreak s
  | .messageBegin => Sys2Proof.Machine.execMessageBegin s
  | .replySent => Sys2Proof.Machine.execReplySent s
  | .dataMessageSent => Sys2Proof.Machine.execDataMessageSent s
  | .dataBytesRead stream bad => Sys2Proof.Machine.execDataBytesRead stream bad s
  | .chunkerRun stream => Sys2Proof.Machine.execChunkerRun stream s
  | .lookupIssue stream => Sys2Proof.Machine.execLookupIssue stream s
  | .lookup fp stream => Sys2Proof.Machine.execLookup fp stream s
  | .verifyComplete stream no => Sys2Proof.Machine.execVerifyComplete stream no s
  | .chunkCopyDone stream no => Sys2Proof.Machine.execChunkCopyDone stream no s
  | .queueLeave stream => Sys2Proof.Machine.execQueueLeave stream s
  | .streamSealing stream => Sys2Proof.Machine.execStreamSealing stream s
  | .ringWordError stream position => Sys2Proof.Machine.execRingWordError stream position s
  | .insert fp container offset stream => Sys2Proof.Machine.execInsert fp container offset stream s
  | .collisionInsert fp container offset stream => Sys2Proof.Machine.execCollisionInsert fp container offset stream s
  | .dropHold handle stream reason => Sys2Proof.Machine.execDropHold handle stream reason s
  | .confirmHold handle stream => Sys2Proof.Machine.execConfirmHold handle stream s
  | .raise handle => Sys2Proof.Machine.execRaise handle s
  | .lower handle => Sys2Proof.Machine.execLower handle s
  | .replayCreate handle fp container offset => Sys2Proof.Machine.execReplayCreate handle fp container offset s
  | .removeIfUnreferenced handle => Sys2Proof.Machine.execRemoveIfUnreferenced handle s
  | .stored handle fp container offset => Sys2Proof.Machine.execStored handle fp container offset s
  | .damageMark handle fp => Sys2Proof.Machine.execDamageMark handle fp s
  | .setMove handle fp source destination => Sys2Proof.Machine.execSetMove handle fp source destination s
  | .switchLocation handle fp source destination offset => Sys2Proof.Machine.execSwitchLocation handle fp source destination offset s
  | .location handle => Sys2Proof.Machine.execLocation handle s
  | .indexWordError word => Sys2Proof.Machine.execIndexWordError word s
  | .replayMove handle fp container offset => Sys2Proof.Machine.execReplayMove handle fp container offset s
  | .sumOfLengths container => Sys2Proof.Machine.execSumOfLengths container s
  | .discardMoveDestinations => Sys2Proof.Machine.execDiscardMoveDestinations s
  | .recordRead asker => Sys2Proof.Machine.execRecordRead asker s
  | .recordReadDone asker bad => Sys2Proof.Machine.execRecordReadDone asker bad s
  | .walkStep => Sys2Proof.Machine.execWalkStep s
  | .releaseRecordCopied object => Sys2Proof.Machine.execReleaseRecordCopied object s
  | .objectWordError object => Sys2Proof.Machine.execObjectWordError object s
  | .chunkPlacement who => Sys2Proof.Machine.execChunkPlacement who s
  | .recordPlacement => Sys2Proof.Machine.execRecordPlacement s
  | .placementRetry => Sys2Proof.Machine.execPlacementRetry s
  | .zeroStripeDone => Sys2Proof.Machine.execZeroStripeDone s
  | .forcedSeal => Sys2Proof.Machine.execForcedSeal s
  | .unitWriteDone container position => Sys2Proof.Machine.execUnitWriteDone container position s
  | .stripeWriteComplete => Sys2Proof.Machine.execStripeWriteComplete s
  | .quarantineRelease => Sys2Proof.Machine.execQuarantineRelease s
  | .chunkRead req => Sys2Proof.Machine.execChunkRead req s
  | .unitReadDone id bad => Sys2Proof.Machine.execUnitReadDone id bad s
  | .relocationStep => Sys2Proof.Machine.execRelocationStep s
  | .relocationEnd => Sys2Proof.Machine.execRelocationEnd s
  | .stripeBufferWordError buffer offset => Sys2Proof.Machine.execStripeBufferWordError buffer offset s
  | .containerRecordError word otherBad => Sys2Proof.Machine.execContainerRecordError word otherBad s
  | .operationSubmit position op => Sys2Proof.Machine.execOperationSubmit position op s
  | .dispatch position => Sys2Proof.Machine.execDispatch position s
  | .operationComplete position result => Sys2Proof.Machine.execOperationComplete position result s
  | .operationTimeout position => Sys2Proof.Machine.execOperationTimeout position s
  | .failMember position cause => Sys2Proof.Machine.execFailMember position cause s
  | .standbyRequest position => Sys2Proof.Machine.execStandbyRequest position s
  | .standbyOperationEnd position success => Sys2Proof.Machine.execStandbyOperationEnd position success s
  | .spinupRequest position => Sys2Proof.Machine.execSpinupRequest position s
  | .driveReady position units => Sys2Proof.Machine.execDriveReady position units s
  | .spinupTimeout position => Sys2Proof.Machine.execSpinupTimeout position s
  | .readbackExpire bay => Sys2Proof.Machine.execReadbackExpire bay s
  | .senseChange bay on => Sys2Proof.Machine.execSenseChange bay on s
  | .presenceChange bay present => Sys2Proof.Machine.execPresenceChange bay present s
  | .idleTimerExpire position => Sys2Proof.Machine.execIdleTimerExpire position s
  | .timeTick => Sys2Proof.Machine.execTimeTick s
  | .grantExpire grant => Sys2Proof.Machine.execGrantExpire grant s
  | .alarmFire => Sys2Proof.Machine.execAlarmFire s
  | .lanFrame bytes => Sys2Proof.Machine.execLanFrame bytes s
  | .buttonShort => Sys2Proof.Machine.execButtonShort s
  | .buttonLong => Sys2Proof.Machine.execButtonLong s
  | .entryDrainDone => Sys2Proof.Machine.execEntryDrainDone s
  | .entrySealDone => Sys2Proof.Machine.execEntrySealDone s
  | .entryCheckpointDone => Sys2Proof.Machine.execEntryCheckpointDone s
  | .graceExpire => Sys2Proof.Machine.execGraceExpire s
  | .selfRefreshEntered => Sys2Proof.Machine.execSelfRefreshEntered s
  | .selfRefreshExited => Sys2Proof.Machine.execSelfRefreshExited s
  | .memoryInitDone size => Sys2Proof.Machine.execMemoryInitDone size s
  | .refreshTimerExpire busy => Sys2Proof.Machine.execRefreshTimerExpire busy s
  | .memoryBurst burst => Sys2Proof.Machine.execMemoryBurst burst s
  | .readBufferRequest asker count => Sys2Proof.Machine.execReadBufferRequest asker count s
  | .readBufferReturn asker count => Sys2Proof.Machine.execReadBufferReturn asker count s
  | .regionMapRequest buckets containers => Sys2Proof.Machine.execRegionMapRequest buckets containers s
  | .markerRequest => Sys2Proof.Machine.execMarkerRequest s
  | .seekStep stream => Sys2Proof.Machine.execSeekStep stream s
  | .chunkIssue stream => Sys2Proof.Machine.execChunkIssue stream s
  | .chunkReadReport stream => Sys2Proof.Machine.execChunkReadReport stream s
  | .scrubTimerExpire => Sys2Proof.Machine.execScrubTimerExpire s
  | .scrubStepStart => Sys2Proof.Machine.execScrubStepStart s
  | .scrubReadsDone bad => Sys2Proof.Machine.execScrubReadsDone bad s
  | .repairWriteDone => Sys2Proof.Machine.execRepairWriteDone s
  | .adoptLabelWritten => Sys2Proof.Machine.execAdoptLabelWritten s
  | .checkpointCopyDone => Sys2Proof.Machine.execCheckpointCopyDone s
  | .rebuildStep => Sys2Proof.Machine.execRebuildStep s
  | .rebuildReadsDone bad => Sys2Proof.Machine.execRebuildReadsDone bad s
  | .rebuildWriteDone => Sys2Proof.Machine.execRebuildWriteDone s
  | .rebuildComplete => Sys2Proof.Machine.execRebuildComplete s
  | .formDrivesReady => Sys2Proof.Machine.execFormDrivesReady s
  | .formLabelsWritten => Sys2Proof.Machine.execFormLabelsWritten s
  | .checkpointQuiet => Sys2Proof.Machine.execCheckpointQuiet s
  | .checkpointSealed => Sys2Proof.Machine.execCheckpointSealed s
  | .checkpointUnitWritten position => Sys2Proof.Machine.execCheckpointUnitWritten position s
  | .checkpointEnd => Sys2Proof.Machine.execCheckpointEnd s
  | .attachLabelsRead => Sys2Proof.Machine.execAttachLabelsRead s
  | .slotHeadersRead => Sys2Proof.Machine.execSlotHeadersRead s
  | .slotBodyRead => Sys2Proof.Machine.execSlotBodyRead s
  | .replayScanRead => Sys2Proof.Machine.execReplayScanRead s
  | .replayApply => Sys2Proof.Machine.execReplayApply s
  | .replayWalksDone => Sys2Proof.Machine.execReplayWalksDone s
  | .frameSync => Sys2Proof.Machine.execFrameSync s
  | .noticeSent => Sys2Proof.Machine.execNoticeSent s

end Sys2Proof.Machine
end

