-- ==== Sys2Proof/Safety.lean ====
section
/-!
DEFINITION. What counts as a safe run, in the terms that claims use: a step that completes, the settings that stay in their
ranges, how a request's reply is said, and which commands can reach the memory and its tables.
-/

namespace Sys2Proof.Machine

/-- A command completes on a state: it answers a next state, of which `P` holds. -/
def Completes (c : Instr) (s : State) (P : State → Prop) : Prop := ∃ t, exec c s = .next t ∧ P t

/-- A safe step: it answers a next state. -/
def StepSafe (s : State) : Prop := ∃ t, step s = .next t

/-- The settings that requests change lie in the ranges that their rules clamp them to: the chunk order (R4), the service
frames and their positions (R100, R101), the stream limits of grants (R118), the scrub period and its timer (R136 to R138), the
power policy (R166), the station address and the wake patterns (R168), and the owed refreshes (R176). -/
structure SettingsLegal (s : State) : Prop where
  order : 10 ≤ s.ing.k ∧ s.ing.k ≤ 14
  frame : ∀ p : Fin 4, 4 ≤ s.chans[p].frame.length ∧ s.chans[p].frame.length ≤ 32
  position : ∀ p : Fin 4, s.chans[p].position < s.chans[p].frame.length
  streamLimit : ∀ g : Fin 64, 1 ≤ s.rds.grants[g].limit ∧ s.rds.grants[g].limit ≤ 4
  period : s.igu.period ≤ 65535 ∧ s.igu.timer ≤ s.igu.period
  idleTime : ∀ p : Fin 4, s.pwc.idleTimes[p] ≤ 255
  grace : 1 ≤ s.pwc.grace ∧ s.pwc.grace ≤ 255
  spinLimit : 1 ≤ s.pwc.limit ∧ s.pwc.limit ≤ 4 ∧ 1 ≤ s.pwc.limitAsked ∧ s.pwc.limitAsked ≤ 4
  station : s.pwc.station.length = 6
  pattern : ∀ n : Fin 8, s.pwc.patterns[n].offset ≤ 127 ∧ s.pwc.patterns[n].length ≤ 16 ∧
    s.pwc.patterns[n].bytes.length = 16 ∧ s.pwc.patterns[n].interval ≤ 255
  owed : s.mec.owed ≤ 8

/-- Whether a directory place holds a recipe record other than a SEAL record (R52, R74). -/
def Place.recordNotSeal : Place → Bool
  | .record (.closing ..) _ => false
  | .record _ _ => true
  | _ => false

/-! ## Where chunks are cut (R7 to R10) -/

/-- The last 32 bytes of a chunk so far, the oldest first, with zeros for the bytes before its first one (R7). -/
def chunkWindow (bs : List Byte) : List Byte := (List.replicate 32 0 ++ bs).drop bs.length

/-- The sum A of a chunk so far: the sum of the bytes in the window (R7). -/
def chunkSumA (bs : List Byte) : Nat := ((chunkWindow bs).map fun x => x.toNat).sum % 65536

/-- The sum B of a chunk so far: the sum of the window bytes weighted from 32 for the oldest down to 1 for the newest (R7). -/
def chunkSumB (bs : List Byte) : Nat :=
  ((List.range 32).map fun n => (32 - n) * ((chunkWindow bs).getD n 0).toNat).sum % 65536

/-- Whether the last of a chunk's bytes so far ends the chunk, for the chunk order `k` (R8). -/
abbrev endsChunk (k : Nat) (bs : List Byte) : Prop :=
  (2 ^ (k - 2) ≤ bs.length ∧ chunkSumB bs % 2 ^ k = 2 ^ k - 1) ∨ bs.length = min (2 ^ (k + 2)) 65536

/-- None of the first `n` of some bytes ends a chunk. -/
abbrev noEnd (k n : Nat) (bs : List Byte) : Prop := ∀ m < n, ¬ endsChunk k (bs.take (m + 1))

/-- The bytes of the chunk that a stream's chunker stands inside. -/
def State.chunkBytes (s : State) (i : Nat) : List Byte :=
  s.ringBytes i ((s.stream i).chunked - (s.stream i).curLen) (s.stream i).curLen

/-- The chunker of a stream with chunk order `k` stands inside a chunk, none of whose bytes so far ended it, with its sums, window
and running CRC over them (R7, R8, R10). -/
structure ChunkInHand (s : State) (i k : Nat) : Prop where
  order : (s.stream i).k = some k ∧ 10 ≤ k ∧ k ≤ 14
  taken : (s.stream i).curLen ≤ (s.stream i).chunked
  window : (s.stream i).window = chunkWindow (s.chunkBytes i)
  sumA : (s.stream i).sumA.toNat = chunkSumA (s.chunkBytes i)
  sumB : (s.stream i).sumB.toNat = chunkSumB (s.chunkBytes i)
  crc : (s.stream i).crc = crcRun crcStart (s.chunkBytes i)
  goesOn : noEnd k (s.stream i).curLen (s.chunkBytes i)

/-- Chunk records that follow one another in a stream from offset `a` to offset `b`, each beginning where the last one ended. -/
def ChunkRun (a b : Nat) : List ChunkRec → Prop
  | [] => a = b
  | r :: rs => r.start = a ∧ ChunkRun (a + r.len) b rs

/-- A record that the chunker has made of the bytes of its span: they are the first whole chunk there, or what a draining stream
is left with; it carries the fingerprint of its bytes and waits for its lookup (R8, R9, R10). -/
structure ChunkMade (s : State) (i k : Nat) (r : ChunkRec) : Prop where
  whole : endsChunk k (s.ringBytes i r.start r.len) ∨
    ((s.stream i).state = .draining ∧ r.start + r.len = (s.stream i).received)
  first : noEnd k (r.len - 1) (s.ringBytes i r.start r.len)
  length : 1 ≤ r.len ∧ r.len ≤ min (2 ^ (k + 2)) 65536 ∧
    (2 ^ (k - 2) ≤ r.len ∨ ((s.stream i).state = .draining ∧ r.start + r.len = (s.stream i).received))
  print : r.fp.toNat = (crc32 (s.ringBytes i r.start r.len)).toNat * 65536 + (r.len - 1)
  waits : r.stage = .waitingLookup ∧ r.work = .idle ∧ r.cand = none ∧ r.result = none

/-- A reply that a request's owner makes (R200). -/
def ownerReply (tag kind : Nat) (st : Status) (fields : List Field) : Reply :=
  { tag := tag, kind := kind, status := st, fields := fields, refusal := false }

/-- LNK's record after a request has been taken and answered at once: the request is no longer waiting to be handed over, and
its reply joins the tail of the reply queue if its pending entry still stands (R199, R200). -/
def Lnk.answered (l : Lnk) (c : Instr) (r : Reply) : Lnk :=
  { l with
    dispatched := l.dispatched.erase c,
    replyQueue := if l.holds r.tag r.kind then l.replyQueue ++ [r] else l.replyQueue }

/-- LNK's record after a request has been taken and not yet answered. -/
def Lnk.handedOver (l : Lnk) (c : Instr) : Lnk := { l with dispatched := l.dispatched.erase c }

/-- LNK's record after a notice has been raised (R202). -/
def Lnk.raised (l : Lnk) (slot : Nat) (fields : List Field) : Lnk :=
  { l with notices := l.notices.setIfInBounds slot (some fields) }

/-- A box in RUN with no scrub step pending and with the array, if one is attached, in the state that R69 derives from its
members. -/
abbrev State.settled (s : State) : Prop :=
  s.pwc.box = .run ∧ s.igu.step = none ∧ (s.ctm.state.attached = true → s.derived = s.ctm.state)

/-- A NORMAL array in RUN in which every member but the one at position `p` is ACTIVE, and nothing is being formed, attached,
scrubbed, adopted or rebuilt, and no spin-up waits; the member at `p` is there. -/
abbrev State.calmBut (s : State) (p : Nat) : Prop :=
  s.ctm.state = .normal ∧ s.pwc.box = .run ∧ s.ckr.form = none ∧ s.ckr.attach = none ∧ s.igu.step = none ∧
  s.igu.adoption = none ∧ s.igu.rebuild = none ∧ s.pwc.spinQueue = [] ∧ s.pwc.limit ≤ s.pwc.limitAsked ∧
  p ∈ s.positions ∧ (∀ q ∈ s.positions, q ≠ p → s.member q = .active) ∧ s.member p ≠ .failed ∧ s.member p ≠ .absent

/-- The member at position `p` of an array that was NORMAL has failed with a cause: it is noticed, nothing is queued for it, and
the array is DEGRADED with its notice raised; every other member is as it was (R69, R105). -/
structure MemberLost (s t : State) (p : Nat) (cause : FailCause) : Prop where
  failed : (t.chan p).member.state = .failed ∧ (t.chan p).member.cause = some cause
  emptied : (t.chan p).allQueued = [] ∧ (t.chan p).current = none
  degraded : t.ctm.state = .degraded ∧ t.lnk.notices[2].isSome = true
  noticed : (t.lnk.notices[3 + p]?.getD none).isSome = true
  others : ∀ q, q ≠ p → t.member q = s.member q

/-- The unit reads of a chunk read in a phase have come back, none of them in error at MEC, to a CTM that recovers no container
and an array that has not failed. -/
abbrev State.unitsReturned (s : State) (id : Nat) (j : ReadJob) (who : ReadBy) (f : Fp) (phase : ReadPhase) : Prop :=
  s.readJob id = some j ∧ j.id = id ∧ j.who = .chunk who ∧ j.check = .chunk f ∧ j.phase = phase ∧ j.buffered = none ∧
  j.out ≤ (s.returned (readJobIs id)).length ∧ s.ctm.state ≠ .failed ∧ s.mec.bufferQueue = [] ∧
  ∀ rep ∈ s.ctm.reports, rep.who.recovers = none

/-- A chunk read has been lost (R88): its chunk is DAMAGED, the data-lost tally has risen, and the read is answered DATA_LOST with
the bytes as read where they are in hand. -/
structure State.ReadLost (s t : State) (id : Nat) (who : ReadBy) (h : Nat) (e : IdxEntry) (asRead : Option (List Byte)) :
    Prop where
  ended : t.readJob id = none
  damaged : t.tables.entry h = some { e with state := .damaged }
  others : ∀ p, p ≠ h → getKey t.tables.entries p = getKey s.tables.entries p
  counted : t.ctm.dataLost = tallyUp 11 s.ctm.dataLost
  answered : t.ctm.reports = s.ctm.reports ++ [{ job := id, who := .chunk who, answer := .dataLost asRead }]
  memory : t.mem = s.mem

/-- The bytes that a read stream will deliver of a chunk of a length at its next object offset: those of the chunk that lie in the
stream's range (R127). -/
def ReadStream.wanted (r : ReadStream) (len : Nat) : Nat := min (r.offset + len) r.stop - max r.offset r.start

/-- A read stream can issue its next chunk (R127), whose entry IDX holds undamaged (R44): the stream is RUNNING with no end
reason, with fewer than four chunks in flight, its range not covered, its handle in hand and its stage not stalled (R99). -/
abbrev State.mayIssueNow (s : State) (i h : Nat) (e : IdxEntry) : Prop :=
  (s.reader i).state = .running ∧ (s.reader i).reason = none ∧ (s.reader i).flights.length < 4 ∧
  (s.reader i).offset < (s.reader i).stop ∧ (s.reader i).segRead = .idle ∧ (s.reader i).handleAt = some h ∧
  s.tables.lostPart h = false ∧ s.tables.entry h = some e ∧ e.state ≠ .damaged ∧ s.stalledAt (.readStream i) .read = none

/-- The reads of a scrub step have come back, none of them in error at MEC: the stripe that the step has in hand, of a SEALED
container of an array that has not failed. -/
abbrev State.scrubInHand (s : State) (st : ScrubStep) (v : Container) (x : Stripe) : Prop :=
  s.igu.step = some st ∧ st.started = true ∧ st.outcome = none ∧ s.unitsBack st.units .scrubRead = true ∧
  x.layout = s.layout ∧ x.container = st.container ∧
  x.units = unitsAfter st.units (s.returned fun j => j = .scrubRead) [] st.reread ∧
  (∀ p : Fin 4, unitAt x.units p.val ≠ .out) ∧ s.ctm.state ≠ .failed ∧ s.cont st.container = some v ∧ v.state = .sealed

/-- The data area of a stripe with the unit on a position reconstructed from the others, where that unit is a data unit. -/
def Stripe.areaWithout (x : Stripe) (p : Nat) : List Byte :=
  match unitOn x.layout.members x.container p with
  | some j => x.areaWith j (x.xorOthers p)
  | none => x.area

/-- Replay has one last item to apply, and no object to walk before it. -/
abbrev State.replays (s : State) (a : Attach) (i : ReplayItem) : Prop :=
  s.ckr.attach = some a ∧ a.stage = .apply ∧ a.walking = none ∧ a.items = [i]

/-- An array with every member ACTIVE, nothing being formed, attached, scrubbed, adopted, rebuilt or spun up, in RUN. -/
abbrev State.calm (s : State) : Prop :=
  s.ctm.state = .normal ∧ s.pwc.box = .run ∧ s.ckr.form = none ∧ s.ckr.attach = none ∧ s.igu.step = none ∧
  s.igu.adoption = none ∧ s.igu.rebuild = none ∧ s.pwc.spinQueue = [] ∧ ∀ p ∈ s.positions, s.member p = .active

end Sys2Proof.Machine

namespace Sys2Proof

/-- The commands inside which bytes of the memory can change: those that store bytes (R6, R80, R90, R173, R175), those inside
which a container can be opened in a stripe buffer (R76) or sealed in it (R82), and POWER_ON_RESET. -/
def Instr.mayWriteMemory : Instr → Bool
  | .ingestData .. | .adoptMember .. | .setTime .. | .powerOnReset | .headerReceived .. | .chunkCopyDone ..
  | .chunkPlacement .. | .recordPlacement | .placementRetry | .zeroStripeDone | .forcedSeal | .unitWriteDone ..
  | .relocationStep | .operationComplete .. | .operationTimeout .. | .failMember .. | .standbyRequest ..
  | .standbyOperationEnd .. | .spinupRequest .. | .driveReady .. | .spinupTimeout .. | .readbackExpire ..
  | .senseChange .. | .presenceChange .. | .timeTick | .alarmFire | .lanFrame .. | .buttonShort | .buttonLong
  | .entryDrainDone | .entrySealDone | .entryCheckpointDone | .memoryInitDone .. | .memoryBurst .. | .repairWriteDone
  | .adoptLabelWritten | .checkpointCopyDone | .rebuildWriteDone | .rebuildComplete | .formLabelsWritten
  | .checkpointQuiet | .checkpointUnitWritten .. | .checkpointEnd => true
  | _ => false

/-- Commands that leave every table of the memory as it is: the requests that only ask or set, what the link does, the chunker,
the dispatch of operations, and what MEC does. -/
def Instr.leavesTables : Instr → Bool
  | .ingestData .. | .closeIngest .. | .setChunking .. | .getObject .. | .putGrant .. | .getGrant .. | .setScrub ..
  | .setPowerPolicy .. | .setWakePattern .. | .setStation .. | .setAlarm .. | .setLamps .. | .formArray ..
  | .attachArray .. | .checkpoint .. | .getStatus .. | .setServiceFrame .. | .frameReceived .. | .frameSkipped
  | .lineBreak | .messageBegin | .replySent | .chunkerRun .. | .lookupIssue .. | .verifyComplete .. | .streamSealing ..
  | .ringWordError .. | .location .. | .operationSubmit .. | .dispatch .. | .idleTimerExpire .. | .graceExpire
  | .selfRefreshEntered | .selfRefreshExited | .memoryInitDone .. | .refreshTimerExpire .. | .memoryBurst ..
  | .readBufferRequest .. | .readBufferReturn .. | .regionMapRequest .. | .markerRequest | .checkpointSealed
  | .attachLabelsRead | .frameSync | .noticeSent => true
  | _ => false

/-- The commands inside which an index entry can be made, changed or removed (R29 to R46). -/
def Instr.mayChangeIndex : Instr → Bool
  | .abortIngest .. | .powerOnReset | .lookup .. | .chunkCopyDone .. | .insert .. | .collisionInsert .. | .dropHold ..
  | .raise .. | .lower .. | .replayCreate .. | .removeIfUnreferenced .. | .stored .. | .damageMark .. | .setMove ..
  | .switchLocation .. | .indexWordError .. | .replayMove .. | .discardMoveDestinations | .recordReadDone .. | .walkStep
  | .stripeWriteComplete | .unitReadDone .. | .relocationStep | .stripeBufferWordError .. | .scrubReadsDone ..
  | .rebuildReadsDone .. | .formDrivesReady | .slotHeadersRead | .slotBodyRead | .replayApply | .replayWalksDone => true
  | _ => false

end Sys2Proof
end

