-- ==== Sys2Proof/Certificates/Slice0/Obligations.lean ====
section
/-!
DEFINITION. The statements of this model for the provers, family by family. A statement about a command's effect gives the
next state that the command answers, so that it says where the command completes; an equation with a changed `s` leaves
every other field as it was, and elsewhere the statement names what stays.
-/

section

open Sys2Proof Sys2Proof.Machine


/-! ## The machine as a whole -/

/-- The command at the front of the queue runs, on the state with the queue's rest. The queue of waiting commands is the model's
own (log entry 3). -/
def Obligations.StepRunsFrontCommand : Prop :=
  ∀ (c : Instr) (rest : List Instr) (s : State), s.pending = c :: rest → step s = exec c { s with pending := rest }

/-- On an empty queue the block idles. This is the model's choice (log entry 1). No command touches the queue of the commands
that wait, so that they run in the order in which they came. -/
def Obligations.QueueDiscipline : Prop :=
  (∀ s : State, s.pending = [] → step s = .next s) ∧
  (∀ (c : Instr) (s t : State), exec c s = .next t → t.pending = s.pending)

/-- No command is refused, and only a memory burst that MEC may carry can fault: one that runs past the memory's end or that
R175 does not admit. The two faults are the model's choice (log entry 38). -/
def Obligations.OnlyBurstsStop : Prop :=
  (∀ (c : Instr) (s : State) (r : Refusal), exec c s ≠ .refused r) ∧
  (∀ (c : Instr) (s : State) (f : Fault), exec c s = .fault f → (∃ b, c = .memoryBurst b) ∧ s.mec.state = .ready) ∧
  (∀ (s : State) (b : Burst), s.mec.state = .ready → s.mec.bursts = [] → s.mec.size.getD 0 < b.addr + b.len →
    s.mec.entryAsked = false → exec (.memoryBurst (some b)) s = .fault .noSuchAddress) ∧
  (∀ (s : State) (b : Burst), s.mec.state = .ready → s.mec.bursts = [] → b.addr + b.len ≤ s.mec.size.getD 0 →
    s.mec.entryAsked = false → b.admitted s.mec.map = false → exec (.memoryBurst (some b)) s = .fault .notABurst)

/-- Every step keeps the external memory in its canonical form: addresses strictly rising and no zero byte listed. The form is
the model's own, and a byte that is not listed is zero (log entry 14). -/
def Obligations.StepKeepsMemoryForm : Prop :=
  ∀ s t : State, Memory.wf s.mem = true → step s = .next t → Memory.wf t.mem = true

/-- Every step keeps the settings in the ranges that their rules clamp them to. -/
def Obligations.StepKeepsSettings : Prop :=
  ∀ s t : State, SettingsLegal s → step s = .next t → SettingsLegal t

/-- The memory has its canonical form after reset. The settings are in their ranges after reset. The form of the memory is the
model's own (log entry 14). -/
def Obligations.ResetHoldsInvariants : Prop :=
  (Memory.wf State.reset.mem = true) ∧
  (SettingsLegal State.reset)

/-- Outside the commands inside which bytes are stored or a stripe buffer is taken, no byte of the memory changes. The memory's
unlisted bytes are zero (log entry 14). -/
def Obligations.MemoryBytesStay : Prop :=
  ∀ (c : Instr) (s t : State), exec c s = .next t → c.mayWriteMemory = false →
    t.mem = s.mem ∧ ∀ a, Memory.get t.mem a = Memory.get s.mem a

/-- The settings of the owner move by their own requests and the resets alone: the power policy by SET_POWER_POLICY, the station
address by SET_STATION, the lamp mode by SET_LAMPS, the scrub period by SET_SCRUB, the chunk order by SET_CHUNKING and by
the end of a forming or an attach, the service frames by SET_SERVICE_FRAME, and the wake patterns by SET_WAKE_PATTERN and a
LAN frame. -/
def Obligations.SettingsStand : Prop :=
  ∀ (c : Instr) (s t : State), exec c s = .next t → c ≠ .powerOnReset → c ≠ .warmReset →
    ((∀ tag i j k m l g, c ≠ .setPowerPolicy tag i j k m l g) →
      t.pwc.idleTimes = s.pwc.idleTimes ∧ t.pwc.grace = s.pwc.grace ∧ t.pwc.limitAsked = s.pwc.limitAsked) ∧
    ((∀ tag ad b, c ≠ .setStation tag ad b) → t.pwc.station = s.pwc.station ∧ t.pwc.broadcast = s.pwc.broadcast) ∧
    ((∀ tag m, c ≠ .setLamps tag m) → t.pwc.lampMode = s.pwc.lampMode) ∧
    ((∀ tag p, c ≠ .setScrub tag p) → t.igu.period = s.igu.period) ∧
    ((∀ tag k, c ≠ .setChunking tag k) → c ≠ .checkpointEnd → t.ing.k = s.ing.k) ∧
    ((∀ tag sel f cl, c ≠ .setServiceFrame tag sel f cl) → ∀ p, (t.chan p).frame = (s.chan p).frame) ∧
    ((∀ tag n e o l bs m iv, c ≠ .setWakePattern tag n e o l bs m iv) → (∀ bs, c ≠ .lanFrame bs) →
      t.pwc.patterns = s.pwc.patterns)

/-- The commands that only ask, set, send or schedule leave every table of the memory as it is, but that a burst changes which
words of the tables are bad, and the index entries change in the commands of the index and in those inside which an index
request is made. Nothing but a forming, an attach or a power-on reset changes the layout, the number, the reserved area and the
container count of the array. -/
def Obligations.TablesStand : Prop :=
  (∀ (c : Instr) (s t : State), exec c s = .next t → c.leavesTables = true →
    t.tables = { s.tables with bad := t.tables.bad } ∧ ((∀ b, c ≠ .memoryBurst b) → t.tables = s.tables)) ∧
  (∀ (c : Instr) (s t : State), exec c s = .next t → c.mayChangeIndex = false → c ≠ .warmReset →
    t.tables.entries = s.tables.entries) ∧
  (∀ (c : Instr) (s t : State), exec c s = .next t → c ≠ .powerOnReset → c ≠ .formDrivesReady → c ≠ .slotBodyRead →
    (t.tables.array.map fun a => (a.layout, a.number, a.reserved, a.containers)) =
      s.tables.array.map fun a => (a.layout, a.number, a.reserved, a.containers))

/-- No command but a PUT_GRANT of the grant or a reset changes what a grant admits: its album set, its expiry time, its stream
limit and its installed allowance. No command but a PUT_GRANT of the grant or a reset gives it a larger allowance: a limited
one stays limited and never rises, and an unlimited one stays unlimited. Every PUT_GRANT of the grant is left out here, the
refused ones too; what those do to grants 0 to 63 is said in GrantsBeginAndEnd. -/
def Obligations.GrantsNeverWiden : Prop :=
  (∀ (c : Instr) (s t : State) (g : Nat), exec c s = .next t → c ≠ .powerOnReset → c ≠ .warmReset →
    (∀ tag al na a l, c ≠ .putGrant tag g al na a l) →
    (t.grant g).albums = (s.grant g).albums ∧ (t.grant g).notAfter = (s.grant g).notAfter ∧
      (t.grant g).limit = (s.grant g).limit ∧ (t.grant g).installed = (s.grant g).installed) ∧
  (∀ (c : Instr) (s t : State) (g : Nat), exec c s = .next t → c ≠ .powerOnReset → c ≠ .warmReset →
    (∀ tag al na a l, c ≠ .putGrant tag g al na a l) →
    match (s.grant g).remaining with
    | none => (t.grant g).remaining = none
    | some n => ∃ m, (t.grant g).remaining = some m ∧ m ≤ n)

/-- Only TIME_TICK, SET_TIME and a power-on reset change the time counter. The counter advances by one at each tick, whatever
follows from it. SET_TIME puts it at the given value, and SET_ALARM sets an alarm that lies ahead, or turns it off. What
follows from a tick is gathered in TIME_TICK (log entry 42). -/
def Obligations.TimeCounts : Prop :=
  (∀ (c : Instr) (s t : State), exec c s = .next t → c ≠ .timeTick → c ≠ .powerOnReset → (∀ tag v, c ≠ .setTime tag v) →
    t.pwc.time = s.pwc.time) ∧
  (∀ s : State, Completes .timeTick s fun t => t.pwc.time = s.pwc.time + 1) ∧
  (∀ (s : State) (tag : Nat) (v : Time), s.ctm.state ≠ .failed → s.pwc.alarm = none →
    (∀ g < 64, (s.grant g).state ≠ .active) →
    exec (.setTime tag v) s = .next { s with
      pwc := { s.pwc with time := v },
      lnk := s.lnk.answered (.setTime tag v) (ownerReply tag 0x16 .ok [⟨4, v.toNat⟩]) }) ∧
  (∀ (s : State) (tag : Nat) (v : Time), s.ctm.state ≠ .failed → s.pwc.time < v →
    exec (.setAlarm tag 0 v) s = .next { s with
      pwc := { s.pwc with alarm := some v },
      lnk := s.lnk.answered (.setAlarm tag 0 v) (ownerReply tag 0x15 .ok []) }) ∧
  (∀ (s : State) (tag : Nat) (v : Time), s.ctm.state ≠ .failed →
    exec (.setAlarm tag 1 v) s = .next { s with
      pwc := { s.pwc with alarm := none },
      lnk := s.lnk.answered (.setAlarm tag 1 v) (ownerReply tag 0x15 .ok []) })

/-- What a reset leaves where the manual gives the value: streams, grants and read streams FREE, the chunk order 13 and the
scrub period 30, the array UNFORMED with its members ABSENT, the box in RUN, the default service frame on each channel bound to
its own bay, an idle time of 20 minutes, a grace time of 50 units of 100 ms (5 s) and a spin-up limit of 2, and the START
notice alone pending. POWER_ON_RESET leaves the reset state; WARM_RESET keeps the memory with its tables, the memory's size and
the time, and leaves every other block at its reset values, with the array UNFORMED and its tables out of use. The reset state
also holds the values that the model names where no rule gives one (log entry 13), and the content of START follows log entry
18. -/
def Obligations.ResetsLeave : Prop :=
  ((∀ i : Fin 8, State.reset.ing.streams[i] = Stream.freeRecord) ∧ State.reset.ing.k = 13 ∧
  (∀ g : Fin 64, State.reset.rds.grants[g].state = .free) ∧ (∀ i : Fin 16, State.reset.rds.streams[i].state = .free) ∧
  State.reset.ctm.state = .unformed ∧ State.reset.igu.period = 30 ∧ State.reset.pwc.box = .run ∧
  (∀ p : Fin 4, State.reset.chans[p].bay = some p.val ∧ State.reset.chans[p].member.state = .absent ∧
    State.reset.chans[p].frame = [.read, .write, .read, .verify, .read, .write, .read, .rebuild,
      .read, .write, .verify, .read, .scrub, .write, .verify, .rebuild]) ∧
  (∀ p : Fin 4, State.reset.pwc.idleTimes[p] = 20) ∧ State.reset.pwc.grace = 50 ∧ State.reset.pwc.limit = 2 ∧
  State.reset.pwc.time = 0 ∧ State.reset.pwc.alarm = none ∧ State.reset.mec.state = .initialising ∧
  State.reset.lnk.roundRobin = 15 ∧ (∀ n : Fin 37, (State.reset.lnk.notices[n].isSome = true ↔ n.val = 0))) ∧
  (∀ s : State, exec .powerOnReset s = .next { State.reset with pending := s.pending }) ∧
  (∀ s : State, Completes .warmReset s fun t =>
    t.tables = s.tables ∧ t.mem = s.mem ∧ t.inUse = false ∧ t.pwc = Pwc.resetRecord s.pwc.time ∧
    t.mec.size = s.mec.size ∧ t.mec.marker = s.mec.marker ∧ t.mec.map = none ∧ t.mec.lent = [] ∧
    t.mec.state = (if s.mec.state = .selfRefresh then .ready else s.mec.state) ∧
    t.ing = State.reset.ing ∧ t.ctm = State.reset.ctm ∧ t.rds = State.reset.rds ∧ t.chans = State.reset.chans ∧
    t.igu = State.reset.igu ∧ t.ckr = State.reset.ckr ∧ t.oru = State.reset.oru ∧ t.idx = State.reset.idx ∧
    t.lnk.entries = [] ∧ t.lnk.replyQueue = [] ∧ t.lnk.receiver = .hunting ∧
    (∀ n : Fin 37, (t.lnk.notices[n].isSome = true ↔ n.val = 0)) ∧ t.pending = s.pending)

/-! ## The link -/

/-- The receiver's moves that take no header: a sync begins a frame, or one to be skipped under HOLD; a skipped frame is
counted; a line break returns the receiver to HUNTING and is counted unless it was hunting. With its eighth byte a header is
checked: a good one outside WAKING is kept and its payload awaited; a good one in WAKING with no placement waiting returns
the box to RUN; a bad one is counted, the LINK notice is raised and the receiver hunts again. Bytes beyond a header's eight
are dropped, and a skipped frame with a bad header is counted once (log entry 17). -/
def Obligations.ReceiverReadsHeaders : Prop :=
  (∀ s : State, s.lnk.hostPowered = true → s.lnk.receiver = .hunting →
    exec .frameSync s = .next { s with lnk :=
      { s.lnk with receiver := (if s.lnk.hold then .skipping else .header), gathered := [], lastSync := false,
                   header := none } }) ∧
  (∀ s : State, s.lnk.receiver = .skipping → s.lnk.header.isSome = true →
    Completes .frameSkipped s fun t =>
      t.lnk.receiver = .hunting ∧ t.lnk.header = none ∧ t.lnk.discarded = tallyUp 3 s.lnk.discarded ∧
      t.lnk.notices[1] = some [⟨4, s.lnk.headerErrors⟩, ⟨4, s.lnk.breaks⟩, ⟨4, s.lnk.malformed⟩, ⟨4, t.lnk.discarded⟩] ∧
      t.lnk.entries = s.lnk.entries ∧ t = { s with lnk := t.lnk }) ∧
  (∀ s : State, s.lnk.receiver = .hunting → Completes .lineBreak s fun t =>
    t.lnk = { s.lnk with gathered := [], lastSync := false, header := none } ∧ t = { s with lnk := t.lnk }) ∧
  (∀ s : State, s.lnk.receiver ≠ .hunting → Completes .lineBreak s fun t =>
    t.lnk.receiver = .hunting ∧ t.lnk.breaks = tallyUp 1 s.lnk.breaks ∧
    t.lnk.notices[1] = some [⟨4, s.lnk.headerErrors⟩, ⟨4, t.lnk.breaks⟩, ⟨4, s.lnk.malformed⟩, ⟨4, s.lnk.discarded⟩] ∧
    t.lnk.entries = s.lnk.entries ∧ t = { s with lnk := t.lnk }) ∧
  (∀ (s : State) (bytes : List Byte) (h : Header), s.lnk.receiver = .header → 8 ≤ (s.lnk.gathered ++ bytes).length →
    headerOf ((s.lnk.gathered ++ bytes).take 8) = some h → s.pwc.box ≠ .waking →
    exec (.headerReceived bytes) s = .next { s with lnk :=
      { s.lnk with receiver := .payload, gathered := [], header := some h } }) ∧
  (∀ (s : State) (bytes : List Byte) (h : Header), s.lnk.receiver = .header → 8 ≤ (s.lnk.gathered ++ bytes).length →
    headerOf ((s.lnk.gathered ++ bytes).take 8) = some h → s.pwc.box = .waking → s.ctm.waiting = [] →
    Completes (.headerReceived bytes) s fun t =>
      t.pwc.box = .run ∧ t.pwc.cause = none ∧ t.pwc.laterCauses = 0 ∧ t.lnk.receiver = .payload ∧
      t.lnk.header = some h ∧ (s.pwc.cause.isSome = true → t.lnk.notices[32].isSome = true)) ∧
  (∀ (s : State) (bytes : List Byte), s.lnk.receiver = .header → 8 ≤ (s.lnk.gathered ++ bytes).length →
    headerOf ((s.lnk.gathered ++ bytes).take 8) = none →
    Completes (.headerReceived bytes) s fun t =>
      t.lnk.headerErrors = tallyUp 0 s.lnk.headerErrors ∧ t.lnk.receiver ≠ .payload ∧ t.lnk.header = none ∧
      t.lnk.notices[1] = some [⟨4, t.lnk.headerErrors⟩, ⟨4, s.lnk.breaks⟩, ⟨4, s.lnk.malformed⟩, ⟨4, s.lnk.discarded⟩] ∧
      t.lnk.entries = s.lnk.entries ∧ t = { s with lnk := t.lnk })

/-- The header of a message with a payload of at most 16,384 bytes is one that the block's own receiver reads back: the two sync
bytes, then kind, flags, tag and length with their check. It says that the two sides of the link agree, and not that a bit
has the place that R197 gives. -/
def Obligations.HeaderRoundTrip : Prop :=
  ∀ (kind flags tag : Nat) (payload : List Byte), kind < 256 → flags < 256 → tag < 65536 → payload.length ≤ 16384 →
    (frameBytes kind flags tag payload).take 2 = [0xC3, 0x3C] ∧
    headerOf (((frameBytes kind flags tag payload).drop 2).take 8) =
      some { kind := kind, flags := flags, tag := tag, length := payload.length }

/-- A frame that passes every check takes an unmarked pending entry and is handed to its owner; one that fails a check takes a
marked entry and is answered with the refusal of the first check that fails. The 32nd entry asserts HOLD. A frame's payload
has the length that its header gives (log entry 17). A request handed to its owner waits among the dispatched ones (log
entry 15). -/
def Obligations.FrameTakesEntry : Prop :=
  (∀ (s : State) (h : Header) (payload : List Byte) (crc : Crc), s.lnk.receiver = .payload → s.lnk.header = some h →
    payload.length = h.length → h.flags = 0 → (h.length = 0 ∨ crc32 payload = crc) → 1 ≤ h.kind → h.kind ≤ 0x1C →
    (∀ e ∈ s.lnk.entries, e.refusal = true ∨ e.tag ≠ h.tag) → lengthGood h.kind h.length = true →
    (s.ctm.state ≠ .failed ∨ h.kind = 0x1B ∨ h.kind = 0x06 ∨ h.kind = 0x17) →
    Completes (.frameReceived payload crc) s fun t =>
      t.lnk.entries = s.lnk.entries ++ [{ tag := h.tag, kind := h.kind, refusal := false }] ∧
      t.lnk.dispatched = s.lnk.dispatched ++ (requestOf h.kind h.tag payload).toList ∧
      t.lnk.hold = (s.lnk.hold || decide (32 ≤ s.lnk.entries.length + 1)) ∧ t.lnk.receiver = .hunting ∧
      t.lnk.replyQueue = s.lnk.replyQueue ∧ t.lnk.malformed = s.lnk.malformed ∧ t = { s with lnk := t.lnk }) ∧
  (∀ (s : State) (h : Header) (payload : List Byte) (crc : Crc) (st : Status), s.lnk.receiver = .payload →
    s.lnk.header = some h → payload.length = h.length →
    (st = if (0 < h.length ∧ crc32 payload ≠ crc) ∨ h.flags ≠ 0 then .malformed
      else if h.kind = 0 ∨ 0x1C < h.kind then .unknownKind
      else if ∃ e ∈ s.lnk.entries, e.refusal = false ∧ e.tag = h.tag then .tagInUse
      else if lengthGood h.kind h.length = false then .malformed
      else if s.ctm.state = .failed ∧ h.kind ≠ 0x1B ∧ h.kind ≠ 0x06 ∧ h.kind ≠ 0x17 then .arrayFailed
      else .ok) → st ≠ .ok →
    Completes (.frameReceived payload crc) s fun t =>
      t.lnk.entries = s.lnk.entries ++ [{ tag := h.tag, kind := h.kind, refusal := true }] ∧
      t.lnk.dispatched = s.lnk.dispatched ∧ t.lnk.hold = (s.lnk.hold || decide (32 ≤ s.lnk.entries.length + 1)) ∧
      (∃ r, t.lnk.replyQueue = s.lnk.replyQueue ++ [r] ∧ r.tag = h.tag ∧ r.kind = h.kind ∧ r.status = st) ∧
      t.lnk.malformed = (if st = .malformed then tallyUp 2 s.lnk.malformed else s.lnk.malformed) ∧
      t.lnk.receiver = .hunting ∧ t = { s with lnk := t.lnk })

/-- The outbound arbiter takes the reply at the head of the queue; without one, the pending notice in the lowest slot; without
either, a DATA message whose bytes are in hand, in the round-robin order. A message that has been sent whole leaves the lane
free: a reply frees its pending entry and HOLD is deasserted, a notice frees nothing more, and a DATA message moves its
stream's delivered-to offset and its counts on. The message that the lane sends is kept between its beginning and its end
(log entry 15), and the count of bytes delivered under a grant is a free value past its top (log entry 4). -/
def Obligations.OutboundLane : Prop :=
  (∀ (s : State) (r : Reply) (rest : List Reply), s.lnk.lane = none → s.lnk.hostPowered = true → s.pwc.box ≠ .waking →
    s.lnk.replyQueue = r :: rest →
    exec .messageBegin s = .next { s with lnk :=
      { s.lnk with replyQueue := rest, lane := some (.reply r), laneBytes := OutMsg.frame (.reply r) } }) ∧
  (∀ (s : State) (n : Nat) (fs : List Field), s.lnk.lane = none → s.lnk.hostPowered = true → s.pwc.box ≠ .waking →
    s.lnk.replyQueue = [] → n < 37 → s.lnk.notices[n]? = some (some fs) →
    (∀ m < n, s.lnk.notices[m]? = some none) →
    Completes .messageBegin s fun t =>
      t.lnk = { s.lnk with notices := s.lnk.notices.setIfInBounds n none, lane := some (.notice n fs),
                           laneBytes := OutMsg.frame (.notice n fs) } ∧
      t.igu = (if n = 31 then { s.igu with foundRepaired := 0, foundDamaged := 0, lastFinding := none } else s.igu) ∧
      t = { s with lnk := t.lnk, igu := t.igu }) ∧
  (∀ (s : State) (i off : Nat) (bs : List Byte), s.lnk.lane = none → s.lnk.hostPowered = true → s.pwc.box ≠ .waking →
    s.lnk.replyQueue = [] → (∀ n < 37, s.lnk.notices[n]? = some none) → i < 16 →
    (s.reader i).offered = some { offset := off, length := bs.length, bytes := some bs } →
    (∀ k < (i + 15 - s.lnk.roundRobin) % 16,
      ((s.reader ((s.lnk.roundRobin + 1 + k) % 16)).offered.bind fun o => o.bytes) = none) →
    s.lnk.roundRobin < 16 →
    Completes .messageBegin s fun t =>
      t.lnk.lane = some (.data i off bs) ∧ t.lnk.roundRobin = i ∧ (t.reader i).offered = none ∧
      (t.reader i).sending = some bs.length ∧ (∀ j, j ≠ i → t.reader j = s.reader j) ∧
      t = { s with lnk := t.lnk, rds := t.rds }) ∧
  (∀ (s : State) (r : Reply), s.lnk.lane = some (.reply r) →
    exec .replySent s = .next { s with lnk :=
      { s.lnk with entries := s.lnk.entries.erase { tag := r.tag, kind := r.kind, refusal := r.refusal }, hold := false,
                   lane := none, laneBytes := [] } }) ∧
  (∀ (s : State) (n : Nat) (fs : List Field), s.lnk.lane = some (.notice n fs) →
    exec .noticeSent s = .next { s with lnk := { s.lnk with lane := none, laneBytes := [] } }) ∧
  (∀ (s : State) (i off : Nat) (bs : List Byte) (f : Flight) (fs : List Flight) (g : Nat),
    s.lnk.lane = some (.data i off bs) → i < 16 → (s.reader i).state = .running → (s.reader i).flights = f :: fs →
    (s.reader i).grant = some g → off + bs.length < f.upto →
    Completes .dataMessageSent s fun t =>
      t.lnk = { s.lnk with lane := none, laneBytes := [] } ∧ (t.reader i).state = .running ∧
      (t.reader i).delivered = off + bs.length ∧ (t.reader i).sent = (s.reader i).sent + bs.length ∧
      (t.reader i).sending = none ∧ (t.reader i).flights = { f with sent := off + bs.length } :: fs ∧
      (g < 64 → (t.grant g).delivered = deliveredUp (s.grant g).delivered bs.length) ∧ t = { s with lnk := t.lnk, rds := t.rds }) ∧
  (∀ (s : State) (i : Nat) (o : Offered) (f : Flight) (fs : List Flight), i < 16 → (s.reader i).offered = some o →
    o.bytes = none → (s.reader i).flights = f :: fs →
    Completes (.dataBytesRead i false) s fun t =>
      (t.reader i).offered = some { o with bytes := some ((f.bytes.drop (o.offset - f.base)).take o.length) } ∧
      t = { s with rds := t.rds })

/-- GET_STATUS is answered with the figures of its section and changes nothing else; a number above 10 is refused. The sizes of
the fields are in part the model's choice (log entry 12), and so are the counts of section 2 while no index is in force (log entry
91). -/
def Obligations.GetStatusAnswers : Prop :=
  (∀ (s : State) (tag n : Nat), n ≤ 10 → ∃ fs, s.statusOf n = some fs ∧
    exec (.getStatus tag n) s =
      .next { s with lnk := s.lnk.answered (.getStatus tag n) (ownerReply tag 0x1B .ok fs) }) ∧
  (∀ (s : State) (tag n : Nat), 10 < n →
    exec (.getStatus tag n) s =
      .next { s with lnk := s.lnk.answered (.getStatus tag n) (ownerReply tag 0x1B .badArgument []) })

/-! ## Ingest -/

/-- OPEN_INGEST takes the lowest FREE stream and the first free object id after the cursor; the stream is OPEN at offset 0 with
the chunk order in force, and the object is OPEN with what the request carries. SET_CHUNKING sets the chunk order, clamped
to 10 to 14, and to 13 at most while the array is MIRROR2; open streams keep the order that they copied. The sizes of reply
fields are in part the model's choice (log entry 12), and an owner applies a request whether or not a frame has dispatched
it (log entry 16). The mark that no SEGMENT record of the object has been copied is the model's (log entry 34). -/
def Obligations.IngestOpens : Prop :=
  (∀ (s : State) (tag kind owner : Nat) (albums : Albums) (i o : Nat), kind ≤ 2 → s.running = true → i < 8 →
    (s.stream i).state = .free → (∀ j < i, (s.stream j).state ≠ .free) → s.freeId = some o →
    Completes (.openIngest tag kind owner albums) s fun t =>
      t.stream i = { Stream.freeRecord with
        state := .opened, object := some o, k := some s.ing.k, held := s.ckr.ckpt.isSome } ∧
      (∀ j, j ≠ i → t.stream j = s.stream j) ∧
      t.obj o = some { kind := kind, owner := owner, state := .opened, length := 0, chunks := 0, albums := albums,
                       created := s.pwc.time, sealedAt := 0, map := [], stream := some i, walk := none, tail := none,
                       recorded := false } ∧
      (∀ p, p ≠ o → t.obj p = s.obj p) ∧ t.oru = { s.oru with cursor := o } ∧ t.ing.k = s.ing.k ∧
      t.lnk = s.lnk.answered (.openIngest tag kind owner albums) (ownerReply tag 0x01 .ok [⟨1, i⟩, ⟨2, o⟩]) ∧
      t = { s with lnk := t.lnk, ing := t.ing, oru := t.oru, tables := s.tables.setObj o (t.obj o) }) ∧
  (∀ (s : State) (tag k : Nat),
    let top := if s.inUse = true ∧ (s.tables.array.map fun a => a.layout) = some .mirror2 then 13 else 14
    s.ctm.state ≠ .failed →
    exec (.setChunking tag k) s = .next { s with
      ing := { s.ing with k := max 10 (min top k) },
      lnk := s.lnk.answered (.setChunking tag k) (ownerReply tag 0x05 .ok [⟨1, max 10 (min top k)⟩]) })

/-- INGEST_DATA at the stream's write point takes all its bytes into the ring, and no other byte of the memory changes but in a
bad word that the bytes are written into, whose other bytes are not known (log entry 7); a bad word that they do not touch keeps
its bytes. With too little room in the ring it is answered BUSY and takes nothing. The sizes of reply fields are in part the
model's choice (log entry 12). -/
def Obligations.IngestDataFillsRing : Prop :=
  (∀ (s : State) (tag i : Nat) (data : List Byte), i < 8 → s.running = true → (s.stream i).state = .opened →
    (s.stream i).received + data.length ≤ byteLimit ((s.stream i).k.getD 13) → data.length ≤ (s.stream i).freeSpace →
    Completes (.ingestData tag i (s.stream i).received data) s fun t =>
      (∀ n, n < data.length →
        Memory.get t.mem (ringAddress i ((s.stream i).received + n)) = data[n]?.getD 0) ∧
      (∀ a, (∀ n < data.length, a ≠ ringAddress i ((s.stream i).received + n)) →
        (∀ x ∈ s.mec.bad, ((List.range data.length).any fun n =>
          wordTouches (ringAddress i ((s.stream i).received + n)) 1 x) = true → a < x ∨ x + 8 ≤ a) →
        Memory.get t.mem a = Memory.get s.mem a) ∧
      t.mec = { s.mec with bad := s.mec.bad.filter fun x => !((List.range data.length).any fun n =>
        wordTouches (ringAddress i ((s.stream i).received + n)) 1 x) } ∧
      t.stream i = { s.stream i with received := (s.stream i).received + data.length } ∧
      (∀ j, j ≠ i → t.stream j = s.stream j) ∧ t.ing.k = s.ing.k ∧
      t.lnk = s.lnk.answered (.ingestData tag i (s.stream i).received data)
        (ownerReply tag 0x02 .ok [⟨6, (t.stream i).received⟩, ⟨4, (t.stream i).freeSpace⟩]) ∧
      t = { s with lnk := t.lnk, ing := t.ing, mec := t.mec, mem := t.mem }) ∧
  (∀ (s : State) (tag i : Nat) (data : List Byte), i < 8 → s.running = true → (s.stream i).state = .opened →
    (s.stream i).received + data.length ≤ byteLimit ((s.stream i).k.getD 13) → (s.stream i).freeSpace < data.length →
    exec (.ingestData tag i (s.stream i).received data) s = .next { s with
      lnk := s.lnk.answered (.ingestData tag i (s.stream i).received data)
        (ownerReply tag 0x02 .busy [⟨6, (s.stream i).received⟩, ⟨4, (s.stream i).freeSpace⟩]) })

/-- CLOSE_INGEST makes an OPEN stream DRAINING, to be answered later; ABORT_INGEST of a stream with an empty resolve queue makes
it ABORTING and sends its object into release, with the recipe buffer's handles as its tail list. A drained stream with
nothing left to chunk or resolve becomes SEALING, and its SEAL record is asked for; a memory error in a ring word
that is held faults an OPEN stream with cause MEMORY, and one in a word that is not held changes no stream. The request for
a SEAL record stands in the state until its placement (log entry 15). -/
def Obligations.StreamsEnd : Prop :=
  (∀ (s : State) (tag i : Nat), i < 8 → s.ctm.state ≠ .failed → (s.stream i).state = .opened →
    exec (.closeIngest tag i) s = .next
      ({ s with lnk := s.lnk.handedOver (.closeIngest tag i) }.setStream i
        { s.stream i with state := .draining, closeTag := some tag })) ∧
  (∀ (s : State) (tag i o : Nat) (r : Obj), i < 8 → s.ctm.state ≠ .failed →
    ((s.stream i).state = .opened ∨ (s.stream i).state = .draining ∨ (s.stream i).state = .faulted) →
    (s.stream i).queue = [] → (s.stream i).queued = false → s.waitingReads (ReadWho.isVerifyOf i) = [] →
    (s.stream i).object = some o → (s.stream i).gone = false → s.obj o = some r → r.state = .opened →
    Completes (.abortIngest tag i) s fun t =>
      (t.stream i).state = .aborting ∧ (t.stream i).abortTag = some tag ∧ (t.stream i).recipe = [] ∧
      t.obj o = some { r with state := .releasing, stream := none, tail := some (s.stream i).recipe,
                              walk := some Walk.start } ∧
      o ∈ t.oru.queue ∧ (∀ j, j ≠ i → t.stream j = s.stream j) ∧ (∀ p, p ≠ o → t.obj p = s.obj p) ∧
      t.mem = s.mem ∧ t.tables.entries = s.tables.entries) ∧
  (∀ (s : State) (i : Nat), i < 8 → (s.stream i).readyToSeal = true → (s.stream i).recipe = [] →
    exec (.streamSealing i) s = .next { s.setStream i { s.stream i with state := .sealing } with
      ctm := { s.ctm with recordReqs := s.ctm.recordReqs ++ [.closing i] } }) ∧
  (∀ (s : State) (i q : Nat), i < 8 → (s.stream i).wordHeld q = true → (s.stream i).state = .opened →
    Completes (.ringWordError i q) s fun t =>
      (t.stream i).state = .faulted ∧ (t.stream i).cause = some .memory ∧
      (t.lnk.notices[7 + i]?.getD none).isSome = true ∧ (∀ j, j ≠ i → t.stream j = s.stream j) ∧ t.mem = s.mem ∧
      t.tables = s.tables) ∧
  (∀ (s : State) (i q : Nat), (s.stream i).wordHeld q = false →
    Completes (.ringWordError i q) s fun t => t.ing = s.ing ∧ t = { s with mec := t.mec })

/-- The chunker of an OPEN or DRAINING stream takes every unchunked byte, or stops at a full queue. From where it stands inside
a chunk, with its sums, window and running CRC over the chunk's bytes so far, it cuts the bytes that it takes into chunks one
after another: a chunk ends at the first byte at which the low k bits of the sum B are all ones from 2^(k-2) bytes on, or at
min(2^(k+2), 65536) bytes. Its record carries the fingerprint of its bytes, CRC-32 × 65,536 + (length − 1), and waits for a
lookup, and records already in the queue are left alone. The chunker then stands inside the next chunk in the same way. A
DRAINING stream whose bytes have all been taken closes what is left as its final chunk as soon as the queue has room. -/
def Obligations.ChunkerBounds : Prop :=
  ∀ (s : State) (i k : Nat), i < 8 → (s.stream i).active = true → ChunkInHand s i k →
    (s.stream i).chunked ≤ (s.stream i).received →
    Completes (.chunkerRun i) s fun t =>
      t = s.setStream i (t.stream i) ∧ ChunkInHand t i k ∧
      ((t.stream i).chunked = (s.stream i).received ∨ 32 ≤ (t.stream i).queue.length) ∧
      (s.stream i).chunked ≤ (t.stream i).chunked ∧ (t.stream i).chunked ≤ (s.stream i).received ∧
      (t.stream i).received = (s.stream i).received ∧ (t.stream i).state = (s.stream i).state ∧
      ((s.stream i).state = .draining → (t.stream i).curLen = 0 ∨ 32 ≤ (t.stream i).queue.length) ∧
      ∃ new, (t.stream i).queue = (s.stream i).queue ++ new ∧ (∀ r ∈ new, ChunkMade s i k r) ∧
        ChunkRun ((s.stream i).chunked - (s.stream i).curLen) ((t.stream i).chunked - (t.stream i).curLen) new

/-- The lookup stage issues a lookup for the oldest waiting record, one at a time. A lookup that misses leads to a placement;
one that finds a STORED entry raises its refcount, records the hold and has a VERIFY read made. With four holds of the stream
listed a lookup that would hit is not applied, which is the model's choice (log entry 97). A verify whose bytes equal the
ring's makes its record RESOLVED, with the hold to be confirmed; different bytes have the hold dropped as a collision, and
bytes that cannot be had have it dropped as unreadable. A lookup sent, a read asked for, and a hold to be confirmed or dropped stand
in the state between the steps (log entry 15). With no index in force a request acts on the retained tables, which is the
model's choice (log entry 83). -/
def Obligations.LookupsAndVerifies : Prop :=
  (∀ (s : State) (i : Nat) (r : ChunkRec), (s.stream i).mayLookUp = true → (s.stream i).nextToLookUp = some r →
    s.stalledAt (.ingest i) .verify = none →
    exec (.lookupIssue i) s =
      .next (s.setStream i ((s.stream i).modRec r.no fun r => { r with work := .lookupSent }))) ∧
  (∀ (s : State) (f : Fp) (i : Nat) (r : ChunkRec), i < 8 →
    ((s.stream i).queue.find? fun r => r.work = .lookupSent && r.fp = f) = some r →
    ((s.tables.header (s.tables.bucketOf f)).lost = true ∨
      (s.tables.searchOrder (s.tables.bucketOf f)).find? (s.tables.candidate f) = none) →
    Completes (.lookup f i) s fun t =>
      t.idx = { s.idx with answer := .miss } ∧
      t.stream i = (s.stream i).modRec r.no (fun r => { r with work := .place }) ∧
      t = { s with idx := t.idx, ing := t.ing }) ∧
  (∀ (s : State) (f : Fp) (i h : Nat) (r : ChunkRec) (e : IdxEntry), i < 8 →
    ((s.stream i).queue.find? fun r => r.work = .lookupSent && r.fp = f) = some r →
    (s.tables.header (s.tables.bucketOf f)).lost = false →
    (s.tables.searchOrder (s.tables.bucketOf f)).find? (s.tables.candidate f) = some h →
    s.tables.entry h = some e → e.state = .stored → (s.tables.holds.filter fun x => x.stream = i).length < 4 →
    Completes (.lookup f i) s fun t =>
      t.idx = { s.idx with answer := .hit h .stored e.container e.offset } ∧
      t.tables.entry h = some { e with refcount := raiseCount e.refcount } ∧
      (∀ p, p ≠ h → t.tables.entry p = s.tables.entry p) ∧
      t.tables.holds = s.tables.holds ++ [{ stream := i, handle := h }] ∧
      t.stream i =
        (s.stream i).modRec r.no (fun r => { r with stage := .verifying, cand := some h, work := .reading }) ∧
      t.ctm = { s.ctm with chunkReqs :=
        s.ctm.chunkReqs ++ [{ handle := h, fp := r.fp, cls := .verify, who := .verify i r.no }] }) ∧
  (∀ (s : State) (f : Fp) (i h : Nat), (s.tables.header (s.tables.bucketOf f)).lost = false →
    (s.tables.searchOrder (s.tables.bucketOf f)).find? (s.tables.candidate f) = some h →
    4 ≤ (s.tables.holds.filter fun x => x.stream = i).length → exec (.lookup f i) s = .next s) ∧
  (∀ (s : State) (i no : Nat) (r : ChunkRec) (rep : ReadReport), i < 8 →
    (s.reportFor fun w => w = .chunk (.verify i no)) = some rep → (s.stream i).record no = some r →
    r.work = .reading → (s.stream i).state ≠ .aborting → s.mec.bufferQueue = [] →
    (∀ bs, rep.answer = .bytes bs → bs = s.ringBytes i r.start r.len → Completes (.verifyComplete i no) s fun t =>
      t.stream i = (s.stream i).modRec no (fun r =>
        { r with stage := .resolved, result := r.cand, work := .confirm }) ∧ t.tables = s.tables ∧ t.mem = s.mem) ∧
    (∀ bs, rep.answer = .bytes bs → bs ≠ s.ringBytes i r.start r.len → Completes (.verifyComplete i no) s fun t =>
      t.stream i = (s.stream i).modRec no (fun r => { r with work := .drop .difference }) ∧ t.tables = s.tables ∧
      t.mem = s.mem) ∧
    (rep.answer = .dataLost none → Completes (.verifyComplete i no) s fun t =>
      t.stream i = (s.stream i).modRec no (fun r => { r with work := .drop .unreadable }) ∧ t.tables = s.tables ∧
      t.mem = s.mem))

/-- INSERT, and COLLISION_INSERT after a verify that found different bytes, take the entry that R34 and R36 choose: PENDING,
with refcount 1, at the placed location. The record then waits for its copy. The insertion and the copy that follows it are
steps of their own (log entry 15). A record whose placement has been made goes on to its insertion and its copy in an ABORTING
and in a FAULTED stream too, of which R21 and R22 do not speak: that is the model's choice (log entries 73 and 64). With no index
in force a request acts on the retained tables, which is the model's choice (log entry 83). -/
def Obligations.InsertsCreateEntries : Prop :=
  ∀ (s : State) (f : Fp) (c off i place h : Nat) (r : ChunkRec) (collision : Bool), i < 8 →
    (s.stream i).inserting f c off collision = some (r, place) → s.tables.chooseEntry f = some h →
    Completes (if collision then .collisionInsert f c off i else .insert f c off i) s fun t =>
      t.idx = { s.idx with answer := .inserted h } ∧
      getKey t.tables.entries h =
        some { state := .pending, fp := f, container := c, offset := off, refcount := 1, move := none } ∧
      (∀ p, p ≠ h → getKey t.tables.entries p = getKey s.tables.entries p) ∧
      (∀ v, s.cont c = some v → t.cont c = some { v with live := v.live + fpLength f }) ∧
      t.stream i = (s.stream i).modRec r.no (fun r => { r with work := .copy h c off place }) ∧
      (∀ j, j ≠ i → t.stream j = s.stream j) ∧ t.mem = s.mem ∧ t.tables.holds = s.tables.holds

/-- CHUNK_COPY_DONE finds the chunk's bytes in the stripe buffer of the OPEN container and makes the record RESOLVED with its
handle; its ring span is freed, and a bad word that the copy wrote is good again. In a container that is SEALING the copy leaves
the same bytes, place and record, and no operation of a channel is added, lost or moved. QUEUE_LEAVE moves the handle of a
RESOLVED head to the recipe buffer and counts the chunk. The copy is a step of its own after the placement (log entry 15); what
becomes of a copy into a SEALING container is the model's choice (log entry 11). -/
def Obligations.ChunksAreCopiedAndLeave : Prop :=
  (∀ (s : State) (i no h c off place b : Nat) (r : ChunkRec) (x : StripeBuf) (v : Container), i < 8 →
    (s.stream i).record no = some r → r.work = .copy h c off place → (s.stream i).state ≠ .aborting →
    s.bufferOf c = some b → s.buffer b = some x → b < 4 → s.cont c = some v → v.state = .opened →
    Completes (.chunkCopyDone i no) s fun t =>
      Memory.read t.mem (bufferAddress b off) r.len = s.ringBytes i r.start r.len ∧
      (∀ a, (a < bufferAddress b off ∨ bufferAddress b off + r.len ≤ a) →
        (∀ x ∈ s.mec.bad, a < x ∨ x + 8 ≤ a) → Memory.get t.mem a = Memory.get s.mem a) ∧
      t.mec = { s.mec with bad := s.mec.bad.filter fun x => !wordTouches (bufferAddress b off) r.len x } ∧
      t.buffer b = some { x with places := x.places.set place (.chunk false h r.fp off) } ∧
      t.stream i = ((s.stream i).modRec no fun r =>
        { r with stage := .resolved, cand := none, result := some h, work := .idle }).freeSpan r.start r.len ∧
      t = { s with ing := t.ing, ctm := t.ctm, mec := t.mec, mem := t.mem }) ∧
  (∀ (s : State) (i no h c off place b : Nat) (r : ChunkRec) (x : StripeBuf) (v : Container) (a : ArrayRec), i < 8 →
    (s.stream i).record no = some r → r.work = .copy h c off place → (s.stream i).state ≠ .aborting →
    s.bufferOf c = some b → s.buffer b = some x → b < 4 → s.cont c = some v → v.state = .sealing → s.arr = some a →
    off + r.len ≤ a.layout.chunkSpace →
    Completes (.chunkCopyDone i no) s fun t =>
      Memory.read t.mem (bufferAddress b off) r.len = s.ringBytes i r.start r.len ∧
      t.buffer b = some { x with places := x.places.set place (.chunk false h r.fp off) } ∧
      t.stream i = ((s.stream i).modRec no fun r =>
        { r with stage := .resolved, cand := none, result := some h, work := .idle }).freeSpan r.start r.len ∧
      (∀ p < 4, (t.chan p).current.map (fun o => o.job) = (s.chan p).current.map (fun o => o.job) ∧
        (∀ k, ((t.chan p).queue k).map (fun o => o.job) = ((s.chan p).queue k).map fun o => o.job)) ∧
      t = { s with ing := t.ing, ctm := t.ctm, mec := t.mec, mem := t.mem, chans := t.chans }) ∧
  (∀ (s : State) (i h o : Nat) (r : ChunkRec) (x : Obj), i < 8 → (s.stream i).active = true →
    (s.stream i).queue = [r] → r.stage = .resolved → r.work = .idle → r.result = some h →
    (s.stream i).recipe.length < 4095 → (s.stream i).writingOut = false → (s.stream i).object = some o →
    s.obj o = some x →
    Completes (.queueLeave i) s fun t =>
      (t.stream i).queue = [] ∧ (t.stream i).recipe = (s.stream i).recipe ++ [h] ∧
      t.obj o = some { x with chunks := x.chunks + 1 } ∧ (∀ p, p ≠ o → t.obj p = s.obj p) ∧
      (∀ j, j ≠ i → t.stream j = s.stream j) ∧ t.mem = s.mem ∧ t.ctm = s.ctm ∧ t.lnk = s.lnk)

/-! ## The chunk index -/

/-- LOWER takes a reference away: at 2 or more the count falls; at 1 the entry is removed and its length leaves its container's
live bytes; a pinned entry, a handle in a lost part and an empty one stay as they are, the last two counted; an entry at 0,
which no raise has reached, stays too, and is answered OK, which is the model's choice (log entry 45). A removal that leaves a
stored DATA container with no live byte and no read in flight sends it FREE to the tail of the quarantine list, unless it is the
source of a relocation or being replayed, or a checkpoint holds the change back. The tallies at their top are free values (log
entry 4). With no index in force a request acts on the retained tables, which is the model's choice (log entry 83). -/
def Obligations.ReferenceCounts : Prop :=
  (∀ (s : State) (h : Nat),
    (∀ e, s.tables.lostPart h = false → s.tables.entry h = some e → 2 ≤ e.refcount → e.refcount ≠ 65535 →
      exec (.lower h) s = .next { s with
        tables := s.tables.setEntry h (some { e with refcount := e.refcount - 1 }),
        idx := { s.idx with answer := .ok } }) ∧
    (∀ e v, s.tables.lostPart h = false → s.tables.entry h = some e → e.refcount = 1 →
      s.cont e.container = some v → v.live - fpLength e.fp ≠ 0 → v.kind = .data →
      Completes (.lower h) s fun t =>
        t.idx = { s.idx with answer := .removed } ∧ t.tables.entry h = none ∧
        (∀ p, p ≠ h → getKey t.tables.entries p = getKey s.tables.entries p) ∧
        t.cont e.container = some { v with live := v.live - fpLength e.fp } ∧
        t.tables.quarantine = s.tables.quarantine ∧ t.ctm = s.ctm ∧ t.mem = s.mem) ∧
    (∀ e, s.tables.lostPart h = false → s.tables.entry h = some e → e.refcount = 65535 →
      exec (.lower h) s = .next { s with idx := { s.idx with answer := .pinned } }) ∧
    (∀ e, s.tables.lostPart h = false → s.tables.entry h = some e → e.refcount = 0 →
      exec (.lower h) s = .next { s with idx := { s.idx with answer := .ok } }) ∧
    (s.tables.lostPart h = true →
      exec (.lower h) s = .next { s with idx := { s.idx with leaked := tallyUp 5 s.idx.leaked, answer := .leaked } }) ∧
    (s.tables.lostPart h = false → s.tables.entry h = none →
      exec (.lower h) s = .next { s with idx := { s.idx with stray := tallyUp 6 s.idx.stray, answer := .noEntry } })) ∧
  (∀ (s : State) (h : Nat) (e : IdxEntry) (v : Container), s.tables.lostPart h = false → s.tables.entry h = some e →
    e.refcount = 1 → s.cont e.container = some v → v.state = .sealed → v.kind = .data → v.live = fpLength e.fp →
    v.reads = 0 → s.isSource e.container = false → s.beingReplayed e.container = false → s.ctm.noFree = false →
    Completes (.lower h) s fun t =>
      t.idx.answer = .removed ∧ t.cont e.container = none ∧
      t.tables.quarantine = s.tables.quarantine ++ [e.container] ∧ t.tables.freeList = s.tables.freeList ∧
      (∀ d, d ≠ e.container → t.cont d = s.cont d))

/-- CONFIRM_HOLD takes the hold from the list and leaves the reference with the record; DROP_HOLD takes it and lowers the entry,
counting a collision when the bytes differed, and its record asks for a place as a new chunk. A hold that is not listed is
answered NO_ENTRY with the index unchanged. A confirm of a listed hold is answered OK whatever its handle names, which is the
model's choice (log entry 92). The tally at its top is a free value (log entry 4). With no index in force a request acts on the
retained tables, which is the model's choice (log entry 83). -/
def Obligations.HoldsConfirmOrDrop : Prop :=
  (∀ (s : State) (h i : Nat) (r : ChunkRec), i < 8 → ({ stream := i, handle := h } : Hold) ∈ s.tables.holds →
    ((s.stream i).queue.find? fun r => r.work = .confirm && r.result = some h) = some r →
    exec (.confirmHold h i) s = .next ({ s with
      tables := s.tables.setHolds (s.tables.holds.erase { stream := i, handle := h }),
      idx := { s.idx with answer := .ok } }.setStream i
        ((s.stream i).modRec r.no fun r => { r with work := .idle, cand := none }))) ∧
  (∀ (s : State) (h i : Nat) (r : ChunkRec) (e : IdxEntry), i < 8 → ({ stream := i, handle := h } : Hold) ∈ s.tables.holds →
    s.tables.lostPart h = false → s.tables.entry h = some e → 2 ≤ e.refcount → e.refcount ≠ 65535 →
    ((s.stream i).queue.find? fun r => r.work = .drop .difference && r.cand = some h) = some r →
    (s.stream i).active = true →
    Completes (.dropHold h i .difference) s fun t =>
      t.tables.holds = s.tables.holds.erase { stream := i, handle := h } ∧
      t.tables.entry h = some { e with refcount := e.refcount - 1 } ∧
      (∀ p, p ≠ h → getKey t.tables.entries p = getKey s.tables.entries p) ∧
      t.idx.collisions = tallyUp 4 s.idx.collisions ∧
      t.stream i = (s.stream i).modRec r.no (fun r => { r with work := .place }) ∧ t.ctm = s.ctm) ∧
  (∀ (s : State) (h i : Nat) (reason : HoldReason), ({ stream := i, handle := h } : Hold) ∉ s.tables.holds →
    (Completes (.confirmHold h i) s fun t => t.tables = s.tables ∧ t.idx = { s.idx with answer := .noEntry }) ∧
    ((s.stream i).queue = [] → (s.stream i).state = .opened →
      Completes (.dropHold h i reason) s fun t => t.tables = s.tables ∧ t.idx = { s.idx with answer := .noEntry }))

/-- RAISE adds a reference to an entry below the pinned count; a pinned entry answers PINNED, a handle in a lost part LOST and
an empty one NO_ENTRY, and none of the three changes. REPLAY_CREATE makes an empty slot outside every lost part STORED with
refcount 0 at the given location and adds its length to the container's live bytes; a slot in use answers EXISTS or CONFLICT, a
lost one LOST, and a number that is no handle NO_ENTRY (R26, R30), with nothing changed. A location wider than the entry's fields, which a REPLAY_CREATE may carry, is held whole,
which is the model's choice (log entry 46). With no index in force a request acts on the retained tables, which is the model's
choice (log entry 83). -/
def Obligations.RaisesAndReplayCreates : Prop :=
  (∀ (s : State) (h : Nat),
    (∀ e, s.tables.lostPart h = false → s.tables.entry h = some e → e.refcount < 65535 →
      exec (.raise h) s = .next { s with
        tables := s.tables.setEntry h (some { e with refcount := e.refcount + 1 }),
        idx := { s.idx with answer := .ok } }) ∧
    (∀ e, s.tables.lostPart h = false → s.tables.entry h = some e → e.refcount = 65535 →
      exec (.raise h) s = .next { s with idx := { s.idx with answer := .pinned } }) ∧
    (s.tables.lostPart h = true → exec (.raise h) s = .next { s with idx := { s.idx with answer := .lost } }) ∧
    (s.tables.lostPart h = false → s.tables.entry h = none →
      exec (.raise h) s = .next { s with idx := { s.idx with answer := .noEntry } })) ∧
  (∀ (s : State) (h : Nat) (f : Fp) (c off : Nat),
    (s.tables.isHandle h = true → s.tables.lostPart h = false → s.tables.entry h = none →
      Completes (.replayCreate h f c off) s fun t =>
        t.idx = { s.idx with answer := .ok } ∧
        getKey t.tables.entries h =
          some { state := .stored, fp := f, container := c, offset := off, refcount := 0, move := none } ∧
        (∀ p, p ≠ h → getKey t.tables.entries p = getKey s.tables.entries p) ∧
        (∀ v, s.cont c = some v → t.cont c = some { v with live := v.live + fpLength f }) ∧
        (overflowBase ≤ h → (t.tables.header (s.tables.bucketOf f)).chain =
          (s.tables.header (s.tables.bucketOf f)).chain ++ [h - overflowBase]) ∧
        t = { s with idx := t.idx, tables := t.tables }) ∧
    (∀ e, s.tables.isHandle h = true → s.tables.lostPart h = false → s.tables.entry h = some e →
      exec (.replayCreate h f c off) s =
        .next { s with idx := { s.idx with answer := if e.fp = f then .exists_ else .conflict } }) ∧
    (s.tables.isHandle h = true → s.tables.lostPart h = true →
      exec (.replayCreate h f c off) s = .next { s with idx := { s.idx with answer := .lost } }) ∧
    (s.tables.isHandle h = false →
      exec (.replayCreate h f c off) s = .next { s with idx := { s.idx with answer := .noEntry } }))

/-- REMOVE_IF_UNREFERENCED removes an entry at refcount 0 and keeps every other. STORED makes a PENDING entry with the
fingerprint and the location STORED, answers OK on a DAMAGED one with them and leaves it as it is, and answers NO_ENTRY on an
entry with another fingerprint or location. DAMAGE_MARK makes an entry with the fingerprint DAMAGED and keeps its count and
place, and answers NO_ENTRY on an entry with another fingerprint. With no index in force a request acts on the retained tables,
which is the model's choice (log entry 83). -/
def Obligations.EntryStates : Prop :=
  (∀ (s : State) (h : Nat) (e : IdxEntry), s.tables.lostPart h = false → s.tables.entry h = some e →
    (e.refcount = 0 → Completes (.removeIfUnreferenced h) s fun t =>
      t.idx = { s.idx with answer := .removed } ∧ t.tables.entry h = none ∧
      (∀ p, p ≠ h → getKey t.tables.entries p = getKey s.tables.entries p) ∧ t.mem = s.mem ∧ t.lnk = s.lnk) ∧
    (e.refcount ≠ 0 → exec (.removeIfUnreferenced h) s = .next { s with idx := { s.idx with answer := .kept } })) ∧
  (∀ (s : State) (h : Nat) (f : Fp) (c off : Nat) (e : IdxEntry), s.tables.lostPart h = false →
    s.tables.entry h = some e →
    (e.fp = f → e.container = c → e.offset = off → e.state = .pending →
      exec (.stored h f c off) s = .next { s with
        tables := s.tables.setEntry h (some { e with state := .stored }), idx := { s.idx with answer := .ok } }) ∧
    (e.fp = f → e.container = c → e.offset = off → e.state = .damaged →
      exec (.stored h f c off) s = .next { s with idx := { s.idx with answer := .ok } }) ∧
    ((e.fp ≠ f ∨ e.container ≠ c ∨ e.offset ≠ off) →
      exec (.stored h f c off) s = .next { s with idx := { s.idx with answer := .noEntry } }) ∧
    (e.fp = f → exec (.damageMark h f) s = .next { s with
        tables := s.tables.setEntry h (some { e with state := .damaged }), idx := { s.idx with answer := .ok } }) ∧
    (e.fp ≠ f → exec (.damageMark h f) s = .next { s with idx := { s.idx with answer := .noEntry } }))

/-- SET_MOVE records the destination of a copy; SWITCH_LOCATION gives the entry the new location and moves its length from the
source's live bytes to the destination's, its state unchanged; neither touches an entry that does not match. REPLAY_MOVE gives
an entry with the fingerprint its replayed location; DISCARD_MOVE_DESTINATIONS leaves every entry as it is but for its move
destination, of which none is left. A location or a move destination wider than the entry's fields is held as given, which is
the model's choice (log entry 46). With no index in force a request acts on the retained tables, which is the model's choice
(log entry 83). -/
def Obligations.LocationsMove : Prop :=
  (∀ (s : State) (h : Nat) (f : Fp) (source dest off : Nat) (e : IdxEntry), s.tables.lostPart h = false →
    s.tables.entry h = some e →
    (e.fp = f → e.container = source → exec (.setMove h f source dest) s = .next { s with
      tables := s.tables.setEntry h (some { e with move := some dest }), idx := { s.idx with answer := .ok } }) ∧
    ((e.fp ≠ f ∨ e.container ≠ source) →
      exec (.setMove h f source dest) s = .next { s with idx := { s.idx with answer := .noEntry } }) ∧
    (∀ v w, e.fp = f → e.container = source → e.move = some dest → source ≠ dest → s.cont source = some v →
      v.kind = .data → v.live - fpLength f ≠ 0 → s.cont dest = some w →
      Completes (.switchLocation h f source dest off) s fun t =>
        t.idx = { s.idx with answer := .ok } ∧
        t.tables.entry h = some { e with container := dest, offset := off, move := none } ∧
        (∀ p, p ≠ h → getKey t.tables.entries p = getKey s.tables.entries p) ∧
        t.cont source = some { v with live := v.live - fpLength f } ∧
        t.cont dest = some { w with live := w.live + fpLength f } ∧
        (∀ d, d ≠ source → d ≠ dest → t.cont d = s.cont d) ∧ t.mem = s.mem) ∧
    ((e.fp ≠ f ∨ e.container ≠ source ∨ e.move ≠ some dest) →
      exec (.switchLocation h f source dest off) s = .next { s with idx := { s.idx with answer := .noEntry } })) ∧
  (∀ (s : State) (h : Nat) (f : Fp) (c off : Nat) (e : IdxEntry), s.tables.lostPart h = false →
    s.tables.entry h = some e → e.fp = f →
    Completes (.replayMove h f c off) s fun t =>
      t.idx = { s.idx with answer := .ok } ∧ t.tables.entry h = some { e with container := c, offset := off } ∧
      (∀ p, p ≠ h → getKey t.tables.entries p = getKey s.tables.entries p) ∧ t.mem = s.mem) ∧
  (∀ s : State, Completes .discardMoveDestinations s fun t =>
    (∀ h, getKey t.tables.entries h = (getKey s.tables.entries h).map fun e => { e with move := none }) ∧
    t = { s with tables := { s.tables with entries := t.tables.entries, bad := t.tables.bad } })

/-- While the index exists (R29), LOCATION answers PENDING or STORED with fingerprint, container and offset, DATA_LOST with the
fingerprint for a DAMAGED entry, DATA_LOST in the lost part of a lost bucket, and NO_ENTRY for an empty entry or a number that
is not a handle. -/
def Obligations.LocationAnswers : Prop :=
  ∀ (s : State) (h : Nat), s.inUse = true →
    (s.tables.lostPart h = true →
      exec (.location h) s = .next { s with idx := { s.idx with answer := .dataLost none } }) ∧
    (∀ e, s.tables.lostPart h = false → s.tables.entry h = some e → e.state = .damaged →
      exec (.location h) s = .next { s with idx := { s.idx with answer := .dataLost (some e.fp) } }) ∧
    (∀ e, s.tables.lostPart h = false → s.tables.entry h = some e → e.state ≠ .damaged →
      exec (.location h) s =
        .next { s with idx := { s.idx with answer := .found e.state e.fp e.container e.offset } }) ∧
    (s.tables.lostPart h = false → (s.tables.isHandle h = false ∨ getKey s.tables.entries h = none) →
      exec (.location h) s = .next { s with idx := { s.idx with answer := .noEntry } })

/-- SUM_OF_LENGTHS answers the sum of the lengths of the entries located in a container. INDEX_WORD_ERROR in a way of a bucket
that is not lost makes the bucket lost, with its whole chain in the lost part; an error in one copy of a header changes no
table. The sum is answered at once (log entry 15). With no index in force a sum is taken of the retained entries, LOCATION
answers from them, and an index word error loses the bucket of the retained index, which is the model's choice (log entries 80
and 83). -/
def Obligations.SumsAndLostBuckets : Prop :=
  (∀ (s : State) (c : Nat), (c, true) ∉ s.ctm.recovering →
    exec (.sumOfLengths c) s = .next { s with
      idx := { s.idx with
        answer := .sum ((s.tables.entries.map fun e => if e.2.container = c then fpLength e.2.fp else 0).sum) } }) ∧
  (∀ (s : State) (b w : Nat), b < s.tables.buckets → (s.tables.header b).lost = false →
    Completes (.indexWordError (.way b w)) s fun t =>
      t.tables.header b = { (s.tables.header b) with lost := true, lostCount := (s.tables.header b).chain.length } ∧
      (∀ d, d ≠ b → t.tables.header d = s.tables.header d) ∧ t.tables.entries = s.tables.entries ∧
      t = { s with mec := t.mec, tables := t.tables }) ∧
  (∀ (s : State) (b : Nat) (copy : Bool), Completes (.indexWordError (.header b copy)) s fun t =>
    t = { s with mec := t.mec, tables := { s.tables with bad := t.tables.bad } } ∧
    (∀ w ∈ t.tables.bad, w ∈ s.tables.bad)) ∧
  (∀ (s : State) (h : Nat), s.inUse = false →
    exec (.location h) s = .next { s with idx := { s.idx with answer := s.tables.locate h } })

/-! ## Objects -/

/-- GET_OBJECT in EXACT mode reports the object with the id, in NEXT mode the first one at or above it that the table's list
holds, and changes nothing else; in EXACT mode without such an object, and with no table in force, it is refused. SET_ALBUMS
changes an OPEN object whose SEAL record has not been placed at once, and asks for an ALBUMS record for a SEALED one.
The sizes of the reply's fields are in part the model's choice (log entry 12). -/
def Obligations.ObjectRequests : Prop :=
  (∀ (s : State) (tag id : Nat) (r : Obj), s.inUse = true → s.obj id = some r →
    exec (.getObject tag id 0) s = .next { s with
      lnk := s.lnk.answered (.getObject tag id 0) (ownerReply tag 0x06 .ok (s.objectFields id r)) }) ∧
  (∀ (s : State) (tag id o : Nat) (r : Obj), s.inUse = true →
    (s.tables.objects.find? fun e => id ≤ e.1) = some (o, r) →
    exec (.getObject tag id 1) s = .next { s with
      lnk := s.lnk.answered (.getObject tag id 1) (ownerReply tag 0x06 .ok (s.objectFields o r)) }) ∧
  (∀ (s : State) (tag id mode : Nat), (s.inUse = false ∨ (mode = 0 ∧ s.obj id = none)) →
    exec (.getObject tag id mode) s = .next { s with
      lnk := s.lnk.answered (.getObject tag id mode) (ownerReply tag 0x06 .noSuchObject []) }) ∧
  (∀ (s : State) (tag o : Nat) (albums : Albums) (r : Obj), s.running = true → s.obj o = some r → r.state = .opened →
    s.sealPlaced o = false → Completes (.setAlbums tag o albums) s fun t =>
      t.obj o = some { r with albums := albums } ∧ (∀ p, p ≠ o → t.obj p = s.obj p) ∧
      t.lnk = s.lnk.answered (.setAlbums tag o albums) (ownerReply tag 0x07 .ok [⟨4, albums.toNat⟩]) ∧
      t = { s with lnk := t.lnk, tables := s.tables.setObj o (t.obj o) }) ∧
  (∀ (s : State) (tag o : Nat) (albums : Albums) (r : Obj), s.running = true → s.obj o = some r → r.state = .sealed →
    exec (.setAlbums tag o albums) s = .next { s with
      lnk := s.lnk.handedOver (.setAlbums tag o albums),
      ctm := { s.ctm with recordReqs := s.ctm.recordReqs ++ [.albums tag o albums] } })

/-- RELEASE_OBJECT of a SEALED object marks it with its tag: with no reader it enters RELEASING at the start of its walk and
joins the tail of the release queue; with readers it becomes RELEASE_PENDING. The end of the last stream of a
RELEASE_PENDING object begins the release in the same way. A walk step with the segment's handles in hand lowers the handle
at the walk's index and moves the index on. A walk that has come to the end of the tail list ends: the object's RELEASE record is
asked for, or, for an aborted object no SEGMENT record of which has been copied, the object's slot is FREE at once, its stream is
FREE, and ABORT_INGEST is answered. When the RELEASE record has been copied in an array that is not FAILED the object's
slot is FREE, and its mark and its place in the release queue are gone; a stream that filled it has no object from then on (log
entry 50). In a FAILED array nothing is freed. The segment read by one step is taken by another (log entry 15). The mark that says
whether a RELEASE record will be placed is the model's (log entry 34). -/
def Obligations.ReleasesRun : Prop :=
  (∀ (s : State) (tag o : Nat) (r : Obj), s.running = true → s.obj o = some r → r.state = .sealed →
    getKey s.oru.marks o = none → s.readersOf o = 0 → o ∉ s.oru.queue →
    Completes (.releaseObject tag o) s fun t =>
      t.obj o = some { r with state := .releasing, stream := none, tail := none, recorded := true,
                              walk := some { phase := .segments, ordinal := 0, index := 0, lowered := 0 } } ∧
      (∀ p, p ≠ o → t.obj p = s.obj p) ∧ t.oru.queue = s.oru.queue ++ [o] ∧ getKey t.oru.marks o = some tag ∧
      t.lnk = s.lnk.handedOver (.releaseObject tag o) ∧ t.tables.entries = s.tables.entries ∧ t.ctm = s.ctm) ∧
  (∀ (s : State) (tag o : Nat) (r : Obj), s.running = true → s.obj o = some r → r.state = .sealed →
    getKey s.oru.marks o = none → s.readersOf o ≠ 0 →
    Completes (.releaseObject tag o) s fun t =>
      t.obj o = some { r with state := .releasePending } ∧ t.oru.queue = s.oru.queue ∧
      getKey t.oru.marks o = some tag ∧ t.lnk = s.lnk.handedOver (.releaseObject tag o)) ∧
  (∀ (s : State) (o : Nat) (r : Obj), s.obj o = some r → r.state = .releasePending → s.readersOf o = 1 →
    o ∉ s.oru.queue →
    ((s.readerLower o).obj o).map (fun x => x.state) = some .releasing ∧
      (s.readerLower o).oru.queue = s.oru.queue ++ [o] ∧ (s.readerLower o).readersOf o = 0) ∧
  (∀ (s : State) (o : Nat) (rest : List Nat) (r : Obj) (w : Walk) (hs : List Nat) (h : Nat), s.mayWalk = true →
    s.ckr.attach = none → s.oru.queue = o :: rest → s.obj o = some r → r.walk = some w → w.phase = .segments →
    w.ordinal < r.map.length → s.oru.handles = some hs → hs[w.index]? = some h → w.index + 1 < hs.length →
    Completes .walkStep s fun t =>
      t.obj o = some { r with walk := some { w with index := w.index + 1, lowered := w.lowered + 1 } } ∧
      t.tables.entries = (s.idxLower h).tables.entries ∧ t.idx = (s.idxLower h).idx ∧ t.oru = s.oru ∧
      (∀ p, p ≠ o → t.obj p = s.obj p)) ∧
  (∀ (s : State) (o : Nat) (rest : List Nat) (r : Obj) (w : Walk), s.mayWalk = true → s.ckr.attach = none →
    s.oru.queue = o :: rest → s.obj o = some r → r.walk = some w → w.phase = .tail → r.tail.getD [] = [] →
    (r.recorded = true → o ∉ s.oru.recordAsked → Completes .walkStep s fun t =>
      t.obj o = some { r with walk := some { w with phase := .ended } } ∧ (∀ p, p ≠ o → t.obj p = s.obj p) ∧
      t.oru = { s.oru with recordAsked := s.oru.recordAsked ++ [o] } ∧
      t.ctm = { s.ctm with recordReqs := s.ctm.recordReqs ++ [.release o] } ∧
      t.tables.entries = s.tables.entries ∧ t.tables.containers = s.tables.containers) ∧
    (∀ i tag, r.recorded = false → r.map = [] → i < 8 → (s.stream i).state = .aborting → (s.stream i).object = some o →
      (s.stream i).gone = false → (s.stream i).queued = true → (s.stream i).abortTag = some tag →
      (∀ j < 8, j ≠ i → (s.stream j).object ≠ some o) → getKey s.oru.marks o = none → Completes .walkStep s fun t =>
      t.obj o = none ∧ (∀ p, p ≠ o → t.obj p = s.obj p) ∧ o ∉ t.oru.queue ∧ t.stream i = Stream.freeRecord ∧
      (∀ j, j ≠ i → t.stream j = s.stream j) ∧ (t.lnk.notices[7 + i]?.getD none).isSome = true ∧
      t.lnk.replyQueue = (s.lnk.answered (.abortIngest tag i) (ownerReply tag 0x04 .ok [])).replyQueue ∧
      t.ctm = s.ctm ∧ t.tables.entries = s.tables.entries ∧ t.tables.containers = s.tables.containers)) ∧
  (∀ (s : State) (o tag : Nat) (r : Obj) (w : Walk), o ∈ s.oru.recordCopied → s.obj o = some r → r.walk = some w →
    getKey s.oru.marks o = some tag → (∀ i < 8, (s.stream i).state ≠ .aborting) → s.ctm.state ≠ .failed →
    Completes (.releaseRecordCopied o) s fun t =>
      t.obj o = none ∧ (∀ p, p ≠ o → t.obj p = s.obj p) ∧ o ∉ t.oru.queue ∧ getKey t.oru.marks o = none ∧
      (∀ i < 8, t.stream i = (s.stream i).objectFreed o) ∧
      t.lnk.replyQueue = (s.lnk.answered (.releaseObject tag o)
        (ownerReply tag 0x08 .ok [⟨2, o⟩, ⟨4, w.lowered⟩])).replyQueue) ∧
  (∀ (s : State) (o : Nat), s.ctm.state = .failed → exec (.releaseRecordCopied o) s = .next s)

/-- RECORD_READ begins a read of the SEGMENT record that the asker wants, at the location that the object's map gives for its
ordinal: for the release walk the segment at the walk's position, under the VERIFY class, and for a read stream its next one,
under the READ class. RECORD_READ_DONE, with a record that carries the object and the ordinal asked for, puts its handles in
the asker's hand. A memory error in the slot of a SEALED object makes it LOST and is counted; one in a free slot changes no
object. How many bytes are asked for at first is the model's choice (log entry 47), and the record's bytes are in the model's
packing of the drive formats (log entry 9). -/
def Obligations.RecordReadsAndObjectErrors : Prop :=
  (∀ (s : State) (o : Nat) (r : Obj) (w : Walk) (l : SegLoc), s.oru.walkRead = .wanted → s.walkTarget = some o →
    s.obj o = some r → r.walk = some w → r.state = .releasing → s.ctm.state ≠ .failed → r.map[w.ordinal]? = some l →
    Completes (.recordRead .walk) s fun t =>
      (∃ j, t.readJob s.ctm.nextRead = some j ∧ j.who = .seg .walk ∧ j.container = l.container ∧ j.offset = l.offset ∧
        j.length = s.layout.firstLength l.offset ∧ j.check = .segment o w.ordinal ∧ j.cls = .verify) ∧
      t.oru = { s.oru with walkRead := .reading } ∧ t.ctm.nextRead = s.ctm.nextRead + 1 ∧
      t.tables.objects = s.tables.objects ∧ t.mem = s.mem) ∧
  (∀ (s : State) (i o ord : Nat) (r : Obj) (l : SegLoc), i < 16 → (s.reader i).segRead = .wanted →
    (s.reader i).object = some o → ord = ((s.reader i).seg.map fun g => g.ordinal + 1).getD 0 → s.obj o = some r →
    r.state ≠ .lost → s.ctm.state ≠ .failed → r.map[ord]? = some l →
    Completes (.recordRead (.stream i)) s fun t =>
      (∃ j, t.readJob s.ctm.nextRead = some j ∧ j.who = .seg (.stream i) ∧ j.container = l.container ∧
        j.offset = l.offset ∧ j.length = s.layout.firstLength l.offset ∧ j.check = .segment o ord ∧ j.cls = .read) ∧
      t.reader i = { s.reader i with segRead := .reading } ∧ (∀ k, k ≠ i → t.reader k = s.reader k) ∧
      t.oru = s.oru ∧ t.ctm.nextRead = s.ctm.nextRead + 1 ∧ t.tables.objects = s.tables.objects ∧ t.mem = s.mem) ∧
  (∀ (s : State) (o ord : Nat) (r : Obj) (w : Walk) (hs : List Nat) (bs : List Byte) (j : ReadJob),
    (s.ctm.reads.map fun e => e.2).find? (fun j => j.who = .seg .walk) = some j → j.buffered = some bs →
    j.phase = .reading → j.out = 0 → j.parts = [] → j.check = .segment o ord →
    RecipeRec.parse bs = some (.segment o ord hs) →
    s.ctm.state ≠ .failed → (∀ rep ∈ s.ctm.reports, rep.who ≠ .seg .walk) → s.mec.bufferQueue = [] →
    s.walkTarget = some o → s.obj o = some r → r.walk = some w → w.phase = .segments → w.ordinal = ord →
    Completes (.recordReadDone .walk false) s fun t =>
      t.oru = { s.oru with walkRead := .idle, handles := some hs } ∧ t.obj o = s.obj o ∧ t.mem = s.mem ∧
      t.tables.entries = s.tables.entries) ∧
  (∀ (s : State) (i o ord : Nat) (hs : List Nat) (bs : List Byte) (j : ReadJob), i < 16 →
    (s.ctm.reads.map fun e => e.2).find? (fun j => j.who = .seg (.stream i)) = some j → j.buffered = some bs →
    j.phase = .reading → j.out = 0 → j.parts = [] → j.check = .segment o ord →
    RecipeRec.parse bs = some (.segment o ord hs) →
    s.ctm.state ≠ .failed → (∀ rep ∈ s.ctm.reports, rep.who ≠ .seg (.stream i)) → s.mec.bufferQueue = [] →
    (s.reader i).state = .seeking →
    Completes (.recordReadDone (.stream i) false) s fun t =>
      t.reader i = { s.reader i with
        segRead := .idle, seg := some { ordinal := ord, first := (s.reader i).position, handles := hs } } ∧
      (∀ k, k ≠ i → t.reader k = s.reader k) ∧ t.oru = s.oru ∧ t.mem = s.mem ∧ t.tables.entries = s.tables.entries) ∧
  (∀ (s : State) (o : Nat) (r : Obj), s.inUse = true → s.obj o = some r → r.state = .sealed →
    Completes (.objectWordError o) s fun t =>
      t.obj o = some { r with state := .lost } ∧ (∀ p, p ≠ o → t.obj p = s.obj p) ∧
      t.oru = { s.oru with lostCount := tallyUp 8 s.oru.lostCount } ∧ t.ing = s.ing ∧ t.lnk = s.lnk ∧ t.mem = s.mem) ∧
  (∀ (s : State) (o : Nat), s.obj o = none →
    Completes (.objectWordError o) s fun t =>
      t = { s with mec := t.mec, tables := { s.tables with bad := t.tables.bad } } ∧
      (∀ w ∈ t.tables.bad, w ∈ s.tables.bad))

/-! ## Containers -/

/-- A chunk placement with room in the open DATA container takes the fill offset and the next directory place, which stay the
chunk's; the record then goes on to its insertion. A RELEASE record placed with room in the open RECIPE container, whether
by RECORD_PLACEMENT or by PLACEMENT_RETRY while no stream's forced seal is asked for, lies in the container's stripe buffer at
the fill offset, with its directory place, and ORU is told. A chunk's copy is a step of its own (log entry 15), and the
record's 8 bytes are in the model's packing (log entry 9). -/
def Obligations.PlacementsTakeRoom : Prop :=
  (∀ (s : State) (i no c b : Nat) (r : ChunkRec) (v : Container) (x : StripeBuf), i < 8 → b < 4 →
    s.ctm.state.attached = true → (s.stream i).record no = some r → r.work = .place →
    s.waitsFor .data = false → s.openOf .data = some c → s.cont c = some v → v.fill + r.len ≤ s.layout.chunkSpace →
    v.entries < 255 → s.bufferOf c = some b → s.buffer b = some x →
    Completes (.chunkPlacement (.record i no)) s fun t =>
      t.stream i = (s.stream i).modRec no (fun r => { r with work := .insert c v.fill v.entries }) ∧
      t.cont c = some { v with fill := v.fill + r.len, entries := v.entries + 1 } ∧
      (∀ d, d ≠ c → t.cont d = s.cont d) ∧
      t.buffer b = some { container := c, places := x.places ++ [.empty] } ∧ t.mem = s.mem ∧
      t.tables.entries = s.tables.entries ∧ t.tables.freeList = s.tables.freeList) ∧
  (∀ (s : State) (o c b : Nat) (rest : List RecordReq) (v : Container) (x : StripeBuf) (retry : Bool), b < 4 →
    s.ctm.state.attached = true → s.pwc.box = .run →
    s.streamSealAsked = false →
    (if retry then s.ctm.waiting = [.record (.release o)]
     else s.ctm.waiting = [] ∧ s.ctm.recordReqs = .release o :: rest) →
    s.openOf .recipe = some c → s.cont c = some v → v.fill + 8 ≤ s.layout.chunkSpace → v.entries < 255 →
    s.bufferOf c = some b → s.buffer b = some x →
    Completes (if retry then .placementRetry else .recordPlacement) s fun t =>
      Memory.read t.mem (bufferAddress b v.fill) 8 = (RecipeRec.release o).bytes ∧
      (∀ a, (a < bufferAddress b v.fill ∨ bufferAddress b v.fill + 8 ≤ a) →
        (∀ x ∈ s.mec.bad, a < x ∨ x + 8 ≤ a) → Memory.get t.mem a = Memory.get s.mem a) ∧
      t.buffer b = some { container := c, places := x.places ++ [.record (.release o) v.fill] } ∧
      t.cont c = some { v with fill := v.fill + 8, entries := v.entries + 1 } ∧
      t.oru = { s.oru with recordCopied := s.oru.recordCopied ++ [o] } ∧ t.ctm.waiting = [] ∧
      t.ctm.recordReqs = (if retry then s.ctm.recordReqs else rest))

/-- When every zero write has come back good and no placement waits, the wipe fence is raised. A forced seal for sleep entry
seals an open DATA container that has taken something: it takes the next seal sequence, the counter advances, and a unit write is
issued for every position whose member is neither FAILED nor ABSENT. A unit write that has come back good is no longer out. When
none is out and no copy into the container is still to come, the write of a container with one new chunk makes the chunk STORED
and the container SEALED, and gives its stripe buffer up; the write of a container that holds records, the SEAL record
of a stream among them, makes the stream's object SEALED with the record's length, frees the stream and answers CLOSE_INGEST, and
the container goes FREE to the quarantine list when it has no segment reference and nothing holds it back, and is SEALED
otherwise. That the completion comes after the
copies is the model's (DEDUCED, log entry 71). -/
def Obligations.SealsAndStripeWrites : Prop :=
  (∀ (s : State) (v n : Nat) (a : ArrayRec), s.ctm.zeroing = some (v, n) → s.ctm.waiting = [] →
    (s.returned isZeroJob).length = n → (∀ r ∈ s.returned isZeroJob, r.result = .ok []) →
    s.tables.array = some a →
    Completes .zeroStripeDone s fun t =>
      t.tables.array = some { a with fence := v } ∧ t.ctm = { s.ctm with zeroing := none } ∧
      t.returns = s.returns.filter (fun r => !isZeroJob r.op.job) ∧ t.chans = s.chans ∧ t.mem = s.mem) ∧
  (∀ (s : State) (rest : List SealBy) (c b : Nat) (v : Container) (x : StripeBuf) (a : ArrayRec),
    s.ctm.sealReqs = .sleepEntry :: rest → s.ctm.state.attached = true → s.openOf .data = some c →
    s.cont c = some v → v.fill ≠ 0 → s.bufferOf c = some b → s.buffer b = some x → s.arr = some a →
    s.openOf .recipe = none →
    Completes .forcedSeal s fun t =>
      t.cont c = some { v with state := .sealing, seq := some a.seq } ∧ (∀ d, d ≠ c → t.cont d = s.cont d) ∧
      t.tables.array = some { a with seq := sequenceUp a.seq } ∧
      t.ctm.sealJobs = s.ctm.sealJobs ++ [(.sleepEntry, [c])] ∧ t.ctm.sealReqs = rest ∧
      t.ctm.writes = s.ctm.writes ++ [{
        container := c, seq := a.seq, written := 0,
        out := (List.range a.layout.members).filter fun p => s.member p ≠ .failed && s.member p ≠ .absent }]) ∧
  (∀ (s : State) (c p : Nat) (r : Returned) (bs : List Byte),
    (s.returns.find? fun r => r.isUnitWrite c p) = some r → r.result = .ok bs →
    exec (.unitWriteDone c p) s = .next { s with
      returns := s.returns.erase r,
      ctm := { s.ctm with writes := s.ctm.writes.map fun w =>
        if w.container = c then { w with out := w.out.filter fun q => q ≠ p, written := w.written + 1 } else w } }) ∧
  (∀ (s : State) (w : StripeWrite) (b h off : Nat) (f : Fp) (e : IdxEntry) (v : Container),
    s.nextWrite = some w → w.out = [] → s.ctm.state ≠ .failed → b < 4 →
    s.bufferOf w.container = some b → s.copyPending w.container = false →
    s.buffer b = some { container := w.container, places := [.chunk false h f off] } →
    s.tables.lostPart h = false → s.tables.entry h = some e → e.fp = f → e.container = w.container → e.offset = off →
    e.state = .pending → s.cont w.container = some v → v.state = .sealing → v.kind = .data → v.live ≠ 0 →
    s.ctm.sealJobs = [] →
    Completes .stripeWriteComplete s fun t =>
      t.tables.entry h = some { e with state := .stored } ∧
      (∀ p, p ≠ h → getKey t.tables.entries p = getKey s.tables.entries p) ∧
      t.cont w.container = some { v with state := .sealed } ∧ (∀ d, d ≠ w.container → t.cont d = s.cont d) ∧
      t.buffer b = none ∧ t.ctm.writes = s.ctm.writes.erase w ∧ t.mem = s.mem) ∧
  (∀ (s : State) (w : StripeWrite) (i o b off length chunks kind owner segments tag : Nat) (al : Albums) (v : Container)
    (r : Obj) (ps qs : List Place), s.nextWrite = some w → w.out = [] → s.ctm.state ≠ .failed → b < 4 →
    s.bufferOf w.container = some b → s.copyPending w.container = false → s.buffer b = some {
      container := w.container,
      places := ps ++ .record (.closing o length chunks kind owner al segments) off :: qs } →
    (∀ p ∈ ps ++ qs, p.recordNotSeal = true) →
    s.cont w.container = some v → v.state = .sealing → v.kind = .recipe → i < 8 →
    (s.stream i).state = .sealing → (s.stream i).sealAt = some { container := w.container, offset := off } →
    (∀ j < 8, j ≠ i → (s.stream j).sealAt ≠ some { container := w.container, offset := off }) →
    (s.stream i).object = some o → (s.stream i).closeTag = some tag → s.obj o = some r → r.state = .opened →
    Completes .stripeWriteComplete s fun t =>
      t.obj o = some { r with state := .sealed, length := length, sealedAt := s.pwc.time, stream := none } ∧
      (∀ p, p ≠ o → t.obj p = s.obj p) ∧ t.stream i = Stream.freeRecord ∧ (∀ j, j ≠ i → t.stream j = s.stream j) ∧
      (t.lnk.notices[7 + i]?.getD none).isSome = true ∧
      t.lnk.replyQueue = (s.lnk.answered (.closeIngest tag i) (ownerReply tag 0x03 .ok
        [⟨2, o⟩, ⟨6, length⟩, ⟨4, r.chunks⟩])).replyQueue ∧
      (v.segRefs = 0 → v.reads = 0 → s.isSource w.container = false → s.beingReplayed w.container = false →
        s.ctm.noFree = false →
        t.cont w.container = none ∧ t.tables.quarantine = s.tables.quarantine ++ [w.container]) ∧
      ((v.segRefs ≠ 0 ∨ v.reads ≠ 0 ∨ s.isSource w.container = true ∨ s.beingReplayed w.container = true ∨
          s.ctm.noFree = true) →
        t.cont w.container = some { v with state := .sealed } ∧ t.tables.quarantine = s.tables.quarantine) ∧
      t.tables.freeList = s.tables.freeList ∧ (∀ d, d ≠ w.container → t.cont d = s.cont d) ∧
      t.buffer b = none ∧ t.tables.entries = s.tables.entries ∧ t.mem = s.mem)

/-- A memory error in a word of a stripe buffer's chunk space marks the chunk that overlaps the word. An error in one copy of a
container record changes no table; with both copies of a list link bad and no record among the bad words twice, every FREE
container is on the quarantine list, in ascending order, and the free list is empty. A container record whose copies are both
bad is treated as log entry 36 says. -/
def Obligations.ContainerMemoryErrors : Prop :=
  (∀ (s : State) (k offset c h off : Nat) (f : Fp) (e : IdxEntry) (moved : Bool), k < 4 →
    s.buffer k = some { container := c, places := [.chunk moved h f off] } →
    offset / 8 * 8 < s.layout.chunkSpace → off < offset / 8 * 8 + 8 → offset / 8 * 8 < off + fpLength f →
    s.tables.lostPart h = false → s.tables.entry h = some e → e.fp = f →
    Completes (.stripeBufferWordError k offset) s fun t =>
      t.tables = s.tables.setEntry h (some { e with state := .damaged }) ∧ t.idx.answer = .ok ∧
      t = { s with idx := t.idx, mec := t.mec, tables := t.tables }) ∧
  (∀ (s : State) (w : ContWord), Completes (.containerRecordError w false) s fun t =>
    t = { s with mec := t.mec, tables := { s.tables with bad := t.tables.bad } } ∧
    (∀ w ∈ t.tables.bad, w ∈ s.tables.bad)) ∧
  (∀ (s : State) (n : Nat) (a : ArrayRec), s.inUse = true → s.tables.array = some a →
    (∀ c < a.containers, s.recordBad c = false) →
    Completes (.containerRecordError (.link n) true) s fun t =>
      t.tables.freeList = [] ∧
      t.tables.quarantine = (List.range a.containers).filter (fun c => (s.cont c).isNone) ∧
      t.tables.containers = s.tables.containers ∧
      ((∃ c < a.containers, s.cont c = none) → t.ctm.checkpointNeeded = true))

/-- A chunk read whose handle IDX locates in a container begins a read of the chunk's bytes there, which the container counts
among its reads in flight; one whose handle answers DATA_LOST is answered so at once. A read from a stripe buffer whose
bytes match the fingerprint is answered with them. A read from the array whose units come back is gathered from them, a unit
served degraded being the XOR of the others: bytes that match are answered. A unit that cannot be read is served degraded, and
one whose others cannot all be had loses the read. Bytes that do not match have the units reconstructed one by one, or, where a
unit was served degraded, lose the read: a reconstruction that matches is answered and its unit queued for repair, and after the
last one that does not the read is lost. A lost read marks its chunk DAMAGED, counts, and is answered DATA_LOST. A report
stands in the state until its requester takes it (log entry 15). -/
def Obligations.ChunkReads : Prop :=
  (∀ (s : State) (req : ChunkReq) (st : EntryState) (f : Fp) (c off : Nat) (v : Container), req ∈ s.ctm.chunkReqs →
    s.ctm.state ≠ .failed → s.tables.locate req.handle = .found st f c off → s.cont c = some v →
    s.keptBuffer req.who = none →
    Completes (.chunkRead req) s fun t =>
      (∃ j, t.readJob s.ctm.nextRead = some j ∧ j.who = .chunk req.who ∧ j.container = c ∧ j.offset = off ∧
        j.length = fpLength req.fp ∧ j.check = .chunk req.fp) ∧
      t.cont c = some { v with reads := v.reads + 1 } ∧ (∀ d, d ≠ c → t.cont d = s.cont d) ∧
      t.ctm.nextRead = s.ctm.nextRead + 1 ∧ t.ctm.chunkReqs = s.ctm.chunkReqs.erase req ∧ t.mem = s.mem ∧
      t.tables.entries = s.tables.entries) ∧
  (∀ (s : State) (req : ChunkReq) (f : Option Fp), req ∈ s.ctm.chunkReqs → s.ctm.state ≠ .failed →
    s.tables.locate req.handle = .dataLost f →
    exec (.chunkRead req) s = .next { s with
      ctm := { s.ctm with
        chunkReqs := s.ctm.chunkReqs.erase req,
        reports := s.ctm.reports ++
          [{ job := s.ctm.nextRead, who := .chunk req.who, answer := .dataLost none }] } }) ∧
  (∀ (s : State) (id : Nat) (j : ReadJob) (who : ReadBy) (f : Fp) (bs : List Byte), s.readJob id = some j →
    j.id = id → j.who = .chunk who → j.phase = .reading → j.buffered = some bs → j.out = 0 → j.parts = [] →
    j.check = .chunk f → matchesFp f bs = true → s.ctm.state ≠ .failed → s.mec.bufferQueue = [] →
    (∀ rep ∈ s.ctm.reports, rep.who.recovers = none) →
    Completes (.unitReadDone id false) s fun t =>
      t.readJob id = none ∧
      t.ctm.reports = s.ctm.reports ++ [{ job := id, who := .chunk who, answer := .bytes bs }] ∧
      t.tables.entries = s.tables.entries ∧ t.mem = s.mem) ∧
  (∀ (s : State) (id : Nat) (j : ReadJob) (who : ReadBy) (f : Fp) (bs : List Byte) (v : Container),
    s.unitsReturned id j who f .reading → gathered (partsBack j (s.returned (readJobIs id))) = some bs →
    (∀ p ∈ partsBack j (s.returned (readJobIs id)), p.failed = false ∧ p.byError = false) →
    ((partsBack j (s.returned (readJobIs id))).map fun p => p.degraded) = j.parts.map (fun p => p.degraded) →
    matchesFp f bs = true → s.cont j.container = some v → v.live ≠ 0 → v.kind = .data →
    Completes (.unitReadDone id false) s fun t =>
      t.readJob id = none ∧ t.returns = s.returns.filter (fun r => !readJobIs id r.op.job) ∧
      t.ctm.reports = s.ctm.reports ++ [{ job := id, who := .chunk who, answer := .bytes bs }] ∧
      t.cont j.container = some { v with reads := v.reads - 1 } ∧ t.tables.entries = s.tables.entries ∧
      t.chans = s.chans ∧ t.mem = s.mem) ∧
  (∀ (s : State) (id : Nat) (j : ReadJob) (who : ReadBy) (f : Fp) (k : Nat) (p : Part) (qs : List Part),
    s.unitsReturned id j who f .reading → qs = partsBack j (s.returned (readJobIs id)) → (∀ q ∈ qs, q.failed = false) →
    j.parts[k]? = some p → p.degraded = false → (qs[k]?.map fun q => q.degraded) = some true →
    (∀ q ∈ qs.eraseIdx k, q.degraded = false) → s.othersAvailable j.container p.unit = true →
    Completes (.unitReadDone id false) s fun t =>
      t.readJob id = some { j with parts := qs, out := s.nMembers - 1 } ∧
      t.ctm.degradedReads = tallyUp 9 s.ctm.degradedReads ∧
      t.ctm.reports = s.ctm.reports ++ (match who with
        | .stream _ _ => [{ job := id, who := .chunk who, answer := .reconstructing }]
        | .verify _ _ => []) ∧
      t.tables = s.tables ∧ t.mem = s.mem) ∧
  (∀ (s : State) (id : Nat) (j : ReadJob) (who : ReadBy) (f : Fp) (h : Nat) (e : IdxEntry),
    s.unitsReturned id j who f .reading → (∃ p ∈ partsBack j (s.returned (readJobIs id)), p.failed = true) →
    j.handle = some h → s.tables.lostPart h = false → s.tables.entry h = some e → e.fp = f →
    Completes (.unitReadDone id false) s fun t => s.ReadLost t id who h e none) ∧
  (∀ (s : State) (id : Nat) (j : ReadJob) (who : ReadBy) (f : Fp) (bs : List Byte) (p : Part) (rest qs : List Part),
    s.unitsReturned id j who f .reading → qs = partsBack j (s.returned (readJobIs id)) → gathered qs = some bs →
    qs = p :: rest → (∀ q ∈ qs, q.failed = false ∧ q.degraded = false) → matchesFp f bs = false →
    s.othersAvailable j.container p.unit = true →
    Completes (.unitReadDone id false) s fun t =>
      t.readJob id = some { j with parts := qs, phase := .recon 0, out := s.nMembers - 1 } ∧
      t.ctm.reports = s.ctm.reports ++ (match who with
        | .stream _ _ => [{ job := id, who := .chunk who, answer := .reconstructing }]
        | .verify _ _ => []) ∧
      t.tables = s.tables ∧ t.mem = s.mem) ∧
  (∀ (s : State) (id : Nat) (j : ReadJob) (who : ReadBy) (f : Fp) (bs : List Byte) (h : Nat) (e : IdxEntry)
      (qs : List Part), s.unitsReturned id j who f .reading → qs = partsBack j (s.returned (readJobIs id)) →
    gathered qs = some bs → (∀ q ∈ qs, q.failed = false) →
    (qs.map fun p => p.degraded) = j.parts.map (fun p => p.degraded) → (∃ q ∈ qs, q.degraded = true) →
    matchesFp f bs = false → j.handle = some h → s.tables.lostPart h = false → s.tables.entry h = some e → e.fp = f →
    Completes (.unitReadDone id false) s fun t => s.ReadLost t id who h e (some bs)) ∧
  (∀ (s : State) (id : Nat) (j : ReadJob) (who : ReadBy) (f : Fp) (k : Nat) (p : Part) (fix bs : List Byte),
    s.unitsReturned id j who f (.recon k) → j.parts[k]? = some p →
    partResult (s.returned (readJobIs id)) k p.len true = some fix →
    gathered (j.parts.set k { p with got := some fix }) = some bs → matchesFp f bs = true →
    Completes (.unitReadDone id false) s fun t =>
      t.readJob id = none ∧ t.ctm.repairs = tallyUp 10 s.ctm.repairs ∧
      t.ctm.reports = s.ctm.reports ++ [{ job := id, who := .chunk who, answer := .bytes bs }] ∧
      (∀ d < 4, d = dataMember s.nMembers j.container p.unit → s.member d = .active →
        (s.chan d).queue .scrub = [] → (s.chan d).waitingFor .scrub = [] → s.stalledAt .ctm .scrub = none →
        s.arr.isSome = true → j.container < s.containerCount → 1 ≤ fix.length → p.start + fix.length ≤ unitSize →
        (t.chan d).queue .scrub = [writeOp .scrub j.container p.start fix .ctm .repair]) ∧
      t.tables.entries = s.tables.entries ∧ t.mem = s.mem) ∧
  (∀ (s : State) (id : Nat) (j : ReadJob) (who : ReadBy) (f : Fp) (k : Nat) (p : Part) (fix bs : List Byte) (h : Nat)
      (e : IdxEntry), s.unitsReturned id j who f (.recon k) → j.parts[k]? = some p → j.parts.length = k + 1 →
    partResult (s.returned (readJobIs id)) k p.len true = some fix →
    gathered (j.parts.set k { p with got := some fix }) = some bs → matchesFp f bs = false → j.handle = some h →
    s.tables.lostPart h = false → s.tables.entry h = some e → e.fp = f →
    Completes (.unitReadDone id false) s fun t => s.ReadLost t id who h e (gathered j.parts))

/-- RELOCATE_CONTAINER of a SEALED DATA container makes it DRAINING and begins the relocation. A step over an entry that is no
candidate moves the cursor on; at a candidate it begins the read of the entry's chunk. The bytes that the read reports, good
or as read, go to a placement, which takes room in the open DATA container as any chunk's does; the copy then puts them at the
placed offset, with a MOVED directory place, records the destination with the entry and counts the move, and the chunk's data
buffer goes back. The end of a relocation whose source still holds live bytes makes it SEALED again and answers the request.
The read, its report, the placement and the copy are steps of their own (log entry 15). An entry whose chunk would run past the
chunk space is no candidate and is not counted as left, and one whose read ends with no bytes is counted as left, also after two
errors of its read buffer: both are the model's choice (log entries 60 and 93). -/
def Obligations.RelocationRuns : Prop :=
  (∀ (s : State) (tag c : Nat) (v : Container), s.running = true → c < s.containerCount → s.cont c = some v →
    v.state = .sealed → v.kind = .data → v.live < s.layout.chunkSpace → s.ctm.reloc = none →
    Completes (.relocateContainer tag c) s fun t =>
      (t.cont c).map (fun v => v.state) = some .draining ∧
      t.ctm.reloc = some { source := c, tag := tag, cursor := 0, moved := 0, left := 0, destinations := [],
                           entries := [], stage := .directory, full := false, buffer := none } ∧
      t.lnk = s.lnk.handedOver (.relocateContainer tag c) ∧ t.tables.entries = s.tables.entries) ∧
  (∀ (s : State) (r : Reloc) (e : DirEntry), s.ctm.reloc = some r → r.stage = .scan → s.oru.paused = false →
    r.entries[r.cursor]? = some e → s.relocCandidate r e = false →
    exec .relocationStep s =
      .next { s with ctm := { s.ctm with reloc := some { r with cursor := r.cursor + 1 } } }) ∧
  (∀ (s : State) (r : Reloc) (e : DirEntry) (v : Container) (x : IdxEntry), s.ctm.reloc = some r → r.stage = .scan →
    s.oru.paused = false → r.entries[r.cursor]? = some e → e.offset + fpLength e.fp ≤ s.layout.chunkSpace →
    s.tables.isHandle e.handle = true → s.tables.lostPart e.handle = false → s.tables.entry e.handle = some x →
    (x.state = .damaged ∨ (x.container = r.source ∧ x.offset = e.offset)) → s.cont r.source = some v →
    Completes .relocationStep s fun t =>
      t.ctm.reloc = some { r with stage := .chunk } ∧ t.ctm.nextRead = s.ctm.nextRead + 1 ∧
      (∃ j, t.readJob s.ctm.nextRead = some j ∧ j.who = .relocChunk ∧ j.handle = some e.handle ∧ j.cls = .verify ∧
        j.container = r.source ∧ j.offset = e.offset ∧ j.length = fpLength e.fp ∧ j.check = .chunk e.fp) ∧
      t.cont r.source = some { v with reads := v.reads + 1 } ∧ (∀ d, d ≠ r.source → t.cont d = s.cont d) ∧
      t.tables.entries = s.tables.entries ∧ t.mem = s.mem) ∧
  (∀ (s : State) (r : Reloc) (rep : ReadReport) (bs : List Byte), s.ctm.reloc = some r → r.stage = .chunk →
    (s.reportFor fun w => w = .relocChunk) = some rep → (rep.answer = .bytes bs ∨ rep.answer = .dataLost (some bs)) →
    exec .relocationStep s = .next { s with ctm := { s.ctm with
      reports := s.ctm.reports.erase rep, reloc := some { r with stage := .place bs, buffer := some rep.job } } }) ∧
  (∀ (s : State) (r : Reloc) (rep : ReadReport), s.ctm.reloc = some r → r.stage = .chunk →
    (s.reportFor fun w => w = .relocChunk) = some rep → rep.answer = .dataLost none →
    exec .relocationStep s = .next { s with ctm := { s.ctm with
      reports := s.ctm.reports.erase rep,
      reloc := some { r with stage := .scan, cursor := r.cursor + 1, left := r.left + 1 } } }) ∧
  (∀ (s : State) (r : Reloc) (bs : List Byte) (c b : Nat) (v : Container) (x : StripeBuf), s.ctm.reloc = some r →
    r.stage = .place bs → s.ctm.state.attached = true → s.waitsFor .data = false → s.openOf .data = some c →
    s.cont c = some v → v.fill + bs.length ≤ s.layout.chunkSpace → v.entries < 255 → s.bufferOf c = some b → b < 4 →
    s.buffer b = some x →
    Completes (.chunkPlacement .relocation) s fun t =>
      t.ctm.reloc = some { r with stage := .copy bs c v.fill v.entries } ∧
      t.cont c = some { v with fill := v.fill + bs.length, entries := v.entries + 1 } ∧
      (∀ d, d ≠ c → t.cont d = s.cont d) ∧ t.buffer b = some { container := c, places := x.places ++ [.empty] } ∧
      t.mem = s.mem ∧ t.tables.entries = s.tables.entries) ∧
  (∀ (s : State) (r : Reloc) (bs : List Byte) (c off place b id : Nat) (x : StripeBuf) (e : DirEntry) (y : IdxEntry)
    (v : Container), s.cont c = some v → v.state = .opened → s.ctm.reloc = some r →
    r.stage = .copy bs c off place → r.buffer = some id → r.entries[r.cursor]? = some e →
    s.bufferOf c = some b → b < 4 → s.buffer b = some x → s.tables.lostPart e.handle = false →
    s.tables.entry e.handle = some y → y.fp = e.fp → y.container = r.source → s.mec.bufferQueue = [] →
    Completes .relocationStep s fun t =>
      Memory.read t.mem (bufferAddress b off) bs.length = bs ∧
      (∀ a, (a < bufferAddress b off ∨ bufferAddress b off + bs.length ≤ a) →
        (∀ w ∈ s.mec.bad, a < w ∨ w + 8 ≤ a) → Memory.get t.mem a = Memory.get s.mem a) ∧
      t.buffer b = some { x with places := x.places.set place (.chunk true e.handle e.fp off) } ∧
      t.tables.entry e.handle = some { y with move := some c } ∧
      (∀ p, p ≠ e.handle → getKey t.tables.entries p = getKey s.tables.entries p) ∧
      t.ctm.reloc = some { r with
        stage := .scan, cursor := r.cursor + 1, moved := r.moved + 1, buffer := none,
        destinations := if c ∈ r.destinations then r.destinations else r.destinations ++ [c] } ∧
      t.mec.heldBy (.readJob id) = s.mec.heldBy (.readJob id) - 1 ∧ t.tables.containers = s.tables.containers) ∧
  (∀ (s : State) (r : Reloc) (v : Container), s.ctm.reloc = some r → r.stage = .ending → r.destinations = [] →
    .relocation ∉ s.ctm.sealReqs → s.cont r.source = some v → v.live ≠ 0 →
    Completes .relocationEnd s fun t =>
      t.cont r.source = some { v with state := .sealed } ∧ t.ctm = { s.ctm with reloc := none } ∧
      t.lnk.replyQueue = (s.lnk.answered (.relocateContainer r.tag r.source) (ownerReply r.tag 0x0E
        (if r.full then .arrayFull else .ok) [⟨1, 1⟩, ⟨1, r.moved⟩, ⟨1, r.left⟩, ⟨4, v.live⟩])).replyQueue)

/-- The parity unit of a sealed stripe is the XOR of its data units, so that any one of its units equals the XOR of the others.
-/
def Obligations.ParityRelation : Prop :=
  ∀ (l : Layout) (area : List Byte), area.length = l.dataUnits * unitSize → ∀ k < l.members,
    (stripeUnits l area)[k]? = some (xorAll unitSize ((stripeUnits l area).eraseIdx k))

/-- What is written to a drive is read back as it was written: recipe records of every kind, member labels and slot headers. The
sizes of some fields and the packing are the model's choice (log entry 9). -/
def Obligations.DriveFormatsRoundTrip : Prop :=
  (∀ (o ord : Nat) (hs rest), o < 65536 → ord < 65536 → 1 ≤ hs.length → hs.length ≤ 4096 →
    (∀ h ∈ hs, h < 4294967296) →
    RecipeRec.parse ((RecipeRec.segment o ord hs).bytes ++ rest) = some (.segment o ord hs)) ∧
  (∀ (o len chunks kind owner : Nat) (al : Albums) (segs : Nat) (rest), o < 65536 → len < 281474976710656 →
    chunks < 4294967296 → kind < 256 → owner < 256 → segs < 4294967296 →
    RecipeRec.parse ((RecipeRec.closing o len chunks kind owner al segs).bytes ++ rest) =
      some (.closing o len chunks kind owner al segs)) ∧
  (∀ (o : Nat) (al : Albums) (rest), o < 65536 →
    RecipeRec.parse ((RecipeRec.albums o al).bytes ++ rest) = some (.albums o al) ∧
    RecipeRec.parse ((RecipeRec.release o).bytes ++ rest) = some (.release o)) ∧
  (∀ l : Label, l.number < 4294967296 → l.position < l.layout.members → 1 ≤ l.containers → l.containers ≤ 67108864 →
    l.reserved = reservedFor l.memory → memorySizes.contains l.memory = true → bucketCountGood l.buckets = true →
    (∀ q, l.adoption = some q → q < 281474976710656) → Label.parse l.bytes = some l) ∧
  (∀ h : SlotHeader, h.number < 4294967296 → h.seq < 281474976710656 → h.q < 281474976710656 →
    h.buckets < 4294967296 → h.containers < 4294967296 → h.pool < 4294967296 → h.fence < 4294967296 →
    h.cursor < 4294967296 → h.pass < 4294967296 → h.freeHead < 4294967296 → h.freeLength < 4294967296 →
    h.quarantineHead < 4294967296 → h.quarantineLength < 4294967296 → h.bodyLength < 281474976710656 →
    SlotHeader.parse h.bytes = some h)

/-! ## Drive channels and bays -/

/-- A valid operation submitted to an ACTIVE member joins the tail of its class queue while that holds fewer than 16 and nobody
waits; with 16 queued its requester waits instead. A dispatch starts the oldest operation of the slot's class and moves the
frame on; when that class has none it serves the first class of the order READ, WRITE, VERIFY, REBUILD, SCRUB that has one,
and the slot's class counts an underrun. An operation is submitted within the step that causes it, or by OPERATION_SUBMIT
(log entries 21 and 22), and a requester whose stage stalls submits nothing meanwhile (log entry 54). -/
def Obligations.OperationsQueue : Prop :=
  (∀ (s : State) (p : Nat) (o : Op), p < 4 → s.ctm.state ≠ .failed → s.opValid o = true → s.member p = .active →
    (s.chan p).waitingFor (madeOp o).cls = [] → s.stalledAt o.requester (madeOp o).cls = none →
    Completes (.operationSubmit p o) s fun t =>
      (((s.chan p).queue (madeOp o).cls).length < 16 →
        (t.chan p).queue (madeOp o).cls = (s.chan p).queue (madeOp o).cls ++ [madeOp o] ∧
        (t.chan p).waitingFor (madeOp o).cls = []) ∧
      (16 ≤ ((s.chan p).queue (madeOp o).cls).length →
        (t.chan p).queue (madeOp o).cls = (s.chan p).queue (madeOp o).cls ∧
        (t.chan p).waitingFor (madeOp o).cls = [{ op := madeOp o, rest := [] }]) ∧
      (∀ k, k ≠ (madeOp o).cls → (t.chan p).queue k = (s.chan p).queue k) ∧
      (∀ q, q ≠ p → t.chan q = s.chan q) ∧ t.returns = s.returns ∧ t.tables = s.tables ∧ t.mem = s.mem) ∧
  (∀ (s : State) (p : Nat) (o : Op) (rest : List Op), p < 4 → (s.chan p).mayDispatch = true →
    (s.chan p).queue (s.chan p).slotClass = o :: rest → (s.chan p).waitingFor (s.chan p).slotClass = [] →
    Completes (.dispatch p) s fun t =>
      (t.chan p).current = some o ∧ (t.chan p).queue (s.chan p).slotClass = rest ∧
      (t.chan p).position = ((s.chan p).position + 1) % (s.chan p).frame.length ∧
      (t.chan p).underruns = (s.chan p).underruns ∧ (∀ q, q ≠ p → t.chan q = s.chan q) ∧
      t = { s with chans := t.chans }) ∧
  (∀ (s : State) (p : Nat) (k : Cls) (o : Op) (rest : List Op), p < 4 → (s.chan p).mayDispatch = true →
    (s.chan p).queue (s.chan p).slotClass = [] →
    (fallbackOrder.find? fun k => !((s.chan p).queue k).isEmpty) = some k → (s.chan p).queue k = o :: rest →
    (∀ w ∈ (s.chan p).waitingFor k, w.rest = []) →
    Completes (.dispatch p) s fun t =>
      (t.chan p).current = some o ∧
      (t.chan p).position = ((s.chan p).position + 1) % (s.chan p).frame.length ∧
      (t.chan p).underruns[classNumber (s.chan p).slotClass]?.getD 0 =
        underrunUp ((s.chan p).underruns[classNumber (s.chan p).slotClass]?.getD 0) ∧
      (∀ c, c ≠ (s.chan p).slotClass →
        (t.chan p).underruns[classNumber c]?.getD 0 = (s.chan p).underruns[classNumber c]?.getD 0) ∧
      (∀ q, q ≠ p → t.chan q = s.chan q) ∧ t = { s with chans := t.chans }) ∧
  (∀ (s : State) (p : Nat), (s.chan p).mayDispatch = true → (∀ k, (s.chan p).queue k = []) → p < 4 →
    exec (.dispatch p) s = .next s)

/-- A read that the drive completes is returned to its requester with its bytes. A first failure, by an error or by the timeout,
puts the operation back at the head of its class queue with its retry flag set and raises the retry tally. A completion of a
command that is not the last one sent, which has been abandoned, changes nothing. The failure of a member of a calm array: the
member is FAILED with its cause, its channel is empty, its bay is off, and the array is DEGRADED with its notice raised.
Returned operations stand in the state until their requester takes them (log entry 21). In a FAILED array a first failure is
not retried (log entry 23). -/
def Obligations.OperationsEndOrFail : Prop :=
  (∀ (s : State) (p : Nat) (o : Op) (bs : List Byte), p < 4 → (s.chan p).current = some o → o.kind = .read →
    bs.length = o.len → jobAwaited o.job = true →
    Completes (.operationComplete p ⟨(s.chan p).command, .ok bs⟩) s fun t =>
      (t.chan p).current = none ∧ (t.chan p).queues = (s.chan p).queues ∧
      t.returns = s.returns ++ [{ position := p, op := o, result := .ok bs }] ∧
      (∀ q, q ≠ p → t.chan q = s.chan q) ∧ t.tables = s.tables ∧ t.mem = s.mem) ∧
  (∀ (s : State) (p : Nat) (o : Op) (c : Instr), p < 4 → (s.chan p).current = some o →
    (o.kind = .read ∨ o.kind = .write ∨ o.kind = .labelRead) → o.retry = false → s.ctm.state ≠ .failed →
    (c = .operationTimeout p ∨ c = .operationComplete p ⟨(s.chan p).command, .mediaError⟩) →
    Completes c s fun t =>
      (t.chan p).current = none ∧
      (t.chan p).queue o.cls = { o with retry := true } :: (s.chan p).queue o.cls ∧
      (t.chan p).retries = tallyUp 12 (s.chan p).retries ∧ (t.chan p).member = (s.chan p).member ∧
      t.returns = s.returns ∧ (∀ q, q ≠ p → t.chan q = s.chan q) ∧ t = { s with chans := t.chans }) ∧
  (∀ (s : State) (p : Nat) (r : DriveAnswer), r.command ≠ (s.chan p).command →
    exec (.operationComplete p r) s = .next s) ∧
  (∀ (s : State) (p b : Nat) (cause : FailCause), p < 4 → s.calm → p ∈ s.positions → (s.chan p).bay = some b → b < 4 →
    s.pwc.limit ≤ s.pwc.limitAsked →
    Completes (.failMember p cause) s fun t =>
      (t.chan p).member.state = .failed ∧ (t.chan p).member.cause = some cause ∧ (t.chan p).allQueued = [] ∧
      (t.chan p).current = none ∧ (t.bay b).enable = false ∧ (t.bay b).window = false ∧ t.ctm.state = .degraded ∧
      t.lnk.notices[2].isSome = true ∧ (t.lnk.notices[3 + p]?.getD none).isSome = true ∧
      (∀ q, q ≠ p → t.member q = s.member q) ∧ t.tables = s.tables ∧ t.mem = s.mem)

/-- An idle timer that expires has PWC ask the channel for standby; the channel of an ACTIVE member with nothing to do starts
the standby operation, at any other member and at one with work in progress or queued the request ends with the timer idle and
nothing else changed, and the success of the operation makes the member STANDBY; a first failure sends the operation once
more, its retry flag clear and in whatever array state (log entry 69). A spin-up
asked for by a STANDBY or OFF member starts while fewer than S members are spinning up: from STANDBY the start command is sent
at once, and from OFF the bay is switched on with its readback window. The drive's ready report makes the member ACTIVE, and
an adopted one REBUILDING; a first timeout leads to a second attempt, and a second one to the member's failure, which makes a
NORMAL array DEGRADED. In every other clause the array stays in the state that it is in. -/
def Obligations.MembersRestAndSpinUp : Prop :=
  (∀ (s : State) (p : Nat), p < 4 → s.pwc.idleTimers[p]? = some true → s.pwc.standbyAsks[p]? = some none →
    exec (.idleTimerExpire p) s = .next { s with
      pwc := { s.pwc with
        idleTimers := s.pwc.idleTimers.setIfInBounds p false,
        standbyAsks := s.pwc.standbyAsks.setIfInBounds p (some .idleTimer) } }) ∧
  (∀ (s : State) (p : Nat), p < 4 → s.pwc.standbyAsks[p]? = some (some .idleTimer) → s.member p = .active →
    (s.chan p).current = none → (s.chan p).allQueued = [] →
    Completes (.standbyRequest p) s fun t =>
      (t.chan p).current.map (fun o => o.kind) = some .standby ∧ t.pwc.standbyAsks[p]? = some none ∧
      t.pwc.standbyOps[p]? = some (some { asker := .idleTimer, second := false }) ∧
      (∀ q, q ≠ p → t.chan q = s.chan q) ∧ t.tables = s.tables ∧ t.ctm.state = s.ctm.state) ∧
  (∀ (s : State) (p : Nat), p < 4 → s.pwc.standbyAsks[p]? = some (some .idleTimer) →
    (s.member p ≠ .active ∨ (s.chan p).current ≠ none ∨ (s.chan p).allQueued ≠ []) →
    exec (.standbyRequest p) s = .next { s with
      pwc := { s.pwc with
        standbyAsks := s.pwc.standbyAsks.setIfInBounds p none,
        idleTimers := s.pwc.idleTimers.setIfInBounds p false } }) ∧
  (∀ (s : State) (p : Nat), p < 4 → s.calm → (s.chan p).current = some standbyOp → (s.chan p).allQueued = [] →
    s.pwc.standbyOps[p]? = some (some { asker := .idleTimer, second := false }) → s.member p = .active →
    Completes (.standbyOperationEnd p true) s fun t =>
      t.member p = .standby ∧ (t.chan p).current = none ∧ t.ctm.state = .normal ∧
      (t.lnk.notices[3 + p]?.getD none).isSome = true ∧ (∀ q, q ≠ p → t.member q = s.member q) ∧
      t.tables = s.tables) ∧
  (∀ (s : State) (p : Nat) (a : StandbyAsk), p < 4 → (s.chan p).current = some standbyOp →
    s.pwc.standbyOps[p]? = some (some { asker := a, second := false }) →
    Completes (.standbyOperationEnd p false) s fun t =>
      t.pwc.standbyOps[p]? = some (some { asker := a, second := true }) ∧
      t.chan p = { s.chan p with command := (s.chan p).command + 1, retries := tallyUp 12 (s.chan p).retries } ∧
      (∀ q, q ≠ p → t.chan q = s.chan q) ∧ t.tables = s.tables ∧ t.lnk = s.lnk ∧ t.ctm.state = s.ctm.state) ∧
  (∀ (s : State) (p : Nat), p < 4 → s.settled → (s.chan p).spinupAsked = true →
    (s.member p = .standby ∨ s.member p = .off) → s.pwc.spinQueue = [] → s.spinningCount < s.pwc.limit →
    Completes (.spinupRequest p) s fun t =>
      t.member p = .spinningUp ∧ (t.chan p).spinupAsked = false ∧
      t.pwc.spinning[p]? = some (some {
        attempt := 1, fromOff := decide (s.member p = .off), commanded := decide (s.member p = .standby) }) ∧
      (∀ b < 4, s.member p = .off → (s.chan p).bay = some b →
        t.bay b = { s.bay b with enable := true, powerFault := false, window := true }) ∧
      (s.member p = .standby → t.pwc.bays = s.pwc.bays) ∧
      (∀ q, q ≠ p → t.member q = s.member q) ∧ t.pwc.spinQueue = [] ∧ t.ctm.state = s.ctm.state ∧
      (t.lnk.notices[3 + p]?.getD none).isSome = true ∧ t.tables = s.tables) ∧
  (∀ (s : State) (p units : Nat) (e : Spinning), p < 4 → s.settled → s.pwc.spinning[p]? = some (some e) →
    e.commanded = true → s.member p = .spinningUp → s.pwc.spinQueue = [] →
    (s.igu.adoption.map fun a => a.position) ≠ some p →
    Completes (.driveReady p units) s fun t =>
      t.member p = .active ∧ (t.chan p).units = some units ∧ t.pwc.spinning[p]? = some none ∧
      (∀ q, q ≠ p → t.member q = s.member q) ∧ t.ctm.state = s.ctm.state ∧ t.tables = s.tables) ∧
  (∀ (s : State) (p units : Nat) (e : Spinning) (a : Adoption), p < 4 → s.settled →
    s.pwc.spinning[p]? = some (some e) → e.commanded = true → s.member p = .spinningUp → s.pwc.spinQueue = [] →
    s.igu.adoption = some a → a.position = p → a.labelled = false → s.unitsNeeded ≤ units →
    Completes (.driveReady p units) s fun t =>
      t.member p = .rebuilding ∧ (t.chan p).units = some units ∧ t.pwc.spinning[p]? = some none ∧
      (∀ q, q ≠ p → t.member q = s.member q) ∧ t.ctm.state = s.ctm.state ∧ t.igu = s.igu ∧ t.tables = s.tables) ∧
  (∀ (s : State) (p : Nat) (e : Spinning), p < 4 → s.settled → s.pwc.spinning[p]? = some (some e) → e.attempt = 1 →
    s.member p = .spinningUp → s.pwc.spinQueue = [] → s.spinningCount ≤ s.pwc.limit → s.pwc.limit = s.pwc.limitAsked →
    Completes (.spinupTimeout p) s fun t =>
      t.member p = .spinningUp ∧
      t.pwc.spinning[p]? = some (some { attempt := 2, fromOff := e.fromOff, commanded := true }) ∧
      (∀ q, q ≠ p → t.member q = s.member q) ∧ t.ctm.state = s.ctm.state) ∧
  (∀ (s : State) (p b : Nat) (e : Spinning), s.calmBut p → s.pwc.spinning[p]? = some (some e) → e.attempt ≠ 1 → b < 4 →
    (s.chan p).bay = some b →
    Completes (.spinupTimeout p) s fun t =>
      MemberLost s t p .spinup ∧ (t.bay b).enable = false ∧ t.tables = s.tables ∧ t.mem = s.mem)

/-- A bay that a channel is bound to, as every bay that is switched on is (R110, R163). A readback window in which the sense
comes on, or that ends with the sense on, confirms the switch-on: the window is over and the start command goes to the drive
that is spinning up. A window that expires with the sense off is a power fault, as is a lost sense outside the window: the
enable is cleared, the fault recorded and counted, and the bound member is FAILED with cause POWER, which degrades an array
that was NORMAL. A drive taken out of its bay fails its member with cause REMOVED; a drive put into a bay changes the bay's
record alone while the box is in RUN. A window that ends with the sense already on confirms the switch-on (log entry 24). -/
def Obligations.BayLines : Prop :=
  (∀ (s : State) (b p : Nat) (e : Spinning) (c : Instr), b < 4 → (s.bay b).window = true → s.positionOfBay b = some p →
    s.pwc.spinning[p]? = some (some e) →
    ((c = .readbackExpire b ∧ (s.bay b).sense.level = true) ∨
      (c = .senseChange b true ∧ (s.bay b).sense.level = false)) →
    Completes c s fun t =>
      (t.bay b).window = false ∧ (t.bay b).sense.level = true ∧ (t.bay b).enable = (s.bay b).enable ∧
      (∀ d, d ≠ b → t.bay d = s.bay d) ∧ t.pwc.spinning[p]? = some (some { e with commanded := true }) ∧
      (∀ q, q ≠ p → t.pwc.spinning[q]? = s.pwc.spinning[q]?) ∧ t = { s with pwc := t.pwc }) ∧
  (∀ (s : State) (b p : Nat) (c : Instr), b < 4 → s.positionOfBay b = some p → s.calmBut p →
    ((c = .readbackExpire b ∧ (s.bay b).window = true ∧ (s.bay b).sense.level = false) ∨
      (c = .senseChange b false ∧ (s.bay b).enable = true ∧ (s.bay b).window = false ∧
        (s.bay b).sense.level = true)) →
    Completes c s fun t =>
      (t.bay b).enable = false ∧ (t.bay b).window = false ∧ (t.bay b).powerFault = true ∧
      (t.bay b).sense.level = false ∧ t.pwc.powerFaults = tallyUp 13 s.pwc.powerFaults ∧
      (∀ d, d ≠ b → t.bay d = s.bay d) ∧ MemberLost s t p .power ∧ t.tables = s.tables ∧ t.mem = s.mem) ∧
  (∀ (s : State) (b p : Nat), b < 4 → s.positionOfBay b = some p → s.calmBut p → (s.bay b).presence.level = true →
    Completes (.presenceChange b false) s fun t =>
      (t.bay b).presence.level = false ∧ (t.bay b).enable = false ∧ (∀ d, d ≠ b → t.bay d = s.bay d) ∧
      MemberLost s t p .removed ∧ t.tables = s.tables ∧ t.mem = s.mem) ∧
  (∀ (s : State) (b : Nat), b < 4 → (s.bay b).presence.level = false → s.pwc.box = .run →
    exec (.presenceChange b true) s = .next (s.setBay b
      { s.bay b with presence := { samples := (true, true, true), level := true } }))

/-- SET_SERVICE_FRAME puts a frame of 4 to 32 slots on one channel, or on all four for selector 4, with its position at slot 0;
a class that is none of the five has it refused with no frame changed. -/
def Obligations.ServiceFrameIsSet : Prop :=
  (∀ (s : State) (tag sel f : Nat) (classes : List Nat) (cs : List Cls), s.ctm.state ≠ .failed → sel ≤ 4 →
    (classes.take (max 4 (min 32 f))).map classOf = cs.map some → cs.length = max 4 (min 32 f) →
    Completes (.setServiceFrame tag sel f classes) s fun t =>
      (∀ p < 4, (sel = 4 ∨ sel = p) → t.chan p = { s.chan p with frame := cs, position := 0 }) ∧
      (∀ p, sel ≠ 4 → sel ≠ p → t.chan p = s.chan p) ∧
      t.lnk = s.lnk.answered (.setServiceFrame tag sel f classes) (ownerReply tag 0x1C .ok [⟨1, max 4 (min 32 f)⟩]) ∧
      t = { s with lnk := t.lnk, chans := t.chans }) ∧
  (∀ (s : State) (tag sel f : Nat) (classes : List Nat), s.ctm.state ≠ .failed →
    (4 < sel ∨ ∃ c ∈ classes.take (max 4 (min 32 f)), 4 < c) →
    exec (.setServiceFrame tag sel f classes) s = .next { s with
      lnk := s.lnk.answered (.setServiceFrame tag sel f classes) (ownerReply tag 0x1C .badArgument []) })

/-! ## Sharing -/

/-- PUT_GRANT installs an ACTIVE grant with nothing opened or delivered, its stream limit clamped to 1 to 4, when its time lies
ahead and no stream is open under it; past its time it is refused EXPIRED, and with streams open BUSY. REVOKE_GRANT of an
ACTIVE grant with no stream under it makes it REVOKED; a FREE grant is refused, a REVOKED one answered OK with nothing
changed. An ACTIVE grant with no stream whose time has come becomes EXPIRED at the comparison; before its time nothing
changes. GET_GRANT of grants 0 to 63 is answered with every field of the grant's record and the bytes charged since it was
installed, FREE grants included, and changes nothing else. The sizes of reply fields are in part the model's choice (log
entry 12), and an unlimited allowance counts 0 bytes charged (log entry 29). -/
def Obligations.GrantsBeginAndEnd : Prop :=
  (∀ (s : State) (tag g : Nat) (al : Albums) (na : Time) (a : Option Nat) (l : Nat), g ≤ 63 → s.ctm.state ≠ .failed →
    (s.pwc.time < na → (s.grant g).opens = 0 → Completes (.putGrant tag g al na a l) s fun t =>
      t.grant g = { state := .active, albums := al, notAfter := na, installed := a, remaining := a,
                    limit := max 1 (min 4 l), opens := 0, delivered := 0 } ∧
      (∀ h, h ≠ g → t.grant h = s.grant h) ∧
      t.lnk = s.lnk.answered (.putGrant tag g al na a l) (ownerReply tag 0x09 .ok (t.grant g).fields) ∧
      t = { s with lnk := t.lnk, rds := { s.rds with grants := t.rds.grants } }) ∧
    (na ≤ s.pwc.time → exec (.putGrant tag g al na a l) s = .next { s with
      lnk := s.lnk.answered (.putGrant tag g al na a l) (ownerReply tag 0x09 .expired []) }) ∧
    (s.pwc.time < na → (s.grant g).opens ≠ 0 → exec (.putGrant tag g al na a l) s = .next { s with
      lnk := s.lnk.answered (.putGrant tag g al na a l) (ownerReply tag 0x09 .busy []) })) ∧
  (∀ (s : State) (tag g : Nat), g ≤ 63 → s.ctm.state ≠ .failed → (s.grant g).state = .active → s.liveUnder g = [] →
    exec (.revokeGrant tag g) s = .next ({ s with
      lnk := s.lnk.answered (.revokeGrant tag g) (ownerReply tag 0x0A .ok [⟨1, 0⟩]) }.setGrant g
        { s.grant g with state := .revoked })) ∧
  (∀ (s : State) (tag g : Nat), g ≤ 63 → s.ctm.state ≠ .failed → (s.grant g).state = .free →
    exec (.revokeGrant tag g) s = .next { s with
      lnk := s.lnk.answered (.revokeGrant tag g) (ownerReply tag 0x0A .noSuchGrant []) }) ∧
  (∀ (s : State) (tag g : Nat), g ≤ 63 → s.ctm.state ≠ .failed → (s.grant g).state = .revoked →
    exec (.revokeGrant tag g) s = .next { s with
      lnk := s.lnk.answered (.revokeGrant tag g) (ownerReply tag 0x0A .ok [⟨1, 0⟩]) }) ∧
  (∀ (s : State) (g : Nat), g ≤ 63 → (s.grant g).state = .active → (s.grant g).notAfter ≤ s.pwc.time →
    (∀ i < 16, (s.reader i).grant ≠ some g) →
    exec (.grantExpire g) s = .next (s.setGrant g { s.grant g with state := .expired })) ∧
  (∀ (s : State) (g : Nat), s.pwc.time < (s.grant g).notAfter → exec (.grantExpire g) s = .next s) ∧
  (∀ (s : State) (tag g : Nat), g ≤ 63 → s.ctm.state ≠ .failed →
    exec (.getGrant tag g) s = .next { s with
      lnk := s.lnk.answered (.getGrant tag g) (ownerReply tag 0x0B .ok
        [⟨1, (s.grant g).state.code⟩, ⟨4, (s.grant g).albums.toNat⟩, ⟨4, (s.grant g).notAfter.toNat⟩,
         allowanceField (s.grant g).installed, allowanceField (s.grant g).remaining, ⟨1, (s.grant g).limit⟩,
         ⟨4, (s.grant g).opens⟩, ⟨6, (s.grant g).delivered⟩,
         ⟨6, match (s.grant g).installed, (s.grant g).remaining with | some a, some b => a - b | _, _ => 0⟩]) })

/-- OPEN_READ of a SEALED object under an ACTIVE grant in time that shares an album with it and has a stream left takes the
lowest FREE read stream, SEEKING, and counts it in the grant and in the object's readers; an empty range ends at once, with the
stream FREE again and nothing counted. Under a grant that shares no album
with the object it is refused DENIED, and no stream is opened. STOP_READ of a SEEKING stream with nothing in flight but its
segment read makes it ENDING with reason STOPPED, answered with its delivered-to offset; a stop of a FREE stream is refused.
The sizes of reply fields are in part the model's choice (log entry 12). -/
def Obligations.ReadStreamsOpenAndStop : Prop :=
  (∀ (s : State) (tag o g start count i : Nat) (r : Obj), g ≤ 63 → 1 ≤ o → o ≤ 65535 → s.running = true →
    (s.grant g).state = .active → s.pwc.time < (s.grant g).notAfter → s.obj o = some r → r.state = .sealed →
    r.albums &&& (s.grant g).albums ≠ 0 → (s.grant g).opens < (s.grant g).limit → i < 16 →
    (s.reader i).state = .free → (∀ j < i, (s.reader j).state ≠ .free) → start < r.length →
    Completes (.openRead tag o g start count) s fun t =>
      t.reader i = { ReadStream.freeRecord with
        state := .seeking, object := some o, grant := some g, start := start,
        stop := if count = 0 then r.length else min (start + count) r.length, delivered := start } ∧
      (∀ j, j ≠ i → t.reader j = s.reader j) ∧
      t.grant g = { s.grant g with opens := (s.grant g).opens + 1 } ∧ (∀ h, h ≠ g → t.grant h = s.grant h) ∧
      t.readersOf o = s.readersOf o + 1 ∧ (∀ p, p ≠ o → t.readersOf p = s.readersOf p) ∧
      t.lnk = s.lnk.answered (.openRead tag o g start count) (ownerReply tag 0x0C .ok
        [⟨1, i⟩, ⟨6, r.length⟩, ⟨6, if count = 0 then r.length else min (start + count) r.length⟩]) ∧
      t.tables = s.tables ∧ t.mem = s.mem) ∧
  (∀ (s : State) (tag o g count i : Nat) (r : Obj), g ≤ 63 → 1 ≤ o → o ≤ 65535 → s.running = true →
    (s.grant g).state = .active → s.pwc.time < (s.grant g).notAfter → s.obj o = some r → r.state = .sealed →
    r.albums &&& (s.grant g).albums ≠ 0 → (s.grant g).opens < (s.grant g).limit → i < 16 →
    (s.reader i).state = .free → (∀ j < i, (s.reader j).state ≠ .free) →
    Completes (.openRead tag o g r.length count) s fun t =>
      (t.reader i).state = .free ∧ (∀ j, j ≠ i → t.reader j = s.reader j) ∧ (∀ h, t.grant h = s.grant h) ∧
      (∀ p, t.readersOf p = s.readersOf p) ∧ (t.lnk.notices[15 + i]?.getD none).isSome = true ∧
      t.tables = s.tables ∧ t.mem = s.mem) ∧
  (∀ (s : State) (tag o g start count : Nat) (r : Obj), g ≤ 63 → 1 ≤ o → o ≤ 65535 → s.running = true →
    (s.grant g).state = .active → s.pwc.time < (s.grant g).notAfter → s.obj o = some r → r.state = .sealed →
    r.albums &&& (s.grant g).albums = 0 →
    exec (.openRead tag o g start count) s = .next { s with
      lnk := s.lnk.answered (.openRead tag o g start count) (ownerReply tag 0x0C .denied []) }) ∧
  (∀ (s : State) (tag i : Nat), i < 16 → s.ctm.state ≠ .failed → (s.reader i).state = .seeking →
    (s.reader i).segRead = .reading → (s.reader i).flights = [] → (s.reader i).reason = none →
    s.waitingReads (ReadWho.isChunkOf i) = [] → s.waitingReads (ReadWho.isSegOf i) = [] →
    Completes (.stopRead tag i) s fun t =>
      t.reader i = { s.reader i with state := .ending, reason := some .stopped, offered := none } ∧
      (∀ j, j ≠ i → t.reader j = s.reader j) ∧
      t.lnk = s.lnk.answered (.stopRead tag i) (ownerReply tag 0x0D .ok [⟨6, (s.reader i).delivered⟩]) ∧
      t = { s with lnk := t.lnk, rds := t.rds }) ∧
  (∀ (s : State) (tag i : Nat), i < 16 → s.ctm.state ≠ .failed → (s.reader i).state = .free →
    exec (.stopRead tag i) s = .next { s with
      lnk := s.lnk.answered (.stopRead tag i) (ownerReply tag 0x0D .wrongState []) })

/-- A seek passes over a chunk that ends at or before the start offset. An issue charges a limited allowance for the bytes of the
chunk that the stream will deliver, which are the chunk's own but for those that the range cuts off its first and its last chunk;
an unlimited allowance and owner access, grant 255, are charged nothing. It adds the chunk in flight, sends its read, asks for the
next segment when the one in hand is used up, and with the range's last chunk sets the reason COMPLETE. With an allowance below the
charge it ends the stream with ALLOWANCE_SPENT at the first byte not charged for. The bytes that a read reports make the chunk
READY. The read that an issue sends is begun by its own step (log entry 15). -/
def Obligations.ReadersAdvance : Prop :=
  (∀ (s : State) (i h : Nat) (f : Fp) (st : EntryState) (c off : Nat), i < 16 → (s.reader i).state = .seeking →
    (s.reader i).segRead = .idle → (s.reader i).handleAt = some h →
    s.tables.locate h = .found st f c off → (s.reader i).offset + fpLength f ≤ (s.reader i).start →
    exec (.seekStep i) s = .next (s.setReader i { s.reader i with
      offset := (s.reader i).offset + fpLength f, position := (s.reader i).position + 1 })) ∧
  (∀ (s : State) (i g h : Nat) (e : IdxEntry), i < 16 → s.mayIssueNow i h e → (s.reader i).grant = some g →
    (g = 255 ∨ (g ≤ 63 ∧ (s.grant g).state = .active ∧ s.pwc.time < (s.grant g).notAfter ∧
      ∀ left, (s.grant g).remaining = some left → (s.reader i).wanted (fpLength e.fp) ≤ left)) →
    Completes (.chunkIssue i) s fun t =>
      let r := s.reader i
      let past := r.offset + fpLength e.fp
      (∀ k ≤ 63, t.grant k = if k = g then
        { s.grant k with remaining := (s.grant k).remaining.map fun left => left - r.wanted (fpLength e.fp) }
        else s.grant k) ∧
      t.reader i = { r with
        flights := r.flights ++
          [{ handle := h, fp := e.fp, position := r.position, base := r.offset, from_ := max r.offset r.start,
             upto := min past r.stop, state := .reading, bytes := [], sent := max r.offset r.start, reread := false,
             discarded := false, buffer := none }],
        position := r.position + 1, offset := past,
        reason := if r.stop ≤ past then some .complete else none,
        endPoint := if r.stop ≤ past then r.stop else r.endPoint,
        segRead := if (r.seg.bind fun x => x.handles[r.position + 1 - x.first]?) = none then .wanted else .idle } ∧
      t.ctm = { s.ctm with chunkReqs := s.ctm.chunkReqs ++
        [{ handle := h, fp := e.fp, cls := .read, who := .stream i r.position }] } ∧
      (∀ j, j ≠ i → t.reader j = s.reader j) ∧ t = { s with rds := t.rds, ctm := t.ctm }) ∧
  (∀ (s : State) (i g h left : Nat) (e : IdxEntry) (fl : Flight) (fs : List Flight), i < 16 → g ≤ 63 →
    s.mayIssueNow i h e → (s.reader i).flights = fl :: fs → (s.reader i).grant = some g →
    (s.grant g).state = .active → s.pwc.time < (s.grant g).notAfter →
    (s.grant g).remaining = some left → left < (s.reader i).wanted (fpLength e.fp) →
    Completes (.chunkIssue i) s fun t =>
      (t.reader i).reason = some .allowanceSpent ∧
      (t.reader i).endPoint = max (s.reader i).offset (s.reader i).start ∧
      (t.reader i).flights = fl :: fs ∧ t.rds.grants = s.rds.grants ∧ t = { s with rds := t.rds }) ∧
  (∀ (s : State) (i : Nat) (rep : ReadReport) (f : Flight) (bs : List Byte), i < 16 →
    s.reportFor (ReadWho.isChunkOf i) = some rep → rep.who = .chunk (.stream i f.position) → rep.answer = .bytes bs →
    (s.reader i).state = .running → (s.reader i).flights = [f] → f.state = .reading → f.discarded = false →
    (s.reader i).offered = none →
    (s.reader i).sending = none → f.sent < f.upto →
    Completes (.chunkReadReport i) s fun t =>
      (t.reader i).flights = [{ f with state := .ready, bytes := bs, buffer := some rep.job }] ∧
      (t.reader i).offered = some { offset := f.sent, length := min 16384 (f.upto - f.sent), bytes := none } ∧
      t.ctm = { s.ctm with reports := s.ctm.reports.erase rep } ∧ (∀ j, j ≠ i → t.reader j = s.reader j))

/-! ## Scrub, adoption and rebuild -/

/-- SET_SCRUB sets the period, at most 65,535, and loads the timer with it. An expiry that finds a step pending reloads the
timer and counts a lag; one that finds none makes the container that the search finds in the table's list from the cursor on,
or else from container 0 on, the pending step, moves the cursor past it, counts a pass for each wrap of the cursor, with the
notice, and tests the step at once; with nothing to scrub it reloads the timer alone. A waiting step is deferred once while a
member is STANDBY, and begins when every member is ACTIVE. A scrub step that cannot have two of its units or more ends DAMAGED:
it is counted and noticed, and the container carries the mark. With every unit in hand a good area CRC and parity end the step
CLEAN; a wrong unit that one reconstruction explains, or a wrong parity, has the repair write submitted with the outcome noted.
With one unit that cannot be had and a good area CRC over its reconstruction the step ends CLEAN for a unit that was lost at
submission, and has the unit written back otherwise. A repair write that has come back good ends its step with the outcome
found. The units that cannot be had count as zeros in the checks (log entry 31). -/
def Obligations.ScrubRuns : Prop :=
  (∀ (s : State) (tag p : Nat), s.ctm.state ≠ .failed →
    exec (.setScrub tag p) s = .next { s with
      igu := { s.igu with period := min 65535 p, timer := min 65535 p },
      lnk := s.lnk.answered (.setScrub tag p) (ownerReply tag 0x0F .ok [⟨2, min 65535 p⟩]) }) ∧
  (∀ (s : State) (st : ScrubStep), 0 < s.igu.period → s.pwc.box = .run → s.ctm.state.attached = true →
    s.igu.timer = 0 → s.igu.step = some st →
    exec .scrubTimerExpire s = .next { s with
      igu := { s.igu with timer := s.igu.period, lag := tallyUp 78 s.igu.lag } }) ∧
  (∀ (s : State) (c q : Nat), 0 < s.igu.period → s.pwc.box = .run → s.ctm.state.attached = true →
    s.igu.timer = 0 → s.igu.step = none → q ∈ s.positions → s.member q = .standby → s.igu.adoption = none →
    (s.nextScrubbable s.tables.scrubCursor = some c ∨
      (s.nextScrubbable s.tables.scrubCursor = none ∧ s.nextScrubbable 0 = some c)) →
    Completes .scrubTimerExpire s fun t =>
      let wraps := (if s.nextScrubbable s.tables.scrubCursor = none then 1 else 0) +
        (if s.containerCount ≤ c + 1 then 1 else 0)
      s.scrubbable c = true ∧
      t.igu.timer = s.igu.period ∧ (t.igu.step.map fun x => (x.container, x.reading, x.deferred)) = some (c, false, true) ∧
      t.igu.lag = s.igu.lag ∧ t.igu.deferred = tallyUp 50 s.igu.deferred ∧
      t.tables.scrubCursor = (if s.containerCount ≤ c + 1 then 0 else c + 1) ∧
      t.tables.scrubPass = (List.range wraps).foldl (fun n _ => tallyUp 70 n) s.tables.scrubPass ∧
      (0 < wraps → t.lnk.notices[31].isSome = true) ∧ t.tables.entries = s.tables.entries ∧
      t.tables.containers = s.tables.containers ∧ t.chans = s.chans ∧ t.mem = s.mem) ∧
  (∀ (s : State) (c : Nat) (v : Container), 0 < s.igu.period → s.pwc.box = .run → s.ctm.state.attached = true →
    s.igu.timer = 0 → s.igu.step = none → (∀ p ∈ s.positions, s.member p = .active) → s.igu.adoption = none →
    s.nextScrubbable s.tables.scrubCursor = some c → s.cont c = some v → c + 1 < s.containerCount →
    Completes .scrubTimerExpire s fun t =>
      t.igu.timer = s.igu.period ∧ (t.igu.step.map fun x => (x.container, x.reading)) = some (c, true) ∧
      t.tables.scrubCursor = c + 1 ∧ t.tables.scrubPass = s.tables.scrubPass ∧
      t.cont c = some { v with reads := v.reads + 1 } ∧ t.tables.entries = s.tables.entries ∧ t.mem = s.mem) ∧
  (∀ s : State, 0 < s.igu.period → s.pwc.box = .run → s.ctm.state.attached = true → s.igu.timer = 0 →
    s.igu.step = none → s.nextScrubbable s.tables.scrubCursor = none → s.nextScrubbable 0 = none →
    exec .scrubTimerExpire s = .next { s with igu := { s.igu with timer := s.igu.period } }) ∧
  (∀ (s : State) (st : ScrubStep) (p : Nat), s.igu.step = some st → st.reading = false → st.deferred = false →
    p ∈ s.positions → s.member p = .standby → s.igu.adoption = none →
    exec .scrubStepStart s = .next { s with
      igu := { s.igu with step := some { st with deferred := true }, deferred := tallyUp 50 s.igu.deferred } }) ∧
  (∀ (s : State) (st : ScrubStep) (v : Container), s.igu.step = some st → st.reading = false →
    (∀ p ∈ s.positions, s.member p = .active) → s.igu.adoption = none → s.cont st.container = some v →
    v.state = .sealed →
    Completes .scrubStepStart s fun t =>
      (t.igu.step.map fun x => (x.container, x.reading)) = some (st.container, true) ∧
      t.cont st.container = some { v with reads := v.reads + 1 } ∧ t.mem = s.mem ∧
      t.tables.entries = s.tables.entries) ∧
  (∀ (s : State) (st : ScrubStep) (v : Container), s.igu.step = some st → st.started = true → st.outcome = none →
    (s.unitsBack st.units .scrubRead) = true → s.ctm.state ≠ .failed → s.cont st.container = some v →
    v.state = .sealed → v.live ≠ 0 → v.kind = .data → s.mec.bufferQueue = [] →
    (∀ p : Fin 4, unitAt (unitsAfter st.units (s.returned fun j => j = .scrubRead) [] st.reread) p.val ≠ .out) →
    2 ≤ ({ layout := s.layout, container := st.container,
           units := unitsAfter st.units (s.returned fun j => j = .scrubRead) [] st.reread } : Stripe).missing.length →
    Completes (.scrubReadsDone []) s fun t =>
      t.igu.step = none ∧ t.igu.damagedTotal = tallyUp 76 s.igu.damagedTotal ∧
      t.igu.foundDamaged = tallyUp 77 s.igu.foundDamaged ∧ t.igu.cleanTotal = s.igu.cleanTotal ∧
      t.igu.repairedTotal = s.igu.repairedTotal ∧ t.igu.lastFinding = some (st.container, .damaged) ∧
      t.cont st.container = some { v with scarred := true, reads := v.reads - 1 } ∧
      t.lnk.notices[31].isSome = true ∧ t.mem = s.mem) ∧
  (∀ (s : State) (st : ScrubStep) (v : Container) (x : Stripe), s.scrubInHand st v x →
    ((x.missing = [] ∧ areaGood x.layout x.area = true ∧ x.parityHolds = true) ∨
      (∃ p < 4, x.missing = [p] ∧ unitAt x.units p = .lost ∧ areaGood x.layout (x.areaWithout p) = true)) →
    v.live ≠ 0 → v.kind = .data → s.mec.bufferQueue = [] →
    Completes (.scrubReadsDone []) s fun t =>
      t.igu = { s.igu with step := none, cleanTotal := tallyUp 73 s.igu.cleanTotal } ∧
      t.cont st.container = some { v with scarred := false, reads := v.reads - 1 } ∧ t.lnk = s.lnk ∧
      t.tables.entries = s.tables.entries ∧ t.chans = s.chans ∧ t.mem = s.mem) ∧
  (∀ (s : State) (st : ScrubStep) (v : Container) (x : Stripe) (d : Nat) (u : Option Nat), s.scrubInHand st v x →
    ((∃ j < x.layout.dataUnits, u = some j ∧ d = x.holder j ∧ x.missing = [] ∧ areaGood x.layout x.area = false ∧
        areaGood x.layout (x.areaWithout d) = true ∧ ∀ k < j, areaGood x.layout (x.areaWithout (x.holder k)) = false) ∨
      (u = none ∧ d = parityMember x.layout.members x.container ∧ x.missing = [] ∧
        areaGood x.layout x.area = true ∧ x.parityHolds = false) ∨
      (u = unitOn x.layout.members x.container d ∧ x.missing = [d] ∧ unitAt x.units d = .failed ∧
        areaGood x.layout (x.areaWithout d) = true)) →
    d < 4 → s.member d = .active → (s.chan d).queue .scrub = [] → (s.chan d).waitingFor .scrub = [] →
    s.stalledAt .igu .scrub = none → s.arr.isSome = true → st.container < s.containerCount →
    1 ≤ (x.xorOthers d).length → (x.xorOthers d).length ≤ unitSize →
    Completes (.scrubReadsDone []) s fun t =>
      t.igu = { s.igu with step := some { st with units := x.units, outcome := some (.repaired u) } } ∧
      (t.chan d).queue .scrub = [writeOp .scrub st.container 0 (x.xorOthers d) .igu .scrubRepair] ∧
      (∀ q, q ≠ d → t.chan q = s.chan q) ∧ t.tables = s.tables ∧ t.lnk = s.lnk ∧ t.mem = s.mem) ∧
  (∀ (s : State) (st : ScrubStep) (r : Returned) (u : Option Nat) (v : Container) (bs : List Byte),
    s.igu.step = some st → (s.returns.find? fun r => r.op.job = .scrubRepair) = some r → r.result = .ok bs →
    st.outcome = some (.repaired u) → s.ctm.state ≠ .failed → s.cont st.container = some v → v.state = .sealed →
    v.live ≠ 0 → v.kind = .data →
    s.mec.bufferQueue = [] →
    Completes .repairWriteDone s fun t =>
      t.igu.step = none ∧ t.igu.repairedTotal = tallyUp 74 s.igu.repairedTotal ∧
      t.igu.foundRepaired = tallyUp 75 s.igu.foundRepaired ∧
      t.igu.lastFinding = some (st.container, .repaired u) ∧ t.returns = s.returns.erase r ∧
      t.cont st.container = some { v with scarred := false, reads := v.reads - 1 } ∧
      t.lnk.notices[31].isSome = true ∧ t.mem = s.mem)

/-- ADOPT_MEMBER of a present drive for a FAILED or ABSENT position of a DEGRADED array makes the position OFF and bound to the
bay, and its label write waits in the channel's queue, which asks for a spin-up; the request is answered later. The completed
label write records the adoption sequence, makes the array REBUILDING, and has the second label write and the first read of the
slot's copy submitted. A unit of the slot that has been read for an adopted member is next written to it. The walk passes a FREE
container, and the cursor moves on; for a SEALED one that was sealed before the adoption it reads the units of every other
member, whose REBUILD queues are empty with nobody waiting for them. With every source unit good, the unit computed is written
to the adopted position. A rebuild whose sources cannot be had is counted as damage and the cursor moves on, as it does after a
rebuild write that came back good; the final label makes the member ACTIVE and the array NORMAL, and ends the adoption. The
label write is submitted in the same step (log entry 21). The copy of the slot goes unit by unit (log entry 32). -/
def Obligations.AdoptionAndRebuild : Prop :=
  (∀ (s : State) (tag b p : Nat), s.ctm.state = .degraded → s.pwc.box = .run → b ≤ 3 → p < s.nMembers → p < 4 →
    (s.member p = .failed ∨ s.member p = .absent) → (s.bay b).presence.level = true → s.bayFor b p = true →
    s.igu.step = none → (∀ q ∈ s.positions, q ≠ p → s.member q = .active) →
    (s.chan p).queue .write = [] → s.stalledAt .igu .write = none → (s.chan p).waitingFor .write = [] →
    Completes (.adoptMember tag b p) s fun t =>
      t.igu.adoption = some { position := p, bay := b, tag := some tag, labelled := false, seq := none,
                              walking := false, closing := false } ∧
      t.igu.rebuildCursor = 0 ∧ t.member p = .off ∧ (t.chan p).bay = some b ∧ (t.chan p).member.errors = 0 ∧
      (t.chan p).queue .write = [writeUnitOp .write 0 (s.labelFor p true none).bytes .igu .adoptLabel] ∧
      (t.chan p).spinupAsked = true ∧ t.ctm.state = .degraded ∧ t.lnk.replyQueue = s.lnk.replyQueue ∧ t.tables = s.tables) ∧
  (∀ (s : State) (a : Adoption) (r : Returned) (bs : List Byte) (x : ArrayRec) (sl : Slot) (q : Nat),
    (s.returns.find? fun r => r.op.job = .adoptLabel) = some r → r.result = .ok bs → s.igu.adoption = some a →
    a.labelled = false → a.position < 4 → a.position ∈ s.positions → s.arr = some x → 1 ≤ x.reserved → s.ctm.state = .degraded →
    s.member a.position = .rebuilding → (∀ q ∈ s.positions, q ≠ a.position → s.member q = .active) →
    s.igu.step = none → s.pwc.box = .run → s.ckr.slot = some sl → q < 4 → s.copySource 0 a.position = some q →
    (s.chan a.position).queue .write = [] → (s.chan a.position).waitingFor .write = [] →
    (s.chan q).queue .rebuild = [] → (s.chan q).waitingFor .rebuild = [] →
    s.stalledAt .igu .write = none → s.stalledAt .ckr .rebuild = none →
    Completes .adoptLabelWritten s fun t =>
      t.igu.adoption = some { a with labelled := true, seq := some x.seq } ∧ t.ctm.state = .rebuilding ∧
      t.lnk.notices[2].isSome = true ∧ (t.lnk.notices[3 + a.position]?.getD none).isSome = true ∧
      (t.chan a.position).queue .write =
        [writeUnitOp .write 0 (s.labelFor a.position true (some x.seq)).bytes .igu .adoptLabelSecond] ∧
      t.ckr.copy = some { slot := sl, unit := 0, writing := false, source := some q } ∧
      (t.chan q).queue .rebuild = [readUnitOp .rebuild (slotBase s.reserved sl) .copyRead] ∧
      (∀ p, t.member p = s.member p) ∧ t.tables = s.tables ∧ t.mem = s.mem) ∧
  (∀ (s : State) (c : SlotCopy) (a : Adoption) (r : Returned) (bs : List Byte), s.ckr.copy = some c →
    s.igu.adoption = some a → a.position < 4 → c.writing = false →
    (s.returns.find? fun r => r.op.job = .copyRead) = some r →
    s.copyAddresses c r = true → r.result = .ok bs → s.ctm.state ≠ .failed → s.member a.position = .rebuilding →
    s.arr.isSome = true → slotBase s.reserved c.slot + c.unit ≤ 2 * s.reserved →
    (s.chan a.position).queue .write = [] → (s.chan a.position).waitingFor .write = [] →
    s.stalledAt .ckr .write = none →
    Completes .checkpointCopyDone s fun t =>
      t.ckr.copy = some { c with writing := true, source := none } ∧
      (t.chan a.position).queue .write =
        [writeUnitOp .write (slotBase s.reserved c.slot + c.unit) bs .ckr .copyWrite] ∧
      (∀ q, q ≠ a.position → t.chan q = s.chan q) ∧ t.igu = s.igu ∧ t.tables = s.tables ∧ t.mem = s.mem) ∧
  (∀ (s : State) (a : Adoption), s.igu.adoption = some a → a.walking = true → a.closing = false →
    s.igu.rebuild = none → s.ctm.state.attached = true → s.cont s.igu.rebuildCursor = none →
    s.igu.rebuildCursor + 1 < s.containerCount →
    Completes .rebuildStep s fun t =>
      t.igu = { s.igu with rebuildCursor := s.igu.rebuildCursor + 1 } ∧ t.tables = s.tables ∧ t.chans = s.chans) ∧
  (∀ (s : State) (a : Adoption) (v : Container) (x y : Nat), s.igu.adoption = some a → a.walking = true →
    a.closing = false → s.igu.rebuild = none → s.ctm.state.attached = true → s.cont s.igu.rebuildCursor = some v →
    v.state = .sealed → v.seq = some x → a.seq = some y → x < y → s.igu.rebuildCursor < s.containerCount →
    s.nMembers ≤ s.mec.freeBuffers → s.stalledAt .igu .rebuild = none →
    (∀ q ∈ s.others a.position, (s.chan q).queue .rebuild = [] ∧ (s.chan q).waitingFor .rebuild = []) →
    Completes .rebuildStep s fun t =>
      (t.igu.rebuild.map fun j => (j.container, j.started, j.writing, j.reread, j.abandoned)) =
        some (s.igu.rebuildCursor, true, false, [], false) ∧
      t.igu.rebuildCursor = s.igu.rebuildCursor ∧ t.igu.adoption = some a ∧
      t.cont s.igu.rebuildCursor = some { v with reads := v.reads + 1 } ∧
      (∀ q < 4, q ∈ s.others a.position → s.member q = .active →
        (t.chan q).queue .rebuild = [readOp .rebuild s.igu.rebuildCursor 0 unitSize .igu .rebuildRead]) ∧
      t.tables.entries = s.tables.entries ∧ t.mem = s.mem) ∧
  (∀ (s : State) (j : RebuildJob) (a : Adoption), s.igu.rebuild = some j → j.started = true → j.writing = false →
    (s.unitsBack j.units .rebuildRead) = true → j.abandoned = false → s.igu.adoption = some a → a.position < 4 →
    s.ctm.state ≠ .failed → s.member a.position = .rebuilding → s.arr.isSome = true →
    j.container < s.containerCount →
    (∀ p : Fin 4, unitAt (unitsAfter j.units (s.returned fun x => x = .rebuildRead) [] j.reread) p.val ≠ .out) →
    let x : Stripe := { layout := s.layout, container := j.container,
                        units := unitsAfter j.units (s.returned fun x => x = .rebuildRead) [] j.reread }
    (x.missing.filter fun q => q ≠ a.position) = [] → 1 ≤ (x.xorOthers a.position).length →
    (x.xorOthers a.position).length ≤ unitSize →
    (s.chan a.position).queue .rebuild = [] → (s.chan a.position).waitingFor .rebuild = [] →
    s.stalledAt .igu .rebuild = none →
    Completes (.rebuildReadsDone []) s fun t =>
      (t.igu.rebuild.map fun j => (j.container, j.writing)) = some (j.container, true) ∧
      (t.chan a.position).queue .rebuild =
        [writeOp .rebuild j.container 0 (x.xorOthers a.position) .igu .rebuildWrite] ∧
      (∀ q, q ≠ a.position → t.chan q = s.chan q) ∧ t.igu.rebuildCursor = s.igu.rebuildCursor ∧ t.mem = s.mem) ∧
  (∀ (s : State) (j : RebuildJob) (a : Adoption) (r : Returned) (bs : List Byte) (v : Container),
    s.igu.rebuild = some j → (s.returns.find? fun r => r.op.job = .rebuildWrite) = some r → r.result = .ok bs →
    j.abandoned = false → s.igu.adoption = some a → j.container + 1 < s.containerCount →
    s.cont j.container = some v → v.live ≠ 0 → v.kind = .data → s.mec.bufferQueue = [] →
    Completes .rebuildWriteDone s fun t =>
      t.igu.rebuild = none ∧ t.igu.rebuildCursor = j.container + 1 ∧ t.igu.rebuildDamage = s.igu.rebuildDamage ∧
      t.cont j.container = some { v with reads := v.reads - 1 } ∧ t.returns = s.returns.erase r) ∧
  (∀ (s : State) (j : RebuildJob) (a : Adoption) (q : Nat) (v : Container), s.igu.rebuild = some j → j.started = true →
    j.writing = false → (s.unitsBack j.units .rebuildRead) = true → j.abandoned = false → s.igu.adoption = some a →
    s.ctm.state ≠ .failed → s.cont j.container = some v → v.live ≠ 0 → v.kind = .data → s.mec.bufferQueue = [] →
    (∀ p : Fin 4, unitAt (unitsAfter j.units (s.returned fun x => x = .rebuildRead) [] j.reread) p.val ≠ .out) →
    q < s.layout.members → q ≠ a.position →
    unitAt (unitsAfter j.units (s.returned fun x => x = .rebuildRead) [] j.reread) q = .failed →
    j.container + 1 < s.containerCount →
    Completes (.rebuildReadsDone []) s fun t =>
      t.igu.rebuild = none ∧ t.igu.rebuildCursor = j.container + 1 ∧
      t.igu.rebuildDamage = tallyUp 79 s.igu.rebuildDamage ∧
      t.cont j.container = some { v with scarred := true, reads := v.reads - 1 }) ∧
  (∀ (s : State) (a : Adoption) (r : Returned) (bs : List Byte),
    (s.returns.find? fun r => r.op.job = .finalLabel) = some r → r.result = .ok bs → s.igu.adoption = some a →
    a.position < 4 → s.ctm.state = .rebuilding → s.member a.position = .rebuilding →
    (∀ q ∈ s.positions, q ≠ a.position → s.member q = .active) → s.igu.step = none → s.pwc.box = .run →
    Completes .rebuildComplete s fun t =>
      t.igu.adoption = none ∧ t.igu.rebuildCursor = s.containerCount ∧ t.member a.position = .active ∧
      (∀ q, q ≠ a.position → t.member q = s.member q) ∧ t.ctm.state = .normal ∧ t.lnk.notices[2].isSome = true ∧
      t.returns = s.returns.erase r ∧ t.tables = s.tables ∧ t.mem = s.mem)

/-! ## Power, sleep and wake -/

/-- SLEEP is accepted in RUN with every stream FREE and nothing rearranged: the box enters SLEEP_ENTRY with the request
unanswered; a host stream that is not FREE has it refused. The steps of sleep entry follow one another: the drained work leads
to the forced seal, the seal to the checkpoint, the checkpoint to the standby of the members: a standby request goes to each
ACTIVE or STANDBY one, and a STANDBY member's bay is switched off and it becomes OFF. With no member ACTIVE or STANDBY and
every bay off the SLEEP is answered OK with the checkpoint's outcome and the grace time, and SLEEP_READY raised; the grace time
leads to self-refresh, and its entry to SLEEP with the host unpowered. SLEEP itself does step 1, and with no array the seal and
the checkpoint end at once (log entry 25). A cause that comes during step 7 is taken after it (log entry 26). The tags of the
entries that LNK frees are forgotten by the owners whose work goes on, 65,536 being a tag that no frame carries (log entry 16).
-/
def Obligations.SleepEntry : Prop :=
  (∀ (s : State) (tag : Nat), s.pwc.box = .run → s.ctm.state ≠ .failed → s.ctm.state ≠ .attaching →
    s.mec.state = .ready → s.ckr.op = .none → s.streamsFree = true → s.rearranging = false → s.igu.step = none →
    Completes (.sleep tag) s fun t =>
      t.pwc = { s.pwc with box := .sleepEntry, entryStep := some 2, sleepTag := some tag, entryCheckpoint := false,
                           cause := none, laterCauses := 0, lateCause := none } ∧
      t.lnk = s.lnk.handedOver (.sleep tag) ∧ t = { s with lnk := t.lnk, pwc := t.pwc, oru := t.oru }) ∧
  (∀ (s : State) (tag : Nat), s.pwc.box = .run → s.ctm.state ≠ .failed → s.ctm.state ≠ .attaching →
    s.mec.state = .ready → s.ckr.op = .none → s.streamsFree = false →
    exec (.sleep tag) s =
      .next { s with lnk := s.lnk.answered (.sleep tag) (ownerReply tag 0x11 .wrongState []) }) ∧
  (∀ s : State, s.atStep 2 = true → s.entryDrained = true → s.pwc.cause = none → s.ctm.state.attached = true →
    exec .entryDrainDone s = .next { s with
      pwc := { s.pwc with entryStep := some 3 },
      ctm := { s.ctm with sealReqs := s.ctm.sealReqs ++ [.sleepEntry] } }) ∧
  (∀ s : State, s.atStep 3 = true → s.sealDone .sleepEntry = true → s.pwc.cause = none →
    Completes .entrySealDone s fun t =>
      t.pwc = { s.pwc with entryStep := some 4, entryCheckpoint := false } ∧ t.ckr.op = .checkpoint ∧
      (t.ckr.ckpt.map fun c => c.why) = some .sleepEntry ∧ t.tables = s.tables) ∧
  (∀ (s : State) (tag : Nat), s.atStep 4 = true → s.ckr.ckpt = none → s.pwc.cause = none → s.pwc.sleepTag = some tag →
    (∀ p < 4, s.member p ≠ .active ∧ s.member p ≠ .standby) → (∀ b < 4, (s.bay b).enable = false) →
    Completes .entryCheckpointDone s fun t =>
      let outcome := if s.pwc.entryCheckpoint then 0 else 1
      t.pwc = { s.pwc with entryStep := some 6, graceTimer := some s.pwc.grace, sleepTag := none } ∧
      t.lnk.replyQueue = (s.lnk.answered (.sleep tag)
        (ownerReply tag 0x11 .ok [⟨1, outcome⟩, ⟨1, s.pwc.grace⟩])).replyQueue ∧
      t.lnk.notices = s.lnk.notices.setIfInBounds 33 (some [⟨1, outcome⟩, ⟨1, s.pwc.grace⟩, ⟨4, s.pwc.time.toNat⟩]) ∧
      t.lnk.entries = s.lnk.entries ∧ t = { s with pwc := t.pwc, lnk := t.lnk }) ∧
  (∀ s : State, s.atStep 4 = true → s.ckr.ckpt = none → s.pwc.cause = none →
    (∃ p < 4, s.member p = .active ∨ s.member p = .standby) →
    Completes .entryCheckpointDone s fun t =>
      t.pwc.entryStep = some 5 ∧ t.pwc.box = .sleepEntry ∧ t.pwc.sleepTag = s.pwc.sleepTag ∧
      (∀ p < 4, t.pwc.standbyAsks[p]? = if s.member p = .active ∨ s.member p = .standby then some (some .sleepEntry)
        else s.pwc.standbyAsks[p]?) ∧
      t = { s with pwc := { s.pwc with entryStep := some 5, standbyAsks := t.pwc.standbyAsks } }) ∧
  (∀ (s : State) (p q b : Nat), s.atStep 5 = true → p < 4 → q < 4 → q ≠ p → s.member q = .active → b < 4 →
    s.pwc.standbyAsks[p]? = some (some .sleepEntry) → s.member p = .standby → (s.chan p).bay = some b →
    s.igu.step = none → (s.ctm.state.attached = true → s.derived = s.ctm.state) →
    Completes (.standbyRequest p) s fun t =>
      t.member p = .off ∧ t.bay b = { s.bay b with enable := false, window := false } ∧
      t.pwc.standbyAsks[p]? = some none ∧ t.pwc.entryStep = some 5 ∧ t.ctm.state = s.ctm.state ∧
      (∀ k, k ≠ p → t.member k = s.member k) ∧ (t.lnk.notices[3 + p]?.getD none).isSome = true ∧
      t.tables = s.tables ∧ t.mem = s.mem) ∧
  (∀ s : State, s.atStep 6 = true → s.pwc.graceTimer.isSome = true →
    exec .graceExpire s = .next { s with
      pwc := { s.pwc with entryStep := some 7, graceTimer := none }, mec := { s.mec with entryAsked := true } }) ∧
  (∀ s : State, s.mec.entryAsked = true → s.mec.state = .ready → s.atStep 7 = true → s.pwc.lateCause = none →
    Completes .selfRefreshEntered s fun t =>
      t.mec = { s.mec with state := .selfRefresh, refreshRunning := false, owed := 0, entryAsked := false } ∧
      t.pwc = { s.pwc with box := .asleep, hostPower := false, entryStep := none, filterActive := true,
                           sleeps := tallyUp 41 s.pwc.sleeps } ∧
      t.lnk.hostPowered = false ∧ t.lnk.entries = [] ∧ t.lnk.replyQueue = [] ∧ t.lnk.lane = none ∧
      t.lnk.notices = s.lnk.notices ∧ t.oru = { s.oru with marks := s.oru.marks.map fun e => (e.1, 65536) } ∧
      t = { s with mec := t.mec, pwc := t.pwc, lnk := t.lnk, oru := t.oru, ctm := { s.ctm with
        waiting := t.ctm.waiting, recordReqs := t.ctm.recordReqs } })

/-- In SLEEP a LAN frame that a pattern matches, a press of the button and a due alarm each start a wake: the cause is recorded,
the box is WAKING and MEC is asked to leave self-refresh. A LAN frame that the filter does not consider is counted as rejected
and changes nothing else. When it has left, the host is powered. In RUN a press raises the
BUTTON notice with its kind and the time; a due alarm becomes off and raises the ALARM notice. The level of the button line
follows the classified presses (log entry 28), and the later causes are counted as log entry 27 says. Which frames the filter
considers rests on the byte order of their CRC, which is the model's choice (log entry 62). -/
def Obligations.WakesAndEvents : Prop :=
  (∀ (s : State) (c : Instr) (k : CauseKind), s.pwc.box = .asleep →
    ((c = .buttonShort ∧ k = .button false) ∨ (c = .buttonLong ∧ k = .button true) ∨
      (c = .alarmFire ∧ ∃ v, s.pwc.alarm = some v ∧ v ≤ s.pwc.time ∧ k = .alarm v)) →
    Completes c s fun t =>
      t.pwc.box = .waking ∧ t.pwc.cause = some { entryStep := none, kind := k } ∧ t.pwc.filterActive = false ∧
      t.mec.exitAsked = true ∧ t.pwc.wakes[k.code]?.getD 0 = tallyUp (30 + k.code) (s.pwc.wakes[k.code]?.getD 0) ∧
      t = { s with pwc := t.pwc, mec := t.mec }) ∧
  (∀ (s : State) (frame : List Byte) (w : Pwc) (n : Nat), s.pwc.box = .asleep → s.pwc.filterActive = true →
    s.pwc.considers frame = true → s.pwc.tryPatterns (frame.take (frame.length - 4)) (List.range 8) = (w, some n) →
    Completes (.lanFrame frame) s fun t =>
      t.pwc.box = .waking ∧
      t.pwc.cause = some { entryStep := none, kind := .lan n ((frame.drop 6).take 6) } ∧ t.mec.exitAsked = true) ∧
  (∀ (s : State) (frame : List Byte), s.pwc.filterActive = true → s.pwc.considers frame = false →
    exec (.lanFrame frame) s =
      .next { s with pwc := { s.pwc with rejected := tallyUp 42 s.pwc.rejected } }) ∧
  (∀ s : State, s.mec.exitAsked = true → s.mec.state = .selfRefresh → s.pwc.box = .waking →
    exec .selfRefreshExited s = .next { s with
      mec := { s.mec with state := .ready, refreshRunning := true, owed := 0, exitAsked := false },
      pwc := { s.pwc with hostPower := true }, lnk := { s.lnk with hostPowered := true } }) ∧
  (∀ (s : State) (long : Bool), s.pwc.box = .run →
    Completes (if long then .buttonLong else .buttonShort) s fun t =>
      t.lnk = { s.lnk with notices :=
        s.lnk.notices.setIfInBounds 35 (some [⟨1, if long then 1 else 0⟩, ⟨4, s.pwc.time.toNat⟩]) } ∧
      t.pwc.button = { samples := (long, long, long), level := long } ∧
      t = { s with lnk := t.lnk, pwc := { s.pwc with button := t.pwc.button } }) ∧
  (∀ (s : State) (v : Time), s.pwc.box = .run → s.pwc.alarm = some v → v ≤ s.pwc.time →
    exec .alarmFire s = .next { s with
      pwc := { s.pwc with alarm := none },
      lnk := { s.lnk with
        notices := s.lnk.notices.setIfInBounds 36 (some [⟨4, v.toNat⟩, ⟨4, s.pwc.time.toNat⟩]) } })

/-- SET_POWER_POLICY clamps idle times to 255, the grace time to 1 to 255 and the spin-up limit to 1 to 4; SET_STATION and
SET_WAKE_PATTERN install their values, the pattern with no last wake; SET_LAMPS applies one of the three modes. A setting
byte other than 0 and 1 is a free value (log entry 5), and no such byte is used here. -/
def Obligations.PowerSettings : Prop :=
  (∀ (s : State) (tag a b c d l g : Nat), s.ctm.state ≠ .failed → s.pwc.spinQueue = [] →
    s.spinningCount ≤ max 1 (min 4 l) →
    Completes (.setPowerPolicy tag a b c d l g) s fun t =>
      t.pwc.idleTimes = #v[min 255 a, min 255 b, min 255 c, min 255 d] ∧ t.pwc.grace = max 1 (min 255 g) ∧
      t.pwc.limit = max 1 (min 4 l) ∧ t.pwc.limitAsked = max 1 (min 4 l) ∧
      t.lnk = s.lnk.answered (.setPowerPolicy tag a b c d l g) (ownerReply tag 0x12 .ok
        [⟨2, min 255 a⟩, ⟨2, min 255 b⟩, ⟨2, min 255 c⟩, ⟨2, min 255 d⟩, ⟨1, max 1 (min 4 l)⟩,
         ⟨2, max 1 (min 255 g)⟩]) ∧
      t = { s with lnk := t.lnk, pwc := t.pwc }) ∧
  (∀ (s : State) (tag : Nat) (address : List Byte), s.ctm.state ≠ .failed → address.length = 6 →
    exec (.setStation tag address 1) s = .next { s with
      pwc := { s.pwc with station := address, broadcast := true },
      lnk := s.lnk.answered (.setStation tag address 1) (ownerReply tag 0x14 .ok []) }) ∧
  (∀ (s : State) (tag n off len : Nat) (bytes : List Byte) (mask : BitVec 16) (iv : Nat), s.ctm.state ≠ .failed →
    n < 8 → bytes.length = 16 →
    Completes (.setWakePattern tag n 1 off len bytes mask iv) s fun t =>
      t.pwc.patterns[n]? = some { enabled := true, offset := min 127 off, length := max 1 (min 16 len), bytes := bytes,
                                  mask := mask, interval := min 255 iv, lastWake := none } ∧
      (∀ m, m ≠ n → t.pwc.patterns[m]? = s.pwc.patterns[m]?) ∧
      t = { s with lnk := t.lnk, pwc := { s.pwc with patterns := t.pwc.patterns } }) ∧
  (∀ (s : State) (tag mode : Nat), mode ≤ 2 → Completes (.setLamps tag mode) s fun t =>
      t.pwc.lampMode.code = mode ∧ (mode ≠ 0 → t.pwc.bayLampsDriven = true) ∧
      t.lnk = s.lnk.answered (.setLamps tag mode) (ownerReply tag 0x17 .ok [⟨1, mode⟩]) ∧
      t = { s with lnk := t.lnk, pwc := { s.pwc with
        lampMode := t.pwc.lampMode, bayLampsDriven := t.pwc.bayLampsDriven } }) ∧
  (∀ (s : State) (tag mode : Nat), 2 < mode →
    exec (.setLamps tag mode) s = .next { s with
      lnk := s.lnk.answered (.setLamps tag mode) (ownerReply tag 0x17 .badArgument []) })

/-! ## The memory -/

/-- The memory comes up READY with every word zero, or FAILED with its notice; an expiry of the refresh timer owes a refresh,
counts an overflow when one is pending, and has the owed ones issued when no burst is in progress. A request for read buffers is
met when enough are free, and otherwise joins the queue; with nobody waiting a return gives them back to the pool. A region map
is put in force when P is large enough, and the marker gives its map again. A byte that is not listed reads as zero (log entry
14). A map or a marker is given while no table is in force (log entry 37), and the refreshes owed are issued when no burst is in
progress (log entry 39). The bursts that wait when the memory fails are dropped with no refusal, which is the model's choice
(log entry 76). -/
def Obligations.MemoryRuns : Prop :=
  (∀ (s : State) (n : Nat), s.mec.state = .initialising →
    (n = 536870912 ∨ n = 1073741824 ∨ n = 2147483648 ∨ n = 4294967296) →
    exec (.memoryInitDone (some n)) s = .next { s with
      mec := { s.mec with state := .ready, size := some n, refreshRunning := true }, mem := [] }) ∧
  (∀ s : State, s.mec.state = .initialising → Completes (.memoryInitDone none) s fun t =>
    t.mec = { s.mec with state := .failed, marker := none, bursts := [] } ∧
    t.lnk = s.lnk.raised 34 [⟨1, 2⟩, ⟨4, s.mec.overflows⟩, ⟨4, s.mec.corrected⟩] ∧
    t = { s with mec := t.mec, lnk := t.lnk }) ∧
  (∀ (s : State) (busy : Bool), s.mec.state = .ready → s.mec.refreshRunning = true → s.mec.owed = 0 →
    exec (.refreshTimerExpire busy) s = .next { s with mec := { s.mec with owed := if busy then 1 else 0 } }) ∧
  (∀ (s : State) (busy : Bool), s.mec.state = .ready → s.mec.refreshRunning = true → 1 ≤ s.mec.owed →
    Completes (.refreshTimerExpire busy) s fun t =>
      t.mec = { s.mec with owed := if busy then min 8 (s.mec.owed + 1) else 0,
                           overflows := tallyUp 80 s.mec.overflows } ∧
      t.lnk = s.lnk.raised 34 [⟨1, 1⟩, ⟨4, tallyUp 80 s.mec.overflows⟩, ⟨4, s.mec.corrected⟩] ∧
      t = { s with mec := t.mec, lnk := t.lnk }) ∧
  (∀ (s : State) (a : BufAsker) (n : Nat), s.askerWaits a = false →
    (n ≤ s.mec.freeBuffers → exec (.readBufferRequest a n) s =
      .next { s with mec := s.mec.setHeld a (s.mec.heldBy a + n) }) ∧
    (s.mec.freeBuffers < n → exec (.readBufferRequest a n) s =
      .next { s with mec := { s.mec with bufferQueue := s.mec.bufferQueue ++ [(a, n)] } }) ∧
    (s.mec.bufferQueue = [] → exec (.readBufferReturn a n) s =
      .next { s with mec := s.mec.setHeld a (s.mec.heldBy a - n) })) ∧
  (∀ (s : State) (b c m : Nat), s.inUse = false → s.mec.size = some m →
    let p := min ((m - (15859648 + (320 * b + 512) + (40 * c + 256))) / 8) 67108864
    exec (.regionMapRequest b c) s = .next { s with mec :=
      if p < 65536 then { s.mec with mapAnswer := none }
      else { s.mec with map := some { buckets := b, containers := c, pool := p }, mapAnswer := some p } }) ∧
  (∀ (s : State) (k : Marker) (m p : Nat), s.inUse = false → s.mec.marker = some k → s.mec.size = some m →
    poolFor m k.buckets k.containers = some p →
    exec .markerRequest s = .next { s with mec :=
      { s.mec with map := some { buckets := k.buckets, containers := k.containers, pool := p },
                   mapAnswer := some k.number } }) ∧
  (∀ s : State, s.inUse = false → s.mec.marker = none →
    exec .markerRequest s = .next { s with mec := { s.mec with mapAnswer := none } })

/-- With no array in the memory a read burst without errors delivers the bytes of the memory and a write burst of whole words
stores its bytes and no others, and owed refreshes follow. An uncorrectable word is flagged, counted in its region, reported
to its owner and noticed, and stays as it is. A burst waits while the memory comes up, in self-refresh and once self-refresh
has been asked for, and is refused in FAILED. With an array in the memory the bytes of the table regions follow the model's
packing (log entry 8). The refreshes follow log entry 39. -/
def Obligations.BurstsReachMemory : Prop :=
  (∀ (s : State) (a n : Nat), s.mec.state = .ready → s.mec.entryAsked = false → s.mec.bursts = [] →
    s.tables.array = none → s.mec.bad = [] → s.tables.bad = [] →
    let b : Burst := { isWrite := false, addr := a, len := n, data := [], errors := [], piece := false }
    a + n ≤ s.mec.size.getD 0 → b.admitted s.mec.map = true →
    exec (.memoryBurst (some b)) s = .next { s with mec :=
      { s.mec with burstAnswer := .delivered (Memory.read s.mem a n) [], owed := 0 } }) ∧
  (∀ (s : State) (a : Nat) (bs : List Byte), s.mec.state = .ready → s.mec.entryAsked = false → s.mec.bursts = [] →
    s.tables.array = none → s.mec.bad = [] → s.tables.bad = [] → a % 8 = 0 → bs.length % 8 = 0 →
    let b : Burst := { isWrite := true, addr := a, len := bs.length, data := bs, errors := [], piece := false }
    a + bs.length ≤ s.mec.size.getD 0 → b.admitted s.mec.map = true →
    Completes (.memoryBurst (some b)) s fun t =>
      Memory.read t.mem a bs.length = bs ∧
      (∀ x, (x < a ∨ a + bs.length ≤ x) → Memory.get t.mem x = Memory.get s.mem x) ∧
      t.mec = { s.mec with burstAnswer := .written, owed := 0 } ∧ t = { s with mec := t.mec, mem := t.mem }) ∧
  (∀ (s : State) (w : Nat), s.mec.state = .ready → s.mec.entryAsked = false → s.mec.bursts = [] → s.mec.bad = [] →
    s.tables.bad = [] → w % 8 = 0 → w < 2097152 →
    w + 8 ≤ s.mec.size.getD 0 →
    Completes (.memoryBurst (some
      { isWrite := false, addr := w, len := 8, data := [], errors := [(0, true)], piece := false })) s fun t =>
      (∃ bs, t.mec.burstAnswer = .delivered bs [0]) ∧ t.mec.bad = [w] ∧
      t.mec.reports = s.mec.reports ++ [(some .rings, w)] ∧
      t.mec.uncorrectable = s.mec.uncorrectable.setIfInBounds 0 (tallyUp 90 s.mec.uncorrectable[0]) ∧
      t.lnk = s.lnk.raised 34 [⟨1, 0⟩, ⟨1, 0⟩, ⟨4, tallyUp 90 s.mec.uncorrectable[0]⟩, ⟨4, s.mec.overflows⟩,
        ⟨4, s.mec.corrected⟩] ∧
      t = { s with mec := t.mec, lnk := t.lnk }) ∧
  (∀ (s : State) (b : Burst), s.mec.state = .failed →
    exec (.memoryBurst (some b)) s = .next { s with mec := { s.mec with burstAnswer := .refused } }) ∧
  (∀ (s : State) (b : Burst), (s.mec.state = .initialising ∨ s.mec.state = .selfRefresh ∨
      (s.mec.state = .ready ∧ s.mec.entryAsked = true)) →
    exec (.memoryBurst (some b)) s = .next { s with mec := { s.mec with bursts := s.mec.bursts ++ [b] } })

/-! ## Forming, checkpoints and attach -/

/-- FORM_ARRAY of present bays sets the array ATTACHING, binds the channels to the listed bays and asks the drives to spin up,
the channels' queues being empty; the sizes give the array record and empty tables with every container on the free list; the
written labels lead to the first checkpoint, of slot A with sequence 1; its end makes the array NORMAL and answers the request.
The ARRAY notice is raised once, at the end (log entry 19). -/
def Obligations.FormingRuns : Prop :=
  (∀ (s : State) (tag n count buckets : Nat) (bays : List Nat) (l : Layout), s.ctm.state = .unformed → s.pwc.box = .run →
    s.mec.state = .ready → layoutOf n = some l → count = l.members → count ≤ bays.length →
    distinctBays (bays.take count) = true → bucketCountGood buckets = true →
    (∀ b ∈ bays.take count, (s.bay b).presence.level = true) → (∀ p < 4, (s.chan p).allQueued = []) →
    Completes (.formArray tag n count bays buckets) s fun t =>
      t.ctm = { s.ctm with state := .attaching } ∧ t.ckr.op = .forming ∧
      t.ckr.form = some { tag := tag, layout := l, bays := bays.take count, buckets := buckets, stage := .drives } ∧
      (∀ j < count, (t.chan j).bay = bays[j]? ∧ t.member j = .off ∧ (t.chan j).spinupAsked = true) ∧
      t.lnk.replyQueue = s.lnk.replyQueue ∧ t.tables = s.tables ∧ t.mem = s.mem) ∧
  (∀ (s : State) (tag n count buckets : Nat) (bays : List Nat), s.ctm.state ≠ .failed →
    (s.ctm.state ≠ .unformed ∨ s.pwc.box ≠ .run ∨ s.mec.state ≠ .ready) →
    exec (.formArray tag n count bays buckets) s = .next { s with
      lnk := s.lnk.answered (.formArray tag n count bays buckets) (ownerReply tag 0x18 .wrongState []) }) ∧
  (∀ (s : State) (f : Forming) (m c p : Nat), s.ckr.form = some f → f.stage = .drives →
    f.bays.length ≤ (s.returned fun j => j = .labelRead).length → s.mec.size = some m →
    c = min 67108864 (s.smallestDrive f.layout.members - 1 - 2 * (m / 65536 - 175)) → 1 ≤ c →
    poolFor m f.buckets c = some p →
    Completes .formDrivesReady s fun t =>
      t.tables.array = some { layout := f.layout, reserved := m / 65536 - 175, containers := c, seq := 1, fence := 0,
                              number := (crc32 (leBytes 4 s.pwc.time.toNat ++
                                leBytes 4 (s.smallestDrive f.layout.members))).toNat } ∧
      t.tables.freeList = List.range c ∧ t.tables.quarantine = [] ∧ t.tables.containers = [] ∧ t.tables.entries = [] ∧
      t.tables.objects = [] ∧ t.tables.buckets = f.buckets ∧ t.inUse = true ∧
      t.mec.map = some { buckets := f.buckets, containers := c, pool := p } ∧
      t.ckr.form = some { f with stage := .labels } ∧ t.mem = s.mem) ∧
  (∀ (s : State) (f : Forming) (a : ArrayRec), s.ckr.form = some f → f.stage = .labels →
    2 * f.bays.length ≤ (s.returned isFormJob).length → (∀ r ∈ s.returned isFormJob, r.result ≠ .error) →
    s.arr = some a →
    Completes .formLabelsWritten s fun t =>
      t.ckr.form = some { f with stage := .slot } ∧
      (t.ckr.ckpt.map fun c => (c.why, c.phase, c.slot, c.seq, c.q, c.piece)) =
        some (.forming, .copying, .a, 1, a.seq - 1, 0) ∧
      t.ctm = { s.ctm with noFree := true } ∧ t.tables = s.tables ∧ t.mem = s.mem) ∧
  (∀ (s : State) (f : Forming) (c : Ckpt) (a : ArrayRec) (m : RegionMap), s.ckr.ckpt = some c → c.why = .forming →
    c.released = true → s.headersBack c = true → 0 < s.headersGood → s.ckr.form = some f → s.arr = some a →
    (∀ r ∈ s.returned (fun j => j = .ckptHeader), r.result ≠ .error) → s.mec.map = some m →
    Completes .checkpointEnd s fun t =>
      t.ctm.state = .normal ∧ t.ckr = { s.ckr with slot := some c.slot, seq := c.seq, q := c.q, op := .none,
                                                   ckpt := none, form := none } ∧
      t.mec.marker = some { number := a.number, buckets := m.buckets, containers := m.containers, pool := m.pool } ∧
      t.pwc.bayLampsDriven = true ∧ t.lnk.notices[2].isSome = true ∧ t.tables = s.tables ∧
      t.lnk.replyQueue = (s.lnk.answered (.formArray f.tag 0 0 [] 0) (ownerReply f.tag 0x18 .ok
        [⟨4, a.number⟩, ⟨4, a.reserved⟩, ⟨4, a.containers⟩, ⟨4, m.pool⟩])).replyQueue)

/-- CHECKPOINT holds every OPEN and DRAINING stream, and is answered BUSY while another is in progress; the quiet streams, with
no segment of a release walk still to be lowered, lead to the forced seal, the seal to the copy of the body piece by piece, and
the last piece to the header of each member. Once a header is written the slot is the current one and the quarantine joins the
free list; the end resumes the held work and answers. The body goes piece by piece, and its bytes are in the model's packing
(log entries 8 and 33). -/
def Obligations.CheckpointRuns : Prop :=
  (∀ (s : State) (tag : Nat), s.ctm.state.attached = true → s.pwc.box = .run → s.ckr.ckpt = none →
    Completes (.checkpoint tag) s fun t =>
      t.ckr.op = .checkpoint ∧
      (t.ckr.ckpt.map fun c => (c.why, c.phase, c.slot, c.seq)) =
        some (.request tag, .holding, (s.ckr.slot.map Slot.other).getD .a, s.ckr.seq + 1) ∧
      (∀ i < 8, t.stream i = { s.stream i with held := (s.stream i).active }) ∧
      t.lnk = s.lnk.handedOver (.checkpoint tag) ∧ t = { s with lnk := t.lnk, ckr := t.ckr, ing := t.ing }) ∧
  (∀ (s : State) (tag : Nat), s.ctm.state.attached = true → s.pwc.box = .run → s.ckr.ckpt.isSome = true →
    exec (.checkpoint tag) s = .next { s with
      lnk := s.lnk.answered (.checkpoint tag) (ownerReply tag 0x1A .busy []) }) ∧
  (∀ (s : State) (c : Ckpt), s.ckr.ckpt = some c → c.phase = .holding → (∀ i < 8, s.stream i = Stream.freeRecord) →
    s.oru.paused = false → s.oru.finishing = false → s.oru.walkRead = .idle → s.tables.holds = [] → s.ctm.recordReqs = [] →
    s.ctm.waiting = [] → s.ctm.reloc = none →
    exec .checkpointQuiet s = .next { s with
      oru := { s.oru with paused := true },
      ckr := { s.ckr with ckpt := some { c with phase := .sealing } },
      ctm := { s.ctm with sealReqs := s.ctm.sealReqs ++ [.checkpoint] } }) ∧
  (∀ (s : State) (c : Ckpt) (a : ArrayRec), s.ckr.ckpt = some c → c.phase = .sealing → s.sealDone .checkpoint = true →
    s.arr = some a →
    Completes .checkpointSealed s fun t =>
      (t.ckr.ckpt.map fun x => (x.why, x.phase, x.slot, x.seq, x.q, x.piece)) =
        some (c.why, .copying, c.slot, c.seq, a.seq - 1, 0) ∧
      t.ctm = { s.ctm with noFree := true } ∧ t.tables = s.tables ∧ t.mem = s.mem) ∧
  (∀ (s : State) (c : Ckpt) (p : Nat) (r : Returned) (bs : List Byte), s.ckr.ckpt = some c → c.phase = .copying →
    c.out = [p] → c.retake = false → r.result = .ok bs →
    (s.returns.find? fun r => r.op.job = .ckptBody && r.position = p) = some r →
    Completes (.checkpointUnitWritten p) s fun t =>
      (s.lastPiece c = false → (t.ckr.ckpt.map fun x => (x.piece, x.out)) = some (c.piece + 1, c.members)) ∧
      (s.lastPiece c = true →
        t.ckr.ckpt = some { c with out := [], headersOut := c.headersOut ++ [p] }) ∧
      t.ckr.slot = s.ckr.slot ∧ t.tables = s.tables ∧ t.ctm = s.ctm ∧ t.mem = s.mem) ∧
  (∀ (s : State) (c : Ckpt), s.ckr.ckpt = some c → c.released = false → s.headersBack c = true → 0 < s.headersGood →
    s.ctm.deferred = [] →
    exec .quarantineRelease s = .next { s with
      tables := s.tables.setLists (s.tables.freeList ++ s.tables.quarantine) [],
      ctm := { s.ctm with checkpointNeeded := false, noOpen := false, noFree := false, deferred := [] },
      ckr := { s.ckr with slot := some c.slot, seq := c.seq, q := c.q,
                          ckpt := some { c with released := true, headersWritten := s.headersGood } } }) ∧
  (∀ (s : State) (c : Ckpt) (tag : Nat), s.ckr.ckpt = some c → c.why = .request tag → c.released = true →
    s.headersBack c = true → 0 < s.headersGood →
    (∀ r ∈ s.returned (fun j => j = .ckptHeader), r.result ≠ .error) →
    Completes .checkpointEnd s fun t =>
      t.ckr = { s.ckr with slot := some c.slot, seq := c.seq, q := c.q, op := .none, ckpt := none } ∧
      t.oru = { s.oru with paused := false, finishing := false } ∧
      t.ctm = { s.ctm with noOpen := false, noFree := false } ∧
      (∀ i < 8, t.stream i = { s.stream i with held := false }) ∧ t.tables = s.tables ∧
      t.lnk.replyQueue = (s.lnk.answered (.checkpoint tag) (ownerReply tag 0x1A .ok
        [⟨1, c.slot.code⟩, ⟨6, c.seq⟩, ⟨6, c.q⟩, ⟨1, s.headersGood⟩])).replyQueue)

/-- ATTACH_ARRAY asks every present drive for its label, the channels' queues being empty; two agreeing labels of a MIRROR2
array bind their positions ACTIVE and have the slot headers read, and no valid label fails the attach. The slot that enough
members hold has its body read; a body that checks gives the tables in force. The ARRAY notice and the end of a failed attach
follow log entries 19 and 20, and what tables a body stands for is in the model's packing (log entry 8). Where the members' headers
of the slot differ, the one read first is taken, which is the model's choice (log entry 96). -/
def Obligations.AttachRuns : Prop :=
  (∀ (s : State) (tag : Nat), s.ctm.state = .unformed → s.pwc.box = .run → s.mec.state = .ready →
    (∀ p < 4, (s.chan p).allQueued = []) →
    Completes (.attachArray tag) s fun t =>
      t.ctm = { s.ctm with state := .attaching } ∧ t.ckr.op = .attaching ∧
      (t.ckr.attach.map fun a => (a.tag, a.stage, a.bays, a.warm)) =
        some (tag, .labels, (List.range 4).filter (fun b => (s.bay b).presence.level), false) ∧
      (∀ b < 4, (s.bay b).presence.level = true →
        (t.chan b).bay = some b ∧ t.member b = .off ∧ (t.chan b).spinupAsked = true) ∧
      t.lnk.replyQueue = s.lnk.replyQueue ∧ t.tables = s.tables ∧ t.mem = s.mem) ∧
  (∀ (s : State) (a : Attach) (b c : Nat) (l k : Label), s.ckr.attach = some a → a.stage = .labels →
    a.bays.length ≤ (s.returned fun j => j = .labelRead).length →
    labelsRead (s.returned fun j => j = .labelRead) = [(b, l), (c, k)] → l.agrees k = true → l.layout = .mirror2 →
    l.position = 0 → k.position = 1 → l.incomplete = false → k.incomplete = false → some l.memory = s.mec.size →
    s.mec.marker = none → s.member b ≠ .failed → s.member c ≠ .failed →
    Completes .attachLabelsRead s fun t =>
      (t.ckr.attach.map fun a => (a.stage, a.label, a.usable, a.warm)) = some (.headers, some l, [0, 1], a.warm) ∧
      t.member 0 = .active ∧ (t.chan 0).bay = some b ∧ t.member 1 = .active ∧ (t.chan 1).bay = some c ∧
      t.member 2 = .absent ∧ (t.chan 2).bay = none ∧ t.member 3 = .absent ∧ (t.chan 3).bay = none ∧
      t.tables = s.tables ∧ t.mem = s.mem) ∧
  (∀ (s : State) (a : Attach), s.ckr.attach = some a → a.stage = .labels →
    a.bays.length ≤ (s.returned fun j => j = .labelRead).length →
    labelsRead (s.returned fun j => j = .labelRead) = [] →
    Completes .attachLabelsRead s fun t =>
      t.ctm.state = .unformed ∧ t.ckr.attach = none ∧ t.ckr.op = .none ∧
      (∀ p < 4, t.member p = .absent ∧ (t.chan p).bay = some p ∧ (t.bay p).enable = false) ∧ t.inUse = false ∧
      t.lnk.replyQueue = (s.lnk.answered (.attachArray a.tag) (ownerReply a.tag 0x19 .badArgument [])).replyQueue) ∧
  (∀ (s : State) (a x : Attach) (l : Label) (e : Bool × Nat) (h : SlotHeader) (p : Nat) (ps : List Nat),
    s.ckr.attach = some a → a.stage = .headers → s.stillOut isHeaderJob = false → a.label = some l → a.warm = false →
    x = { a with heads := headsRead (s.returned isHeaderJob) l } → highest (x.held [false, true]) = some e →
    x.headerOf (slotOf e.1) e.2 = some h → x.holders e.1 e.2 = p :: ps →
    Completes .slotHeadersRead s fun t =>
      t.ckr.attach = some { x with stage := .body, slot := slotOf e.1, seq := e.2, sources := p :: ps,
                                   whole := p :: ps, units := [] } ∧
      t.tables = s.tables ∧ t.ctm = s.ctm) ∧
  (∀ (s : State) (a : Attach) (l : Label) (h : SlotHeader) (us : Assoc (List Byte)) (body : List Byte),
    s.ckr.attach = some a → a.stage = .body → s.stillOut isBodyJob = false → a.label = some l →
    a.headerOf a.slot a.seq = some h → (∀ r ∈ s.returned isBodyJob, r.result.bytes.isSome = true) →
    us = ((s.returned isBodyJob).filterMap fun r => r.result.bytes.map fun bs => (bodyUnitOf r.op.job, bs)).foldl
      (fun m e => putKey m e.1 e.2) a.units →
    body = ((List.range (bodyUnits h.bodyLength)).map fun u => (getKey us u).getD []).flatten.take h.bodyLength →
    crc32 body = h.bodyCrc → s.mec.size.bind (fun m => poolFor m l.buckets l.containers) = some h.pool →
    (∀ p ∈ a.usable, (a.heads.any fun x => x.position = p && x.header.seq = a.seq) = true) →
    l.layout.members ≤ a.usable.length + 1 → a.accepted = [] →
    Completes .slotBodyRead s fun t =>
      t.tables = loadedTables body l h ∧ t.inUse = true ∧
      t.ckr.slot = some a.slot ∧ t.ckr.seq = a.seq ∧ t.ckr.q = h.q ∧
      t.mec.map = some { buckets := l.buckets, containers := l.containers, pool := h.pool } ∧ t.mem = s.mem)

/-- The scan passes a container that does not check, or that checks and is not accepted, and goes on to the next of the free
list, or ends after the fourth in a row; it accepts one whose area checks, or can be made to check, and whose header is
accepted. Replay applies a NEW entry as a replay create, whose conflicts are counted, and a MOVED entry as a replay move, which
takes the chunk's length from one container's live bytes to the other's or is ignored; a SEGMENT record that continues an OPEN
object's map, or begins the map of an object that it creates, adds its location and raises its handles, a handle that it names
several times as often; a SEAL or an ALBUMS record changes its object; and a RELEASE record frees a LOST object, and a RELEASING
one whose walk has ended, at once, and has another one walked first, a RELEASING one from its recorded position. Past the last
item the objects are adjusted and the walks begin; when they have ended the directories of the applied DATA containers are read
again, and with none left the containers are adjusted, the array state is derived and the closing checkpoint begun, whose end
attaches the array. A location joins a map with the pool full too (log entry 67). The objects and the cursor at the end of
replay follow log entry 34, and the state derived is put in force at the attach's end (log entry 19). The directories read again
come one read at a time in the order in which the containers were applied, and an offset past its field is held whole: both are
the model's choice (log entries 35 and 46), as the fields of ATTACH_ARRAY's reply are in part (log entry 12). -/
def Obligations.ReplayRuns : Prop :=
  (∀ (s : State) (a : Attach) (c d : Nat) (rest : List Nat), s.ckr.attach = some a → a.stage = .scan →
    a.scanning = some c → s.stillOut (fun j => j = .scanRead) = false → a.rest = d :: rest → a.misses < 3 →
    ((Stripe.scanArea
      { layout := s.layout, container := c, units := scanUnits (s.returned fun j => j = .scanRead) }).bind fun e =>
        acceptArea s.layout c s.ckr.q e.1) = none →
    Completes .replayScanRead s fun t =>
      t.ckr.attach = some { a with
        misses := a.misses + 1, scanning := some d, rest := rest,
        figures := { a.figures with scanned := tallyUp 61 a.figures.scanned } } ∧ t.tables = s.tables) ∧
  (∀ (s : State) (a : Attach) (c : Nat), s.ckr.attach = some a → a.stage = .scan → a.scanning = some c →
    s.stillOut (fun j => j = .scanRead) = false → a.misses = 3 → a.accepted = [] →
    ((Stripe.scanArea
      { layout := s.layout, container := c, units := scanUnits (s.returned fun j => j = .scanRead) }).bind fun e =>
        acceptArea s.layout c s.ckr.q e.1) = none →
    Completes .replayScanRead s fun t =>
      (t.ckr.attach.map fun a => (a.stage, a.items, a.applied, a.scanning)) = some (.apply, [], [], none) ∧
      t.tables = { s.tables with array := (s.tables.array.map fun r => { r with seq := s.ckr.q + 1 }),
                                 bad := t.tables.bad }) ∧
  (∀ (s : State) (a : Attach) (c d : Nat) (rest : List Nat) (area : List Byte) (fix : Option (Nat × List Byte)) (x : Accepted),
    s.ckr.attach = some a → a.stage = .scan → a.scanning = some c → s.stillOut (fun j => j = .scanRead) = false → a.rest = d :: rest →
    Stripe.scanArea { layout := s.layout, container := c, units := scanUnits (s.returned fun j => j = .scanRead) } =
      some (area, fix) → acceptArea s.layout c s.ckr.q area = some x →
    Completes .replayScanRead s fun t =>
      t.ckr.attach = some { a with
        misses := 0, scanning := some d, rest := rest, accepted := a.accepted ++ [x],
        figures := { a.figures with scanned := tallyUp 61 a.figures.scanned,
                                    accepted := tallyUp 62 a.figures.accepted } } ∧ t.tables = s.tables) ∧
  (∀ (s : State) (a : Attach) (c off o len chunks kind owner segs : Nat) (al : Albums) (r : Obj), s.ckr.attach = some a →
    a.stage = .apply → a.walking = none →
    a.items = [.record c off (some (.closing o len chunks kind owner al segs))] → s.obj o = some r →
    r.state = .opened → segs = r.map.length →
    Completes .replayApply s fun t =>
      t.obj o = some { r with state := .sealed, length := len, chunks := chunks, kind := kind, owner := owner,
                              albums := al, stream := none, sealedAt := 0 } ∧
      (t.ckr.attach.map fun a => (a.stage, a.figures.sealed)) = some (.walks, tallyUp 68 a.figures.sealed) ∧
      t.tables.entries = s.tables.entries ∧ t.tables.containers = s.tables.containers) ∧
  (∀ (s : State) (a : Attach) (c off o : Nat) (al : Albums) (r : Obj), s.ckr.attach = some a →
    a.stage = .apply → a.walking = none → a.items = [.record c off (some (.albums o al))] → s.obj o = some r →
    r.state = .sealed →
    Completes .replayApply s fun t =>
      t.obj o = some { r with albums := al } ∧ (t.ckr.attach.map fun a => a.stage) = some .walks ∧
      t.tables.entries = s.tables.entries ∧ t.tables.containers = s.tables.containers) ∧
  (∀ (s : State) (a : Attach) (c : Nat) (e : DirEntry), s.replays a (.entry c e) → e.kind = 0 → e.handle ≠ noHandle →
    (s.tables.isHandle e.handle = true → s.tables.lostPart e.handle = false → s.tables.entry e.handle = none →
      Completes .replayApply s fun t =>
        getKey t.tables.entries e.handle = some { state := .stored, fp := e.fp, container := c, offset := e.offset,
                                                  refcount := 0, move := none } ∧
        (∀ p, p ≠ e.handle → getKey t.tables.entries p = getKey s.tables.entries p) ∧
        (∀ v, s.cont c = some v → t.cont c = some { v with live := v.live + fpLength e.fp }) ∧
        (∀ d, d ≠ c → t.cont d = s.cont d) ∧
        t.ckr.attach = some { a with stage := .walks, items := [] } ∧ t.mem = s.mem) ∧
    (∀ x, s.tables.isHandle e.handle = true → s.tables.lostPart e.handle = false →
      s.tables.entry e.handle = some x →
      Completes .replayApply s fun t =>
        t.tables.entries = s.tables.entries ∧ t.tables.containers = s.tables.containers ∧
        t.ckr.attach = some { a with stage := .walks, items := [], figures := { a.figures with
          conflicts := if x.fp = e.fp then a.figures.conflicts else tallyUp 63 a.figures.conflicts } }) ∧
    (s.tables.isHandle e.handle = true → s.tables.lostPart e.handle = true → Completes .replayApply s fun t =>
      t.tables.entries = s.tables.entries ∧ t.tables.containers = s.tables.containers ∧
      t.ckr.attach = some { a with
        stage := .walks, items := [], figures := { a.figures with lost := tallyUp 64 a.figures.lost } })) ∧
  (∀ (s : State) (a : Attach) (c : Nat) (e : DirEntry), s.replays a (.entry c e) → e.kind = 1 → e.handle ≠ noHandle →
    (∀ x v w, s.tables.lostPart e.handle = false → s.tables.entry e.handle = some x → x.fp = e.fp →
      x.container ≠ c → s.cont c = some w → s.cont x.container = some v → v.live - fpLength e.fp ≠ 0 →
      v.kind = .data →
      Completes .replayApply s fun t =>
        t.tables.entry e.handle = some { x with container := c, offset := e.offset } ∧
        (∀ p, p ≠ e.handle → getKey t.tables.entries p = getKey s.tables.entries p) ∧
        t.cont c = some { w with live := w.live + fpLength e.fp } ∧
        t.cont x.container = some { v with live := v.live - fpLength e.fp } ∧
        (∀ d, d ≠ c → d ≠ x.container → t.cont d = s.cont d) ∧
        t.ckr.attach = some { a with stage := .walks, items := [] }) ∧
    ((s.tables.lostPart e.handle = true ∨ ((s.tables.entry e.handle).any fun x => x.fp = e.fp) = false) →
      Completes .replayApply s fun t =>
        t.tables.entries = s.tables.entries ∧ t.tables.containers = s.tables.containers ∧
        t.ckr.attach = some { a with stage := .walks, items := [] })) ∧
  (∀ (s : State) (a : Attach) (c off o ord : Nat) (hs : List Nat) (r : Obj) (v : Container),
    s.replays a (.record c off (some (.segment o ord hs))) → o ≠ 0 →
    (s.obj o = some r ∨ (s.obj o = none ∧ r = {
      kind := 2, owner := 0, state := .opened, length := 0, chunks := 0, albums := 0, created := 0, sealedAt := 0,
      map := [], stream := none, walk := none, tail := none, recorded := true })) → r.state = .opened →
    ord = r.map.length → s.cont c = some v →
    (∀ h ∈ hs, s.tables.lostPart h = false ∧
      ((s.tables.entry h).any fun e => e.refcount + hs.count h ≤ 65535) = true) →
    Completes .replayApply s fun t =>
      t.obj o = some { r with state := .releasing, stream := none, tail := none, recorded := true,
                              map := r.map ++ [{ container := c, offset := off }],
                              walk := some { phase := .segments, ordinal := 0, index := 0, lowered := 0 } } ∧
      (∀ p, p ≠ o → t.obj p = (s.obj p).map Obj.adjusted) ∧ o ∈ t.oru.queue ∧
      t.cont c = some { v with segRefs := v.segRefs + 1 } ∧ (∀ d, d ≠ c → t.cont d = s.cont d) ∧
      (∀ h ∈ hs, ∀ e, s.tables.entry h = some e →
        t.tables.entry h = some { e with refcount := e.refcount + hs.count h }) ∧
      (∀ p, p ∉ hs → getKey t.tables.entries p = getKey s.tables.entries p) ∧
      t.ckr.attach = some { a with stage := .walks, items := [], figures := { a.figures with
        created := if (s.obj o).isSome then a.figures.created else tallyUp 67 a.figures.created } }) ∧
  (∀ (s : State) (a : Attach) (c off o : Nat) (r : Obj), s.replays a (.record c off (some (.release o))) →
    s.obj o = some r → (∀ i < 8, (s.stream i).state ≠ .aborting) →
    ((r.state = .lost ∨ (r.state = .releasing ∧ r.walkEnded = true)) → r.map = [] → Completes .replayApply s fun t =>
      t.obj o = none ∧ (∀ p, p ≠ o → t.obj p = (s.obj p).map Obj.adjusted) ∧ o ∉ t.oru.queue ∧
      t.tables.entries = s.tables.entries ∧ t.tables.containers = s.tables.containers ∧
      t.ckr.attach = some { a with
        stage := .walks, items := [], figures := { a.figures with released := tallyUp 60 a.figures.released } }) ∧
    (r.state = .releasing → r.walkEnded = false → Completes .replayApply s fun t =>
      t.obj o = some r ∧ (∀ p, p ≠ o → t.obj p = s.obj p) ∧
      t.ckr.attach = some { a with items := [], walking := some o } ∧
      t.tables.entries = s.tables.entries ∧ t.tables.containers = s.tables.containers) ∧
    (r.state = .sealed ∨ r.state = .opened ∨ r.state = .releasePending → Completes .replayApply s fun t =>
      t.obj o = some { r with state := .releasing, stream := none, tail := none,
                              walk := some { phase := .segments, ordinal := 0, index := 0, lowered := 0 } } ∧
      (∀ p, p ≠ o → t.obj p = s.obj p) ∧ t.ckr.attach = some { a with items := [], walking := some o } ∧
      t.tables.entries = s.tables.entries ∧ t.tables.containers = s.tables.containers)) ∧
  (∀ (s : State) (a : Attach) (c : Nat) (v : Container), s.ckr.attach = some a → a.stage = .walks → s.walksDone = true →
    a.applied = [] → s.tables.containers = [(c, v)] → v.kind = .data → v.live ≠ 0 →
    Completes .replayWalksDone s fun t =>
      t.tables.containers = [(c, v.adjusted)] ∧
      (t.ckr.attach.map fun a => (a.stage, a.derived)) = some (.closing, s.derived) ∧
      (t.ckr.ckpt.map fun c => (c.why, c.phase)) = some (.closing, .sealing) ∧
      t.ctm.sealReqs = s.ctm.sealReqs ++ [.checkpoint] ∧ t.oru.paused = true ∧ t.mem = s.mem) ∧
  (∀ (s : State) (a : Attach) (c : Nat) (rest : List Nat), s.ckr.attach = some a → a.stage = .walks →
    s.walksDone = true → a.dataApplied = c :: rest →
    Completes .replayWalksDone s fun t =>
      t.ckr.attach = some { a with stage := .directories, directories := rest } ∧
      (∃ j, t.readJob s.ctm.nextRead = some j ∧ j.who = .attachDirectory ∧ j.container = c ∧
        j.offset = s.layout.chunkSpace ∧ j.length = directorySize ∧ j.check = .directory) ∧
      t.tables.entries = s.tables.entries ∧ t.mem = s.mem) ∧
  (∀ (s : State) (a : Attach) (c : Ckpt), s.ckr.ckpt = some c → c.why = .closing → c.released = true →
    s.headersBack c = true → 0 < s.headersGood → s.ckr.attach = some a → s.ctm.waiting = [] →
    (∀ r ∈ s.returned (fun j => j = .ckptHeader), r.result ≠ .error) →
    Completes .checkpointEnd s fun t =>
      t.ctm.state = a.derived ∧ t.ckr = { s.ckr with slot := some c.slot, seq := c.seq, q := c.q, op := .none,
                                                     ckpt := none, attach := none, figures := a.figures } ∧
      t.tables = s.tables ∧
      t.lnk.replyQueue = (s.lnk.answered (.attachArray a.tag) (ownerReply a.tag 0x19 .ok
        ([⟨6, c.seq⟩, ⟨6, c.q⟩] ++ a.figures.fields))).replyQueue)

end
end

