-- ==== Sys2Proof/Laws/State.lean ====
section
/-!
SUPPORT. What each small update of the state leaves in each of its fields: one lemma per field and update, so that no later
proof unfolds a record update.
-/

namespace Sys2Proof.Machine

variable (s : State)

@[simp] theorem State.setStream_lnk (i : Nat) (v : Stream) : (s.setStream i v).lnk = s.lnk := rfl
@[simp] theorem State.setStream_ing (i : Nat) (v : Stream) :
    (s.setStream i v).ing = { s.ing with streams := s.ing.streams.setIfInBounds i v } := rfl
@[simp] theorem State.setStream_idx (i : Nat) (v : Stream) : (s.setStream i v).idx = s.idx := rfl
@[simp] theorem State.setStream_oru (i : Nat) (v : Stream) : (s.setStream i v).oru = s.oru := rfl
@[simp] theorem State.setStream_ctm (i : Nat) (v : Stream) : (s.setStream i v).ctm = s.ctm := rfl
@[simp] theorem State.setStream_chans (i : Nat) (v : Stream) : (s.setStream i v).chans = s.chans := rfl
@[simp] theorem State.setStream_rds (i : Nat) (v : Stream) : (s.setStream i v).rds = s.rds := rfl
@[simp] theorem State.setStream_igu (i : Nat) (v : Stream) : (s.setStream i v).igu = s.igu := rfl
@[simp] theorem State.setStream_pwc (i : Nat) (v : Stream) : (s.setStream i v).pwc = s.pwc := rfl
@[simp] theorem State.setStream_mec (i : Nat) (v : Stream) : (s.setStream i v).mec = s.mec := rfl
@[simp] theorem State.setStream_ckr (i : Nat) (v : Stream) : (s.setStream i v).ckr = s.ckr := rfl
@[simp] theorem State.setStream_tables (i : Nat) (v : Stream) : (s.setStream i v).tables = s.tables := rfl
@[simp] theorem State.setStream_inUse (i : Nat) (v : Stream) : (s.setStream i v).inUse = s.inUse := rfl
@[simp] theorem State.setStream_mem (i : Nat) (v : Stream) : (s.setStream i v).mem = s.mem := rfl
@[simp] theorem State.setStream_returns (i : Nat) (v : Stream) : (s.setStream i v).returns = s.returns := rfl
@[simp] theorem State.setStream_pending (i : Nat) (v : Stream) : (s.setStream i v).pending = s.pending := rfl

@[simp] theorem State.setChan_lnk (p : Nat) (v : Channel) : (s.setChan p v).lnk = s.lnk := rfl
@[simp] theorem State.setChan_ing (p : Nat) (v : Channel) : (s.setChan p v).ing = s.ing := rfl
@[simp] theorem State.setChan_idx (p : Nat) (v : Channel) : (s.setChan p v).idx = s.idx := rfl
@[simp] theorem State.setChan_oru (p : Nat) (v : Channel) : (s.setChan p v).oru = s.oru := rfl
@[simp] theorem State.setChan_ctm (p : Nat) (v : Channel) : (s.setChan p v).ctm = s.ctm := rfl
@[simp] theorem State.setChan_chans (p : Nat) (v : Channel) :
    (s.setChan p v).chans = s.chans.setIfInBounds p v := rfl
@[simp] theorem State.setChan_rds (p : Nat) (v : Channel) : (s.setChan p v).rds = s.rds := rfl
@[simp] theorem State.setChan_igu (p : Nat) (v : Channel) : (s.setChan p v).igu = s.igu := rfl
@[simp] theorem State.setChan_pwc (p : Nat) (v : Channel) : (s.setChan p v).pwc = s.pwc := rfl
@[simp] theorem State.setChan_mec (p : Nat) (v : Channel) : (s.setChan p v).mec = s.mec := rfl
@[simp] theorem State.setChan_ckr (p : Nat) (v : Channel) : (s.setChan p v).ckr = s.ckr := rfl
@[simp] theorem State.setChan_tables (p : Nat) (v : Channel) : (s.setChan p v).tables = s.tables := rfl
@[simp] theorem State.setChan_inUse (p : Nat) (v : Channel) : (s.setChan p v).inUse = s.inUse := rfl
@[simp] theorem State.setChan_mem (p : Nat) (v : Channel) : (s.setChan p v).mem = s.mem := rfl
@[simp] theorem State.setChan_returns (p : Nat) (v : Channel) : (s.setChan p v).returns = s.returns := rfl
@[simp] theorem State.setChan_pending (p : Nat) (v : Channel) : (s.setChan p v).pending = s.pending := rfl

@[simp] theorem State.modChan_lnk (p : Nat) (f : Channel → Channel) : (s.modChan p f).lnk = s.lnk := rfl
@[simp] theorem State.modChan_ing (p : Nat) (f : Channel → Channel) : (s.modChan p f).ing = s.ing := rfl
@[simp] theorem State.modChan_idx (p : Nat) (f : Channel → Channel) : (s.modChan p f).idx = s.idx := rfl
@[simp] theorem State.modChan_oru (p : Nat) (f : Channel → Channel) : (s.modChan p f).oru = s.oru := rfl
@[simp] theorem State.modChan_ctm (p : Nat) (f : Channel → Channel) : (s.modChan p f).ctm = s.ctm := rfl
@[simp] theorem State.modChan_rds (p : Nat) (f : Channel → Channel) : (s.modChan p f).rds = s.rds := rfl
@[simp] theorem State.modChan_igu (p : Nat) (f : Channel → Channel) : (s.modChan p f).igu = s.igu := rfl
@[simp] theorem State.modChan_pwc (p : Nat) (f : Channel → Channel) : (s.modChan p f).pwc = s.pwc := rfl
@[simp] theorem State.modChan_mec (p : Nat) (f : Channel → Channel) : (s.modChan p f).mec = s.mec := rfl
@[simp] theorem State.modChan_ckr (p : Nat) (f : Channel → Channel) : (s.modChan p f).ckr = s.ckr := rfl
@[simp] theorem State.modChan_tables (p : Nat) (f : Channel → Channel) : (s.modChan p f).tables = s.tables := rfl
@[simp] theorem State.modChan_inUse (p : Nat) (f : Channel → Channel) : (s.modChan p f).inUse = s.inUse := rfl
@[simp] theorem State.modChan_mem (p : Nat) (f : Channel → Channel) : (s.modChan p f).mem = s.mem := rfl
@[simp] theorem State.modChan_returns (p : Nat) (f : Channel → Channel) : (s.modChan p f).returns = s.returns := rfl
@[simp] theorem State.modChan_pending (p : Nat) (f : Channel → Channel) : (s.modChan p f).pending = s.pending := rfl

@[simp] theorem State.modStream_lnk (i : Nat) (f : Stream → Stream) : (s.modStream i f).lnk = s.lnk := rfl
@[simp] theorem State.modStream_idx (i : Nat) (f : Stream → Stream) : (s.modStream i f).idx = s.idx := rfl
@[simp] theorem State.modStream_oru (i : Nat) (f : Stream → Stream) : (s.modStream i f).oru = s.oru := rfl
@[simp] theorem State.modStream_ctm (i : Nat) (f : Stream → Stream) : (s.modStream i f).ctm = s.ctm := rfl
@[simp] theorem State.modStream_chans (i : Nat) (f : Stream → Stream) : (s.modStream i f).chans = s.chans := rfl
@[simp] theorem State.modStream_rds (i : Nat) (f : Stream → Stream) : (s.modStream i f).rds = s.rds := rfl
@[simp] theorem State.modStream_igu (i : Nat) (f : Stream → Stream) : (s.modStream i f).igu = s.igu := rfl
@[simp] theorem State.modStream_pwc (i : Nat) (f : Stream → Stream) : (s.modStream i f).pwc = s.pwc := rfl
@[simp] theorem State.modStream_mec (i : Nat) (f : Stream → Stream) : (s.modStream i f).mec = s.mec := rfl
@[simp] theorem State.modStream_ckr (i : Nat) (f : Stream → Stream) : (s.modStream i f).ckr = s.ckr := rfl
@[simp] theorem State.modStream_tables (i : Nat) (f : Stream → Stream) : (s.modStream i f).tables = s.tables := rfl
@[simp] theorem State.modStream_inUse (i : Nat) (f : Stream → Stream) : (s.modStream i f).inUse = s.inUse := rfl
@[simp] theorem State.modStream_mem (i : Nat) (f : Stream → Stream) : (s.modStream i f).mem = s.mem := rfl
@[simp] theorem State.modStream_returns (i : Nat) (f : Stream → Stream) : (s.modStream i f).returns = s.returns := rfl
@[simp] theorem State.modStream_pending (i : Nat) (f : Stream → Stream) : (s.modStream i f).pending = s.pending := rfl

@[simp] theorem State.setGrant_lnk (g : Nat) (v : Grant) : (s.setGrant g v).lnk = s.lnk := rfl
@[simp] theorem State.setGrant_ing (g : Nat) (v : Grant) : (s.setGrant g v).ing = s.ing := rfl
@[simp] theorem State.setGrant_idx (g : Nat) (v : Grant) : (s.setGrant g v).idx = s.idx := rfl
@[simp] theorem State.setGrant_oru (g : Nat) (v : Grant) : (s.setGrant g v).oru = s.oru := rfl
@[simp] theorem State.setGrant_ctm (g : Nat) (v : Grant) : (s.setGrant g v).ctm = s.ctm := rfl
@[simp] theorem State.setGrant_chans (g : Nat) (v : Grant) : (s.setGrant g v).chans = s.chans := rfl
@[simp] theorem State.setGrant_rds (g : Nat) (v : Grant) :
    (s.setGrant g v).rds = { s.rds with grants := s.rds.grants.setIfInBounds g v } := rfl
@[simp] theorem State.setGrant_igu (g : Nat) (v : Grant) : (s.setGrant g v).igu = s.igu := rfl
@[simp] theorem State.setGrant_pwc (g : Nat) (v : Grant) : (s.setGrant g v).pwc = s.pwc := rfl
@[simp] theorem State.setGrant_mec (g : Nat) (v : Grant) : (s.setGrant g v).mec = s.mec := rfl
@[simp] theorem State.setGrant_ckr (g : Nat) (v : Grant) : (s.setGrant g v).ckr = s.ckr := rfl
@[simp] theorem State.setGrant_tables (g : Nat) (v : Grant) : (s.setGrant g v).tables = s.tables := rfl
@[simp] theorem State.setGrant_inUse (g : Nat) (v : Grant) : (s.setGrant g v).inUse = s.inUse := rfl
@[simp] theorem State.setGrant_mem (g : Nat) (v : Grant) : (s.setGrant g v).mem = s.mem := rfl
@[simp] theorem State.setGrant_returns (g : Nat) (v : Grant) : (s.setGrant g v).returns = s.returns := rfl
@[simp] theorem State.setGrant_pending (g : Nat) (v : Grant) : (s.setGrant g v).pending = s.pending := rfl

@[simp] theorem State.setReader_lnk (i : Nat) (v : ReadStream) : (s.setReader i v).lnk = s.lnk := rfl
@[simp] theorem State.setReader_ing (i : Nat) (v : ReadStream) : (s.setReader i v).ing = s.ing := rfl
@[simp] theorem State.setReader_idx (i : Nat) (v : ReadStream) : (s.setReader i v).idx = s.idx := rfl
@[simp] theorem State.setReader_oru (i : Nat) (v : ReadStream) : (s.setReader i v).oru = s.oru := rfl
@[simp] theorem State.setReader_ctm (i : Nat) (v : ReadStream) : (s.setReader i v).ctm = s.ctm := rfl
@[simp] theorem State.setReader_chans (i : Nat) (v : ReadStream) : (s.setReader i v).chans = s.chans := rfl
@[simp] theorem State.setReader_rds (i : Nat) (v : ReadStream) :
    (s.setReader i v).rds = { s.rds with streams := s.rds.streams.setIfInBounds i v } := rfl
@[simp] theorem State.setReader_igu (i : Nat) (v : ReadStream) : (s.setReader i v).igu = s.igu := rfl
@[simp] theorem State.setReader_pwc (i : Nat) (v : ReadStream) : (s.setReader i v).pwc = s.pwc := rfl
@[simp] theorem State.setReader_mec (i : Nat) (v : ReadStream) : (s.setReader i v).mec = s.mec := rfl
@[simp] theorem State.setReader_ckr (i : Nat) (v : ReadStream) : (s.setReader i v).ckr = s.ckr := rfl
@[simp] theorem State.setReader_tables (i : Nat) (v : ReadStream) : (s.setReader i v).tables = s.tables := rfl
@[simp] theorem State.setReader_inUse (i : Nat) (v : ReadStream) : (s.setReader i v).inUse = s.inUse := rfl
@[simp] theorem State.setReader_mem (i : Nat) (v : ReadStream) : (s.setReader i v).mem = s.mem := rfl
@[simp] theorem State.setReader_returns (i : Nat) (v : ReadStream) : (s.setReader i v).returns = s.returns := rfl
@[simp] theorem State.setReader_pending (i : Nat) (v : ReadStream) : (s.setReader i v).pending = s.pending := rfl

@[simp] theorem State.modReader_lnk (i : Nat) (f : ReadStream → ReadStream) : (s.modReader i f).lnk = s.lnk := rfl
@[simp] theorem State.modReader_ing (i : Nat) (f : ReadStream → ReadStream) : (s.modReader i f).ing = s.ing := rfl
@[simp] theorem State.modReader_idx (i : Nat) (f : ReadStream → ReadStream) : (s.modReader i f).idx = s.idx := rfl
@[simp] theorem State.modReader_oru (i : Nat) (f : ReadStream → ReadStream) : (s.modReader i f).oru = s.oru := rfl
@[simp] theorem State.modReader_ctm (i : Nat) (f : ReadStream → ReadStream) : (s.modReader i f).ctm = s.ctm := rfl
@[simp] theorem State.modReader_chans (i : Nat) (f : ReadStream → ReadStream) : (s.modReader i f).chans = s.chans := rfl
@[simp] theorem State.modReader_igu (i : Nat) (f : ReadStream → ReadStream) : (s.modReader i f).igu = s.igu := rfl
@[simp] theorem State.modReader_pwc (i : Nat) (f : ReadStream → ReadStream) : (s.modReader i f).pwc = s.pwc := rfl
@[simp] theorem State.modReader_mec (i : Nat) (f : ReadStream → ReadStream) : (s.modReader i f).mec = s.mec := rfl
@[simp] theorem State.modReader_ckr (i : Nat) (f : ReadStream → ReadStream) : (s.modReader i f).ckr = s.ckr := rfl
@[simp] theorem State.modReader_tables (i : Nat) (f : ReadStream → ReadStream) : (s.modReader i f).tables = s.tables := rfl
@[simp] theorem State.modReader_inUse (i : Nat) (f : ReadStream → ReadStream) : (s.modReader i f).inUse = s.inUse := rfl
@[simp] theorem State.modReader_mem (i : Nat) (f : ReadStream → ReadStream) : (s.modReader i f).mem = s.mem := rfl
@[simp] theorem State.modReader_returns (i : Nat) (f : ReadStream → ReadStream) : (s.modReader i f).returns = s.returns := rfl
@[simp] theorem State.modReader_pending (i : Nat) (f : ReadStream → ReadStream) : (s.modReader i f).pending = s.pending := rfl

@[simp] theorem State.setBay_lnk (b : Nat) (v : Bay) : (s.setBay b v).lnk = s.lnk := rfl
@[simp] theorem State.setBay_ing (b : Nat) (v : Bay) : (s.setBay b v).ing = s.ing := rfl
@[simp] theorem State.setBay_idx (b : Nat) (v : Bay) : (s.setBay b v).idx = s.idx := rfl
@[simp] theorem State.setBay_oru (b : Nat) (v : Bay) : (s.setBay b v).oru = s.oru := rfl
@[simp] theorem State.setBay_ctm (b : Nat) (v : Bay) : (s.setBay b v).ctm = s.ctm := rfl
@[simp] theorem State.setBay_chans (b : Nat) (v : Bay) : (s.setBay b v).chans = s.chans := rfl
@[simp] theorem State.setBay_rds (b : Nat) (v : Bay) : (s.setBay b v).rds = s.rds := rfl
@[simp] theorem State.setBay_igu (b : Nat) (v : Bay) : (s.setBay b v).igu = s.igu := rfl
@[simp] theorem State.setBay_pwc (b : Nat) (v : Bay) :
    (s.setBay b v).pwc = { s.pwc with bays := s.pwc.bays.setIfInBounds b v } := rfl
@[simp] theorem State.setBay_mec (b : Nat) (v : Bay) : (s.setBay b v).mec = s.mec := rfl
@[simp] theorem State.setBay_ckr (b : Nat) (v : Bay) : (s.setBay b v).ckr = s.ckr := rfl
@[simp] theorem State.setBay_tables (b : Nat) (v : Bay) : (s.setBay b v).tables = s.tables := rfl
@[simp] theorem State.setBay_inUse (b : Nat) (v : Bay) : (s.setBay b v).inUse = s.inUse := rfl
@[simp] theorem State.setBay_mem (b : Nat) (v : Bay) : (s.setBay b v).mem = s.mem := rfl
@[simp] theorem State.setBay_returns (b : Nat) (v : Bay) : (s.setBay b v).returns = s.returns := rfl
@[simp] theorem State.setBay_pending (b : Nat) (v : Bay) : (s.setBay b v).pending = s.pending := rfl

@[simp] theorem State.setObj_lnk (o : Nat) (v : Option Obj) : (s.setObj o v).lnk = s.lnk := rfl
@[simp] theorem State.setObj_ing (o : Nat) (v : Option Obj) : (s.setObj o v).ing = s.ing := rfl
@[simp] theorem State.setObj_idx (o : Nat) (v : Option Obj) : (s.setObj o v).idx = s.idx := rfl
@[simp] theorem State.setObj_oru (o : Nat) (v : Option Obj) : (s.setObj o v).oru = s.oru := rfl
@[simp] theorem State.setObj_ctm (o : Nat) (v : Option Obj) : (s.setObj o v).ctm = s.ctm := rfl
@[simp] theorem State.setObj_chans (o : Nat) (v : Option Obj) : (s.setObj o v).chans = s.chans := rfl
@[simp] theorem State.setObj_rds (o : Nat) (v : Option Obj) : (s.setObj o v).rds = s.rds := rfl
@[simp] theorem State.setObj_igu (o : Nat) (v : Option Obj) : (s.setObj o v).igu = s.igu := rfl
@[simp] theorem State.setObj_pwc (o : Nat) (v : Option Obj) : (s.setObj o v).pwc = s.pwc := rfl
@[simp] theorem State.setObj_mec (o : Nat) (v : Option Obj) : (s.setObj o v).mec = s.mec := rfl
@[simp] theorem State.setObj_ckr (o : Nat) (v : Option Obj) : (s.setObj o v).ckr = s.ckr := rfl
@[simp] theorem State.setObj_tables (o : Nat) (v : Option Obj) :
    (s.setObj o v).tables = s.tables.setObj o v := rfl
@[simp] theorem State.setObj_inUse (o : Nat) (v : Option Obj) : (s.setObj o v).inUse = s.inUse := rfl
@[simp] theorem State.setObj_mem (o : Nat) (v : Option Obj) : (s.setObj o v).mem = s.mem := rfl
@[simp] theorem State.setObj_returns (o : Nat) (v : Option Obj) : (s.setObj o v).returns = s.returns := rfl
@[simp] theorem State.setObj_pending (o : Nat) (v : Option Obj) : (s.setObj o v).pending = s.pending := rfl

@[simp] theorem State.setCont_lnk (c : Nat) (v : Option Container) : (s.setCont c v).lnk = s.lnk := rfl
@[simp] theorem State.setCont_ing (c : Nat) (v : Option Container) : (s.setCont c v).ing = s.ing := rfl
@[simp] theorem State.setCont_idx (c : Nat) (v : Option Container) : (s.setCont c v).idx = s.idx := rfl
@[simp] theorem State.setCont_oru (c : Nat) (v : Option Container) : (s.setCont c v).oru = s.oru := rfl
@[simp] theorem State.setCont_ctm (c : Nat) (v : Option Container) : (s.setCont c v).ctm = s.ctm := rfl
@[simp] theorem State.setCont_chans (c : Nat) (v : Option Container) : (s.setCont c v).chans = s.chans := rfl
@[simp] theorem State.setCont_rds (c : Nat) (v : Option Container) : (s.setCont c v).rds = s.rds := rfl
@[simp] theorem State.setCont_igu (c : Nat) (v : Option Container) : (s.setCont c v).igu = s.igu := rfl
@[simp] theorem State.setCont_pwc (c : Nat) (v : Option Container) : (s.setCont c v).pwc = s.pwc := rfl
@[simp] theorem State.setCont_mec (c : Nat) (v : Option Container) : (s.setCont c v).mec = s.mec := rfl
@[simp] theorem State.setCont_ckr (c : Nat) (v : Option Container) : (s.setCont c v).ckr = s.ckr := rfl
@[simp] theorem State.setCont_tables (c : Nat) (v : Option Container) :
    (s.setCont c v).tables = s.tables.setCont c v := rfl
@[simp] theorem State.setCont_inUse (c : Nat) (v : Option Container) : (s.setCont c v).inUse = s.inUse := rfl
@[simp] theorem State.setCont_mem (c : Nat) (v : Option Container) : (s.setCont c v).mem = s.mem := rfl
@[simp] theorem State.setCont_returns (c : Nat) (v : Option Container) : (s.setCont c v).returns = s.returns := rfl
@[simp] theorem State.setCont_pending (c : Nat) (v : Option Container) : (s.setCont c v).pending = s.pending := rfl

@[simp] theorem State.onLnk_lnk (f : Lnk → Lnk) :
    (s.onLnk f).lnk = f s.lnk := rfl
@[simp] theorem State.onLnk_ing (f : Lnk → Lnk) : (s.onLnk f).ing = s.ing := rfl
@[simp] theorem State.onLnk_idx (f : Lnk → Lnk) : (s.onLnk f).idx = s.idx := rfl
@[simp] theorem State.onLnk_oru (f : Lnk → Lnk) : (s.onLnk f).oru = s.oru := rfl
@[simp] theorem State.onLnk_ctm (f : Lnk → Lnk) : (s.onLnk f).ctm = s.ctm := rfl
@[simp] theorem State.onLnk_chans (f : Lnk → Lnk) : (s.onLnk f).chans = s.chans := rfl
@[simp] theorem State.onLnk_rds (f : Lnk → Lnk) : (s.onLnk f).rds = s.rds := rfl
@[simp] theorem State.onLnk_igu (f : Lnk → Lnk) : (s.onLnk f).igu = s.igu := rfl
@[simp] theorem State.onLnk_pwc (f : Lnk → Lnk) : (s.onLnk f).pwc = s.pwc := rfl
@[simp] theorem State.onLnk_mec (f : Lnk → Lnk) : (s.onLnk f).mec = s.mec := rfl
@[simp] theorem State.onLnk_ckr (f : Lnk → Lnk) : (s.onLnk f).ckr = s.ckr := rfl
@[simp] theorem State.onLnk_tables (f : Lnk → Lnk) : (s.onLnk f).tables = s.tables := rfl
@[simp] theorem State.onLnk_inUse (f : Lnk → Lnk) : (s.onLnk f).inUse = s.inUse := rfl
@[simp] theorem State.onLnk_mem (f : Lnk → Lnk) : (s.onLnk f).mem = s.mem := rfl
@[simp] theorem State.onLnk_returns (f : Lnk → Lnk) : (s.onLnk f).returns = s.returns := rfl
@[simp] theorem State.onLnk_pending (f : Lnk → Lnk) : (s.onLnk f).pending = s.pending := rfl

@[simp] theorem State.onOru_lnk (f : Oru → Oru) : (s.onOru f).lnk = s.lnk := rfl
@[simp] theorem State.onOru_ing (f : Oru → Oru) : (s.onOru f).ing = s.ing := rfl
@[simp] theorem State.onOru_idx (f : Oru → Oru) : (s.onOru f).idx = s.idx := rfl
@[simp] theorem State.onOru_oru (f : Oru → Oru) :
    (s.onOru f).oru = f s.oru := rfl
@[simp] theorem State.onOru_ctm (f : Oru → Oru) : (s.onOru f).ctm = s.ctm := rfl
@[simp] theorem State.onOru_chans (f : Oru → Oru) : (s.onOru f).chans = s.chans := rfl
@[simp] theorem State.onOru_rds (f : Oru → Oru) : (s.onOru f).rds = s.rds := rfl
@[simp] theorem State.onOru_igu (f : Oru → Oru) : (s.onOru f).igu = s.igu := rfl
@[simp] theorem State.onOru_pwc (f : Oru → Oru) : (s.onOru f).pwc = s.pwc := rfl
@[simp] theorem State.onOru_mec (f : Oru → Oru) : (s.onOru f).mec = s.mec := rfl
@[simp] theorem State.onOru_ckr (f : Oru → Oru) : (s.onOru f).ckr = s.ckr := rfl
@[simp] theorem State.onOru_tables (f : Oru → Oru) : (s.onOru f).tables = s.tables := rfl
@[simp] theorem State.onOru_inUse (f : Oru → Oru) : (s.onOru f).inUse = s.inUse := rfl
@[simp] theorem State.onOru_mem (f : Oru → Oru) : (s.onOru f).mem = s.mem := rfl
@[simp] theorem State.onOru_returns (f : Oru → Oru) : (s.onOru f).returns = s.returns := rfl
@[simp] theorem State.onOru_pending (f : Oru → Oru) : (s.onOru f).pending = s.pending := rfl

@[simp] theorem State.onCtm_lnk (f : Ctm → Ctm) : (s.onCtm f).lnk = s.lnk := rfl
@[simp] theorem State.onCtm_ing (f : Ctm → Ctm) : (s.onCtm f).ing = s.ing := rfl
@[simp] theorem State.onCtm_idx (f : Ctm → Ctm) : (s.onCtm f).idx = s.idx := rfl
@[simp] theorem State.onCtm_oru (f : Ctm → Ctm) : (s.onCtm f).oru = s.oru := rfl
@[simp] theorem State.onCtm_ctm (f : Ctm → Ctm) :
    (s.onCtm f).ctm = f s.ctm := rfl
@[simp] theorem State.onCtm_chans (f : Ctm → Ctm) : (s.onCtm f).chans = s.chans := rfl
@[simp] theorem State.onCtm_rds (f : Ctm → Ctm) : (s.onCtm f).rds = s.rds := rfl
@[simp] theorem State.onCtm_igu (f : Ctm → Ctm) : (s.onCtm f).igu = s.igu := rfl
@[simp] theorem State.onCtm_pwc (f : Ctm → Ctm) : (s.onCtm f).pwc = s.pwc := rfl
@[simp] theorem State.onCtm_mec (f : Ctm → Ctm) : (s.onCtm f).mec = s.mec := rfl
@[simp] theorem State.onCtm_ckr (f : Ctm → Ctm) : (s.onCtm f).ckr = s.ckr := rfl
@[simp] theorem State.onCtm_tables (f : Ctm → Ctm) : (s.onCtm f).tables = s.tables := rfl
@[simp] theorem State.onCtm_inUse (f : Ctm → Ctm) : (s.onCtm f).inUse = s.inUse := rfl
@[simp] theorem State.onCtm_mem (f : Ctm → Ctm) : (s.onCtm f).mem = s.mem := rfl
@[simp] theorem State.onCtm_returns (f : Ctm → Ctm) : (s.onCtm f).returns = s.returns := rfl
@[simp] theorem State.onCtm_pending (f : Ctm → Ctm) : (s.onCtm f).pending = s.pending := rfl

@[simp] theorem State.onIgu_lnk (f : Igu → Igu) : (s.onIgu f).lnk = s.lnk := rfl
@[simp] theorem State.onIgu_ing (f : Igu → Igu) : (s.onIgu f).ing = s.ing := rfl
@[simp] theorem State.onIgu_idx (f : Igu → Igu) : (s.onIgu f).idx = s.idx := rfl
@[simp] theorem State.onIgu_oru (f : Igu → Igu) : (s.onIgu f).oru = s.oru := rfl
@[simp] theorem State.onIgu_ctm (f : Igu → Igu) : (s.onIgu f).ctm = s.ctm := rfl
@[simp] theorem State.onIgu_chans (f : Igu → Igu) : (s.onIgu f).chans = s.chans := rfl
@[simp] theorem State.onIgu_rds (f : Igu → Igu) : (s.onIgu f).rds = s.rds := rfl
@[simp] theorem State.onIgu_igu (f : Igu → Igu) :
    (s.onIgu f).igu = f s.igu := rfl
@[simp] theorem State.onIgu_pwc (f : Igu → Igu) : (s.onIgu f).pwc = s.pwc := rfl
@[simp] theorem State.onIgu_mec (f : Igu → Igu) : (s.onIgu f).mec = s.mec := rfl
@[simp] theorem State.onIgu_ckr (f : Igu → Igu) : (s.onIgu f).ckr = s.ckr := rfl
@[simp] theorem State.onIgu_tables (f : Igu → Igu) : (s.onIgu f).tables = s.tables := rfl
@[simp] theorem State.onIgu_inUse (f : Igu → Igu) : (s.onIgu f).inUse = s.inUse := rfl
@[simp] theorem State.onIgu_mem (f : Igu → Igu) : (s.onIgu f).mem = s.mem := rfl
@[simp] theorem State.onIgu_returns (f : Igu → Igu) : (s.onIgu f).returns = s.returns := rfl
@[simp] theorem State.onIgu_pending (f : Igu → Igu) : (s.onIgu f).pending = s.pending := rfl

@[simp] theorem State.onPwc_lnk (f : Pwc → Pwc) : (s.onPwc f).lnk = s.lnk := rfl
@[simp] theorem State.onPwc_ing (f : Pwc → Pwc) : (s.onPwc f).ing = s.ing := rfl
@[simp] theorem State.onPwc_idx (f : Pwc → Pwc) : (s.onPwc f).idx = s.idx := rfl
@[simp] theorem State.onPwc_oru (f : Pwc → Pwc) : (s.onPwc f).oru = s.oru := rfl
@[simp] theorem State.onPwc_ctm (f : Pwc → Pwc) : (s.onPwc f).ctm = s.ctm := rfl
@[simp] theorem State.onPwc_chans (f : Pwc → Pwc) : (s.onPwc f).chans = s.chans := rfl
@[simp] theorem State.onPwc_rds (f : Pwc → Pwc) : (s.onPwc f).rds = s.rds := rfl
@[simp] theorem State.onPwc_igu (f : Pwc → Pwc) : (s.onPwc f).igu = s.igu := rfl
@[simp] theorem State.onPwc_pwc (f : Pwc → Pwc) :
    (s.onPwc f).pwc = f s.pwc := rfl
@[simp] theorem State.onPwc_mec (f : Pwc → Pwc) : (s.onPwc f).mec = s.mec := rfl
@[simp] theorem State.onPwc_ckr (f : Pwc → Pwc) : (s.onPwc f).ckr = s.ckr := rfl
@[simp] theorem State.onPwc_tables (f : Pwc → Pwc) : (s.onPwc f).tables = s.tables := rfl
@[simp] theorem State.onPwc_inUse (f : Pwc → Pwc) : (s.onPwc f).inUse = s.inUse := rfl
@[simp] theorem State.onPwc_mem (f : Pwc → Pwc) : (s.onPwc f).mem = s.mem := rfl
@[simp] theorem State.onPwc_returns (f : Pwc → Pwc) : (s.onPwc f).returns = s.returns := rfl
@[simp] theorem State.onPwc_pending (f : Pwc → Pwc) : (s.onPwc f).pending = s.pending := rfl

@[simp] theorem State.onMec_lnk (f : Mec → Mec) : (s.onMec f).lnk = s.lnk := rfl
@[simp] theorem State.onMec_ing (f : Mec → Mec) : (s.onMec f).ing = s.ing := rfl
@[simp] theorem State.onMec_idx (f : Mec → Mec) : (s.onMec f).idx = s.idx := rfl
@[simp] theorem State.onMec_oru (f : Mec → Mec) : (s.onMec f).oru = s.oru := rfl
@[simp] theorem State.onMec_ctm (f : Mec → Mec) : (s.onMec f).ctm = s.ctm := rfl
@[simp] theorem State.onMec_chans (f : Mec → Mec) : (s.onMec f).chans = s.chans := rfl
@[simp] theorem State.onMec_rds (f : Mec → Mec) : (s.onMec f).rds = s.rds := rfl
@[simp] theorem State.onMec_igu (f : Mec → Mec) : (s.onMec f).igu = s.igu := rfl
@[simp] theorem State.onMec_pwc (f : Mec → Mec) : (s.onMec f).pwc = s.pwc := rfl
@[simp] theorem State.onMec_mec (f : Mec → Mec) :
    (s.onMec f).mec = f s.mec := rfl
@[simp] theorem State.onMec_ckr (f : Mec → Mec) : (s.onMec f).ckr = s.ckr := rfl
@[simp] theorem State.onMec_tables (f : Mec → Mec) : (s.onMec f).tables = s.tables := rfl
@[simp] theorem State.onMec_inUse (f : Mec → Mec) : (s.onMec f).inUse = s.inUse := rfl
@[simp] theorem State.onMec_mem (f : Mec → Mec) : (s.onMec f).mem = s.mem := rfl
@[simp] theorem State.onMec_returns (f : Mec → Mec) : (s.onMec f).returns = s.returns := rfl
@[simp] theorem State.onMec_pending (f : Mec → Mec) : (s.onMec f).pending = s.pending := rfl

@[simp] theorem State.onCkr_lnk (f : Ckr → Ckr) : (s.onCkr f).lnk = s.lnk := rfl
@[simp] theorem State.onCkr_ing (f : Ckr → Ckr) : (s.onCkr f).ing = s.ing := rfl
@[simp] theorem State.onCkr_idx (f : Ckr → Ckr) : (s.onCkr f).idx = s.idx := rfl
@[simp] theorem State.onCkr_oru (f : Ckr → Ckr) : (s.onCkr f).oru = s.oru := rfl
@[simp] theorem State.onCkr_ctm (f : Ckr → Ckr) : (s.onCkr f).ctm = s.ctm := rfl
@[simp] theorem State.onCkr_chans (f : Ckr → Ckr) : (s.onCkr f).chans = s.chans := rfl
@[simp] theorem State.onCkr_rds (f : Ckr → Ckr) : (s.onCkr f).rds = s.rds := rfl
@[simp] theorem State.onCkr_igu (f : Ckr → Ckr) : (s.onCkr f).igu = s.igu := rfl
@[simp] theorem State.onCkr_pwc (f : Ckr → Ckr) : (s.onCkr f).pwc = s.pwc := rfl
@[simp] theorem State.onCkr_mec (f : Ckr → Ckr) : (s.onCkr f).mec = s.mec := rfl
@[simp] theorem State.onCkr_ckr (f : Ckr → Ckr) :
    (s.onCkr f).ckr = f s.ckr := rfl
@[simp] theorem State.onCkr_tables (f : Ckr → Ckr) : (s.onCkr f).tables = s.tables := rfl
@[simp] theorem State.onCkr_inUse (f : Ckr → Ckr) : (s.onCkr f).inUse = s.inUse := rfl
@[simp] theorem State.onCkr_mem (f : Ckr → Ckr) : (s.onCkr f).mem = s.mem := rfl
@[simp] theorem State.onCkr_returns (f : Ckr → Ckr) : (s.onCkr f).returns = s.returns := rfl
@[simp] theorem State.onCkr_pending (f : Ckr → Ckr) : (s.onCkr f).pending = s.pending := rfl

@[simp] theorem State.onTables_lnk (f : Tables → Tables) : (s.onTables f).lnk = s.lnk := rfl
@[simp] theorem State.onTables_ing (f : Tables → Tables) : (s.onTables f).ing = s.ing := rfl
@[simp] theorem State.onTables_idx (f : Tables → Tables) : (s.onTables f).idx = s.idx := rfl
@[simp] theorem State.onTables_oru (f : Tables → Tables) : (s.onTables f).oru = s.oru := rfl
@[simp] theorem State.onTables_ctm (f : Tables → Tables) : (s.onTables f).ctm = s.ctm := rfl
@[simp] theorem State.onTables_chans (f : Tables → Tables) : (s.onTables f).chans = s.chans := rfl
@[simp] theorem State.onTables_rds (f : Tables → Tables) : (s.onTables f).rds = s.rds := rfl
@[simp] theorem State.onTables_igu (f : Tables → Tables) : (s.onTables f).igu = s.igu := rfl
@[simp] theorem State.onTables_pwc (f : Tables → Tables) : (s.onTables f).pwc = s.pwc := rfl
@[simp] theorem State.onTables_mec (f : Tables → Tables) : (s.onTables f).mec = s.mec := rfl
@[simp] theorem State.onTables_ckr (f : Tables → Tables) : (s.onTables f).ckr = s.ckr := rfl
@[simp] theorem State.onTables_tables (f : Tables → Tables) :
    (s.onTables f).tables = f s.tables := rfl
@[simp] theorem State.onTables_inUse (f : Tables → Tables) : (s.onTables f).inUse = s.inUse := rfl
@[simp] theorem State.onTables_mem (f : Tables → Tables) : (s.onTables f).mem = s.mem := rfl
@[simp] theorem State.onTables_returns (f : Tables → Tables) : (s.onTables f).returns = s.returns := rfl
@[simp] theorem State.onTables_pending (f : Tables → Tables) : (s.onTables f).pending = s.pending := rfl

@[simp] theorem State.notice_lnk (n : Nat) (fs : List Field) :
    (s.notice n fs).lnk = { s.lnk with notices := s.lnk.notices.setIfInBounds n (some fs) } := rfl
@[simp] theorem State.notice_ing (n : Nat) (fs : List Field) : (s.notice n fs).ing = s.ing := rfl
@[simp] theorem State.notice_idx (n : Nat) (fs : List Field) : (s.notice n fs).idx = s.idx := rfl
@[simp] theorem State.notice_oru (n : Nat) (fs : List Field) : (s.notice n fs).oru = s.oru := rfl
@[simp] theorem State.notice_ctm (n : Nat) (fs : List Field) : (s.notice n fs).ctm = s.ctm := rfl
@[simp] theorem State.notice_chans (n : Nat) (fs : List Field) : (s.notice n fs).chans = s.chans := rfl
@[simp] theorem State.notice_rds (n : Nat) (fs : List Field) : (s.notice n fs).rds = s.rds := rfl
@[simp] theorem State.notice_igu (n : Nat) (fs : List Field) : (s.notice n fs).igu = s.igu := rfl
@[simp] theorem State.notice_pwc (n : Nat) (fs : List Field) : (s.notice n fs).pwc = s.pwc := rfl
@[simp] theorem State.notice_mec (n : Nat) (fs : List Field) : (s.notice n fs).mec = s.mec := rfl
@[simp] theorem State.notice_ckr (n : Nat) (fs : List Field) : (s.notice n fs).ckr = s.ckr := rfl
@[simp] theorem State.notice_tables (n : Nat) (fs : List Field) : (s.notice n fs).tables = s.tables := rfl
@[simp] theorem State.notice_inUse (n : Nat) (fs : List Field) : (s.notice n fs).inUse = s.inUse := rfl
@[simp] theorem State.notice_mem (n : Nat) (fs : List Field) : (s.notice n fs).mem = s.mem := rfl
@[simp] theorem State.notice_returns (n : Nat) (fs : List Field) : (s.notice n fs).returns = s.returns := rfl
@[simp] theorem State.notice_pending (n : Nat) (fs : List Field) : (s.notice n fs).pending = s.pending := rfl

@[simp] theorem State.taken_lnk (c : Instr) :
    (s.taken c).lnk = { s.lnk with dispatched := s.lnk.dispatched.erase c } := rfl
@[simp] theorem State.taken_ing (c : Instr) : (s.taken c).ing = s.ing := rfl
@[simp] theorem State.taken_idx (c : Instr) : (s.taken c).idx = s.idx := rfl
@[simp] theorem State.taken_oru (c : Instr) : (s.taken c).oru = s.oru := rfl
@[simp] theorem State.taken_ctm (c : Instr) : (s.taken c).ctm = s.ctm := rfl
@[simp] theorem State.taken_chans (c : Instr) : (s.taken c).chans = s.chans := rfl
@[simp] theorem State.taken_rds (c : Instr) : (s.taken c).rds = s.rds := rfl
@[simp] theorem State.taken_igu (c : Instr) : (s.taken c).igu = s.igu := rfl
@[simp] theorem State.taken_pwc (c : Instr) : (s.taken c).pwc = s.pwc := rfl
@[simp] theorem State.taken_mec (c : Instr) : (s.taken c).mec = s.mec := rfl
@[simp] theorem State.taken_ckr (c : Instr) : (s.taken c).ckr = s.ckr := rfl
@[simp] theorem State.taken_tables (c : Instr) : (s.taken c).tables = s.tables := rfl
@[simp] theorem State.taken_inUse (c : Instr) : (s.taken c).inUse = s.inUse := rfl
@[simp] theorem State.taken_mem (c : Instr) : (s.taken c).mem = s.mem := rfl
@[simp] theorem State.taken_returns (c : Instr) : (s.taken c).returns = s.returns := rfl
@[simp] theorem State.taken_pending (c : Instr) : (s.taken c).pending = s.pending := rfl

@[simp] theorem State.idxAnswer_lnk (a : IdxAnswer) : (s.idxAnswer a).lnk = s.lnk := rfl
@[simp] theorem State.idxAnswer_ing (a : IdxAnswer) : (s.idxAnswer a).ing = s.ing := rfl
@[simp] theorem State.idxAnswer_idx (a : IdxAnswer) :
    (s.idxAnswer a).idx = { s.idx with answer := a } := rfl
@[simp] theorem State.idxAnswer_oru (a : IdxAnswer) : (s.idxAnswer a).oru = s.oru := rfl
@[simp] theorem State.idxAnswer_ctm (a : IdxAnswer) : (s.idxAnswer a).ctm = s.ctm := rfl
@[simp] theorem State.idxAnswer_chans (a : IdxAnswer) : (s.idxAnswer a).chans = s.chans := rfl
@[simp] theorem State.idxAnswer_rds (a : IdxAnswer) : (s.idxAnswer a).rds = s.rds := rfl
@[simp] theorem State.idxAnswer_igu (a : IdxAnswer) : (s.idxAnswer a).igu = s.igu := rfl
@[simp] theorem State.idxAnswer_pwc (a : IdxAnswer) : (s.idxAnswer a).pwc = s.pwc := rfl
@[simp] theorem State.idxAnswer_mec (a : IdxAnswer) : (s.idxAnswer a).mec = s.mec := rfl
@[simp] theorem State.idxAnswer_ckr (a : IdxAnswer) : (s.idxAnswer a).ckr = s.ckr := rfl
@[simp] theorem State.idxAnswer_tables (a : IdxAnswer) : (s.idxAnswer a).tables = s.tables := rfl
@[simp] theorem State.idxAnswer_inUse (a : IdxAnswer) : (s.idxAnswer a).inUse = s.inUse := rfl
@[simp] theorem State.idxAnswer_mem (a : IdxAnswer) : (s.idxAnswer a).mem = s.mem := rfl
@[simp] theorem State.idxAnswer_returns (a : IdxAnswer) : (s.idxAnswer a).returns = s.returns := rfl
@[simp] theorem State.idxAnswer_pending (a : IdxAnswer) : (s.idxAnswer a).pending = s.pending := rfl

@[simp] theorem State.rewords_lnk (f : Nat → Bool) : (s.rewords f).lnk = s.lnk := rfl
@[simp] theorem State.rewords_ing (f : Nat → Bool) : (s.rewords f).ing = s.ing := rfl
@[simp] theorem State.rewords_idx (f : Nat → Bool) : (s.rewords f).idx = s.idx := rfl
@[simp] theorem State.rewords_oru (f : Nat → Bool) : (s.rewords f).oru = s.oru := rfl
@[simp] theorem State.rewords_ctm (f : Nat → Bool) : (s.rewords f).ctm = s.ctm := rfl
@[simp] theorem State.rewords_chans (f : Nat → Bool) : (s.rewords f).chans = s.chans := rfl
@[simp] theorem State.rewords_rds (f : Nat → Bool) : (s.rewords f).rds = s.rds := rfl
@[simp] theorem State.rewords_igu (f : Nat → Bool) : (s.rewords f).igu = s.igu := rfl
@[simp] theorem State.rewords_pwc (f : Nat → Bool) : (s.rewords f).pwc = s.pwc := rfl
@[simp] theorem State.rewords_ckr (f : Nat → Bool) : (s.rewords f).ckr = s.ckr := rfl
@[simp] theorem State.rewords_tables (f : Nat → Bool) : (s.rewords f).tables = s.tables := rfl
@[simp] theorem State.rewords_inUse (f : Nat → Bool) : (s.rewords f).inUse = s.inUse := rfl
@[simp] theorem State.rewords_returns (f : Nat → Bool) : (s.rewords f).returns = s.returns := rfl
@[simp] theorem State.rewords_pending (f : Nat → Bool) : (s.rewords f).pending = s.pending := rfl

@[simp] theorem State.writeMem_lnk (a : Nat) (bs : List Byte) : (s.writeMem a bs).lnk = s.lnk := rfl
@[simp] theorem State.writeMem_ing (a : Nat) (bs : List Byte) : (s.writeMem a bs).ing = s.ing := rfl
@[simp] theorem State.writeMem_idx (a : Nat) (bs : List Byte) : (s.writeMem a bs).idx = s.idx := rfl
@[simp] theorem State.writeMem_oru (a : Nat) (bs : List Byte) : (s.writeMem a bs).oru = s.oru := rfl
@[simp] theorem State.writeMem_ctm (a : Nat) (bs : List Byte) : (s.writeMem a bs).ctm = s.ctm := rfl
@[simp] theorem State.writeMem_chans (a : Nat) (bs : List Byte) : (s.writeMem a bs).chans = s.chans := rfl
@[simp] theorem State.writeMem_rds (a : Nat) (bs : List Byte) : (s.writeMem a bs).rds = s.rds := rfl
@[simp] theorem State.writeMem_igu (a : Nat) (bs : List Byte) : (s.writeMem a bs).igu = s.igu := rfl
@[simp] theorem State.writeMem_pwc (a : Nat) (bs : List Byte) : (s.writeMem a bs).pwc = s.pwc := rfl
@[simp] theorem State.writeMem_ckr (a : Nat) (bs : List Byte) : (s.writeMem a bs).ckr = s.ckr := rfl
@[simp] theorem State.writeMem_tables (a : Nat) (bs : List Byte) : (s.writeMem a bs).tables = s.tables := rfl
@[simp] theorem State.writeMem_inUse (a : Nat) (bs : List Byte) : (s.writeMem a bs).inUse = s.inUse := rfl
@[simp] theorem State.writeMem_returns (a : Nat) (bs : List Byte) : (s.writeMem a bs).returns = s.returns := rfl
@[simp] theorem State.writeMem_pending (a : Nat) (bs : List Byte) : (s.writeMem a bs).pending = s.pending := rfl

@[simp] theorem State.zeroMem_lnk (a n : Nat) : (s.zeroMem a n).lnk = s.lnk := rfl
@[simp] theorem State.zeroMem_ing (a n : Nat) : (s.zeroMem a n).ing = s.ing := rfl
@[simp] theorem State.zeroMem_idx (a n : Nat) : (s.zeroMem a n).idx = s.idx := rfl
@[simp] theorem State.zeroMem_oru (a n : Nat) : (s.zeroMem a n).oru = s.oru := rfl
@[simp] theorem State.zeroMem_ctm (a n : Nat) : (s.zeroMem a n).ctm = s.ctm := rfl
@[simp] theorem State.zeroMem_chans (a n : Nat) : (s.zeroMem a n).chans = s.chans := rfl
@[simp] theorem State.zeroMem_rds (a n : Nat) : (s.zeroMem a n).rds = s.rds := rfl
@[simp] theorem State.zeroMem_igu (a n : Nat) : (s.zeroMem a n).igu = s.igu := rfl
@[simp] theorem State.zeroMem_pwc (a n : Nat) : (s.zeroMem a n).pwc = s.pwc := rfl
@[simp] theorem State.zeroMem_ckr (a n : Nat) : (s.zeroMem a n).ckr = s.ckr := rfl
@[simp] theorem State.zeroMem_tables (a n : Nat) : (s.zeroMem a n).tables = s.tables := rfl
@[simp] theorem State.zeroMem_inUse (a n : Nat) : (s.zeroMem a n).inUse = s.inUse := rfl
@[simp] theorem State.zeroMem_returns (a n : Nat) : (s.zeroMem a n).returns = s.returns := rfl
@[simp] theorem State.zeroMem_pending (a n : Nat) : (s.zeroMem a n).pending = s.pending := rfl

@[simp] theorem State.tablesWritten_lnk (t : Tables) : (s.tablesWritten t).lnk = s.lnk := rfl
@[simp] theorem State.tablesWritten_ing (t : Tables) : (s.tablesWritten t).ing = s.ing := rfl
@[simp] theorem State.tablesWritten_idx (t : Tables) : (s.tablesWritten t).idx = s.idx := rfl
@[simp] theorem State.tablesWritten_oru (t : Tables) : (s.tablesWritten t).oru = s.oru := rfl
@[simp] theorem State.tablesWritten_ctm (t : Tables) : (s.tablesWritten t).ctm = s.ctm := rfl
@[simp] theorem State.tablesWritten_chans (t : Tables) : (s.tablesWritten t).chans = s.chans := rfl
@[simp] theorem State.tablesWritten_rds (t : Tables) : (s.tablesWritten t).rds = s.rds := rfl
@[simp] theorem State.tablesWritten_igu (t : Tables) : (s.tablesWritten t).igu = s.igu := rfl
@[simp] theorem State.tablesWritten_pwc (t : Tables) : (s.tablesWritten t).pwc = s.pwc := rfl
@[simp] theorem State.tablesWritten_ckr (t : Tables) : (s.tablesWritten t).ckr = s.ckr := rfl
@[simp] theorem State.tablesWritten_mem (t : Tables) : (s.tablesWritten t).mem = s.mem := rfl
@[simp] theorem State.tablesWritten_returns (t : Tables) : (s.tablesWritten t).returns = s.returns := rfl
@[simp] theorem State.tablesWritten_pending (t : Tables) : (s.tablesWritten t).pending = s.pending := rfl

@[simp] theorem State.onArray_lnk (f : ArrayRec → ArrayRec) : (s.onArray f).lnk = s.lnk := rfl
@[simp] theorem State.onArray_ing (f : ArrayRec → ArrayRec) : (s.onArray f).ing = s.ing := rfl
@[simp] theorem State.onArray_idx (f : ArrayRec → ArrayRec) : (s.onArray f).idx = s.idx := rfl
@[simp] theorem State.onArray_oru (f : ArrayRec → ArrayRec) : (s.onArray f).oru = s.oru := rfl
@[simp] theorem State.onArray_ctm (f : ArrayRec → ArrayRec) : (s.onArray f).ctm = s.ctm := rfl
@[simp] theorem State.onArray_chans (f : ArrayRec → ArrayRec) : (s.onArray f).chans = s.chans := rfl
@[simp] theorem State.onArray_rds (f : ArrayRec → ArrayRec) : (s.onArray f).rds = s.rds := rfl
@[simp] theorem State.onArray_igu (f : ArrayRec → ArrayRec) : (s.onArray f).igu = s.igu := rfl
@[simp] theorem State.onArray_pwc (f : ArrayRec → ArrayRec) : (s.onArray f).pwc = s.pwc := rfl
@[simp] theorem State.onArray_mec (f : ArrayRec → ArrayRec) : (s.onArray f).mec = s.mec := rfl
@[simp] theorem State.onArray_ckr (f : ArrayRec → ArrayRec) : (s.onArray f).ckr = s.ckr := rfl
@[simp] theorem State.onArray_inUse (f : ArrayRec → ArrayRec) : (s.onArray f).inUse = s.inUse := rfl
@[simp] theorem State.onArray_mem (f : ArrayRec → ArrayRec) : (s.onArray f).mem = s.mem := rfl
@[simp] theorem State.onArray_returns (f : ArrayRec → ArrayRec) : (s.onArray f).returns = s.returns := rfl
@[simp] theorem State.onArray_pending (f : ArrayRec → ArrayRec) : (s.onArray f).pending = s.pending := rfl

@[simp] theorem State.setReaders_lnk (o n : Nat) : (s.setReaders o n).lnk = s.lnk := rfl
@[simp] theorem State.setReaders_ing (o n : Nat) : (s.setReaders o n).ing = s.ing := rfl
@[simp] theorem State.setReaders_idx (o n : Nat) : (s.setReaders o n).idx = s.idx := rfl
@[simp] theorem State.setReaders_ctm (o n : Nat) : (s.setReaders o n).ctm = s.ctm := rfl
@[simp] theorem State.setReaders_chans (o n : Nat) : (s.setReaders o n).chans = s.chans := rfl
@[simp] theorem State.setReaders_rds (o n : Nat) : (s.setReaders o n).rds = s.rds := rfl
@[simp] theorem State.setReaders_igu (o n : Nat) : (s.setReaders o n).igu = s.igu := rfl
@[simp] theorem State.setReaders_pwc (o n : Nat) : (s.setReaders o n).pwc = s.pwc := rfl
@[simp] theorem State.setReaders_mec (o n : Nat) : (s.setReaders o n).mec = s.mec := rfl
@[simp] theorem State.setReaders_ckr (o n : Nat) : (s.setReaders o n).ckr = s.ckr := rfl
@[simp] theorem State.setReaders_tables (o n : Nat) : (s.setReaders o n).tables = s.tables := rfl
@[simp] theorem State.setReaders_inUse (o n : Nat) : (s.setReaders o n).inUse = s.inUse := rfl
@[simp] theorem State.setReaders_mem (o n : Nat) : (s.setReaders o n).mem = s.mem := rfl
@[simp] theorem State.setReaders_returns (o n : Nat) : (s.setReaders o n).returns = s.returns := rfl
@[simp] theorem State.setReaders_pending (o n : Nat) : (s.setReaders o n).pending = s.pending := rfl

@[simp] theorem State.wait_lnk (w : Waiter) : (s.wait w).lnk = s.lnk := rfl
@[simp] theorem State.wait_ing (w : Waiter) : (s.wait w).ing = s.ing := rfl
@[simp] theorem State.wait_idx (w : Waiter) : (s.wait w).idx = s.idx := rfl
@[simp] theorem State.wait_oru (w : Waiter) : (s.wait w).oru = s.oru := rfl
@[simp] theorem State.wait_chans (w : Waiter) : (s.wait w).chans = s.chans := rfl
@[simp] theorem State.wait_rds (w : Waiter) : (s.wait w).rds = s.rds := rfl
@[simp] theorem State.wait_igu (w : Waiter) : (s.wait w).igu = s.igu := rfl
@[simp] theorem State.wait_pwc (w : Waiter) : (s.wait w).pwc = s.pwc := rfl
@[simp] theorem State.wait_mec (w : Waiter) : (s.wait w).mec = s.mec := rfl
@[simp] theorem State.wait_ckr (w : Waiter) : (s.wait w).ckr = s.ckr := rfl
@[simp] theorem State.wait_tables (w : Waiter) : (s.wait w).tables = s.tables := rfl
@[simp] theorem State.wait_inUse (w : Waiter) : (s.wait w).inUse = s.inUse := rfl
@[simp] theorem State.wait_mem (w : Waiter) : (s.wait w).mem = s.mem := rfl
@[simp] theorem State.wait_returns (w : Waiter) : (s.wait w).returns = s.returns := rfl
@[simp] theorem State.wait_pending (w : Waiter) : (s.wait w).pending = s.pending := rfl

@[simp] theorem State.holdBack_lnk (q p : Nat) (o : Op) : (s.holdBack q p o).lnk = s.lnk := rfl
@[simp] theorem State.holdBack_ing (q p : Nat) (o : Op) : (s.holdBack q p o).ing = s.ing := rfl
@[simp] theorem State.holdBack_idx (q p : Nat) (o : Op) : (s.holdBack q p o).idx = s.idx := rfl
@[simp] theorem State.holdBack_oru (q p : Nat) (o : Op) : (s.holdBack q p o).oru = s.oru := rfl
@[simp] theorem State.holdBack_ctm (q p : Nat) (o : Op) : (s.holdBack q p o).ctm = s.ctm := rfl
@[simp] theorem State.holdBack_rds (q p : Nat) (o : Op) : (s.holdBack q p o).rds = s.rds := rfl
@[simp] theorem State.holdBack_igu (q p : Nat) (o : Op) : (s.holdBack q p o).igu = s.igu := rfl
@[simp] theorem State.holdBack_pwc (q p : Nat) (o : Op) : (s.holdBack q p o).pwc = s.pwc := rfl
@[simp] theorem State.holdBack_mec (q p : Nat) (o : Op) : (s.holdBack q p o).mec = s.mec := rfl
@[simp] theorem State.holdBack_ckr (q p : Nat) (o : Op) : (s.holdBack q p o).ckr = s.ckr := rfl
@[simp] theorem State.holdBack_tables (q p : Nat) (o : Op) : (s.holdBack q p o).tables = s.tables := rfl
@[simp] theorem State.holdBack_inUse (q p : Nat) (o : Op) : (s.holdBack q p o).inUse = s.inUse := rfl
@[simp] theorem State.holdBack_mem (q p : Nat) (o : Op) : (s.holdBack q p o).mem = s.mem := rfl
@[simp] theorem State.holdBack_returns (q p : Nat) (o : Op) : (s.holdBack q p o).returns = s.returns := rfl
@[simp] theorem State.holdBack_pending (q p : Nat) (o : Op) : (s.holdBack q p o).pending = s.pending := rfl

@[simp] theorem State.reportTakenOf_lnk (rs : List Region) : (s.reportTakenOf rs).lnk = s.lnk := rfl
@[simp] theorem State.reportTakenOf_ing (rs : List Region) : (s.reportTakenOf rs).ing = s.ing := rfl
@[simp] theorem State.reportTakenOf_idx (rs : List Region) : (s.reportTakenOf rs).idx = s.idx := rfl
@[simp] theorem State.reportTakenOf_oru (rs : List Region) : (s.reportTakenOf rs).oru = s.oru := rfl
@[simp] theorem State.reportTakenOf_ctm (rs : List Region) : (s.reportTakenOf rs).ctm = s.ctm := rfl
@[simp] theorem State.reportTakenOf_chans (rs : List Region) : (s.reportTakenOf rs).chans = s.chans := rfl
@[simp] theorem State.reportTakenOf_rds (rs : List Region) : (s.reportTakenOf rs).rds = s.rds := rfl
@[simp] theorem State.reportTakenOf_igu (rs : List Region) : (s.reportTakenOf rs).igu = s.igu := rfl
@[simp] theorem State.reportTakenOf_pwc (rs : List Region) : (s.reportTakenOf rs).pwc = s.pwc := rfl
@[simp] theorem State.reportTakenOf_ckr (rs : List Region) : (s.reportTakenOf rs).ckr = s.ckr := rfl
@[simp] theorem State.reportTakenOf_tables (rs : List Region) : (s.reportTakenOf rs).tables = s.tables := rfl
@[simp] theorem State.reportTakenOf_inUse (rs : List Region) : (s.reportTakenOf rs).inUse = s.inUse := rfl
@[simp] theorem State.reportTakenOf_mem (rs : List Region) : (s.reportTakenOf rs).mem = s.mem := rfl
@[simp] theorem State.reportTakenOf_returns (rs : List Region) : (s.reportTakenOf rs).returns = s.returns := rfl
@[simp] theorem State.reportTakenOf_pending (rs : List Region) : (s.reportTakenOf rs).pending = s.pending := rfl

@[simp] theorem State.setBuffer_lnk (k : Nat) (b : Option StripeBuf) : (s.setBuffer k b).lnk = s.lnk := rfl
@[simp] theorem State.setBuffer_ing (k : Nat) (b : Option StripeBuf) : (s.setBuffer k b).ing = s.ing := rfl
@[simp] theorem State.setBuffer_idx (k : Nat) (b : Option StripeBuf) : (s.setBuffer k b).idx = s.idx := rfl
@[simp] theorem State.setBuffer_oru (k : Nat) (b : Option StripeBuf) : (s.setBuffer k b).oru = s.oru := rfl
@[simp] theorem State.setBuffer_ctm (k : Nat) (b : Option StripeBuf) :
    (s.setBuffer k b).ctm = { s.ctm with buffers := s.ctm.buffers.setIfInBounds k b } := rfl
@[simp] theorem State.setBuffer_chans (k : Nat) (b : Option StripeBuf) : (s.setBuffer k b).chans = s.chans := rfl
@[simp] theorem State.setBuffer_rds (k : Nat) (b : Option StripeBuf) : (s.setBuffer k b).rds = s.rds := rfl
@[simp] theorem State.setBuffer_igu (k : Nat) (b : Option StripeBuf) : (s.setBuffer k b).igu = s.igu := rfl
@[simp] theorem State.setBuffer_pwc (k : Nat) (b : Option StripeBuf) : (s.setBuffer k b).pwc = s.pwc := rfl
@[simp] theorem State.setBuffer_mec (k : Nat) (b : Option StripeBuf) : (s.setBuffer k b).mec = s.mec := rfl
@[simp] theorem State.setBuffer_ckr (k : Nat) (b : Option StripeBuf) : (s.setBuffer k b).ckr = s.ckr := rfl
@[simp] theorem State.setBuffer_tables (k : Nat) (b : Option StripeBuf) : (s.setBuffer k b).tables = s.tables := rfl
@[simp] theorem State.setBuffer_inUse (k : Nat) (b : Option StripeBuf) : (s.setBuffer k b).inUse = s.inUse := rfl
@[simp] theorem State.setBuffer_mem (k : Nat) (b : Option StripeBuf) : (s.setBuffer k b).mem = s.mem := rfl
@[simp] theorem State.setBuffer_returns (k : Nat) (b : Option StripeBuf) : (s.setBuffer k b).returns = s.returns := rfl
@[simp] theorem State.setBuffer_pending (k : Nat) (b : Option StripeBuf) : (s.setBuffer k b).pending = s.pending := rfl

/-! ## The writes of the tables -/

variable (t : Tables)

@[simp] theorem Tables.write_objects (touch : Nat → Bool) (new : Tables) : (t.write touch new).objects = new.objects := rfl
@[simp] theorem Tables.write_buckets (touch : Nat → Bool) (new : Tables) : (t.write touch new).buckets = new.buckets := rfl
@[simp] theorem Tables.write_entries (touch : Nat → Bool) (new : Tables) : (t.write touch new).entries = new.entries := rfl
@[simp] theorem Tables.write_headers (touch : Nat → Bool) (new : Tables) : (t.write touch new).headers = new.headers := rfl
@[simp] theorem Tables.write_holds (touch : Nat → Bool) (new : Tables) : (t.write touch new).holds = new.holds := rfl
@[simp] theorem Tables.write_containers (touch : Nat → Bool) (new : Tables) :
    (t.write touch new).containers =
      new.containers := rfl
@[simp] theorem Tables.write_freeList (touch : Nat → Bool) (new : Tables) :
    (t.write touch new).freeList =
      new.freeList := rfl
@[simp] theorem Tables.write_quarantine (touch : Nat → Bool) (new : Tables) :
    (t.write touch new).quarantine =
      new.quarantine := rfl
@[simp] theorem Tables.write_array (touch : Nat → Bool) (new : Tables) : (t.write touch new).array = new.array := rfl
@[simp] theorem Tables.write_scrubCursor (touch : Nat → Bool) (new : Tables) :
    (t.write touch new).scrubCursor =
      new.scrubCursor := rfl
@[simp] theorem Tables.write_scrubPass (touch : Nat → Bool) (new : Tables) :
    (t.write touch new).scrubPass =
      new.scrubPass := rfl

@[simp] theorem Tables.setObj_objects (o : Nat) (v : Option Obj) : (t.setObj o v).objects = setKey t.objects o v := rfl
@[simp] theorem Tables.setObj_buckets (o : Nat) (v : Option Obj) : (t.setObj o v).buckets = t.buckets := rfl
@[simp] theorem Tables.setObj_entries (o : Nat) (v : Option Obj) : (t.setObj o v).entries = t.entries := rfl
@[simp] theorem Tables.setObj_headers (o : Nat) (v : Option Obj) : (t.setObj o v).headers = t.headers := rfl
@[simp] theorem Tables.setObj_holds (o : Nat) (v : Option Obj) : (t.setObj o v).holds = t.holds := rfl
@[simp] theorem Tables.setObj_containers (o : Nat) (v : Option Obj) : (t.setObj o v).containers = t.containers := rfl
@[simp] theorem Tables.setObj_freeList (o : Nat) (v : Option Obj) : (t.setObj o v).freeList = t.freeList := rfl
@[simp] theorem Tables.setObj_quarantine (o : Nat) (v : Option Obj) : (t.setObj o v).quarantine = t.quarantine := rfl
@[simp] theorem Tables.setObj_array (o : Nat) (v : Option Obj) : (t.setObj o v).array = t.array := rfl
@[simp] theorem Tables.setObj_scrubCursor (o : Nat) (v : Option Obj) : (t.setObj o v).scrubCursor = t.scrubCursor := rfl
@[simp] theorem Tables.setObj_scrubPass (o : Nat) (v : Option Obj) : (t.setObj o v).scrubPass = t.scrubPass := rfl

@[simp] theorem Tables.setCont_objects (c : Nat) (v : Option Container) : (t.setCont c v).objects = t.objects := rfl
@[simp] theorem Tables.setCont_buckets (c : Nat) (v : Option Container) : (t.setCont c v).buckets = t.buckets := rfl
@[simp] theorem Tables.setCont_entries (c : Nat) (v : Option Container) : (t.setCont c v).entries = t.entries := rfl
@[simp] theorem Tables.setCont_headers (c : Nat) (v : Option Container) : (t.setCont c v).headers = t.headers := rfl
@[simp] theorem Tables.setCont_holds (c : Nat) (v : Option Container) : (t.setCont c v).holds = t.holds := rfl
@[simp] theorem Tables.setCont_containers (c : Nat) (v : Option Container) :
    (t.setCont c v).containers =
      setKey t.containers c v := rfl
@[simp] theorem Tables.setCont_freeList (c : Nat) (v : Option Container) : (t.setCont c v).freeList = t.freeList := rfl
@[simp] theorem Tables.setCont_quarantine (c : Nat) (v : Option Container) :
    (t.setCont c v).quarantine =
      t.quarantine := rfl
@[simp] theorem Tables.setCont_array (c : Nat) (v : Option Container) : (t.setCont c v).array = t.array := rfl
@[simp] theorem Tables.setCont_scrubCursor (c : Nat) (v : Option Container) :
    (t.setCont c v).scrubCursor =
      t.scrubCursor := rfl
@[simp] theorem Tables.setCont_scrubPass (c : Nat) (v : Option Container) : (t.setCont c v).scrubPass = t.scrubPass := rfl

@[simp] theorem Tables.rewriteCont_objects (c : Nat) : (t.rewriteCont c).objects = t.objects := rfl
@[simp] theorem Tables.rewriteCont_buckets (c : Nat) : (t.rewriteCont c).buckets = t.buckets := rfl
@[simp] theorem Tables.rewriteCont_entries (c : Nat) : (t.rewriteCont c).entries = t.entries := rfl
@[simp] theorem Tables.rewriteCont_headers (c : Nat) : (t.rewriteCont c).headers = t.headers := rfl
@[simp] theorem Tables.rewriteCont_holds (c : Nat) : (t.rewriteCont c).holds = t.holds := rfl
@[simp] theorem Tables.rewriteCont_containers (c : Nat) : (t.rewriteCont c).containers = t.containers := rfl
@[simp] theorem Tables.rewriteCont_freeList (c : Nat) : (t.rewriteCont c).freeList = t.freeList := rfl
@[simp] theorem Tables.rewriteCont_quarantine (c : Nat) : (t.rewriteCont c).quarantine = t.quarantine := rfl
@[simp] theorem Tables.rewriteCont_array (c : Nat) : (t.rewriteCont c).array = t.array := rfl
@[simp] theorem Tables.rewriteCont_scrubCursor (c : Nat) : (t.rewriteCont c).scrubCursor = t.scrubCursor := rfl
@[simp] theorem Tables.rewriteCont_scrubPass (c : Nat) : (t.rewriteCont c).scrubPass = t.scrubPass := rfl

@[simp] theorem Tables.setArea_objects (new : Tables) : (t.setArea new).objects = new.objects := rfl
@[simp] theorem Tables.setArea_buckets (new : Tables) : (t.setArea new).buckets = new.buckets := rfl
@[simp] theorem Tables.setArea_entries (new : Tables) : (t.setArea new).entries = new.entries := rfl
@[simp] theorem Tables.setArea_headers (new : Tables) : (t.setArea new).headers = new.headers := rfl
@[simp] theorem Tables.setArea_holds (new : Tables) : (t.setArea new).holds = new.holds := rfl
@[simp] theorem Tables.setArea_containers (new : Tables) : (t.setArea new).containers = new.containers := rfl
@[simp] theorem Tables.setArea_freeList (new : Tables) : (t.setArea new).freeList = new.freeList := rfl
@[simp] theorem Tables.setArea_quarantine (new : Tables) : (t.setArea new).quarantine = new.quarantine := rfl
@[simp] theorem Tables.setArea_array (new : Tables) : (t.setArea new).array = new.array := rfl
@[simp] theorem Tables.setArea_scrubCursor (new : Tables) : (t.setArea new).scrubCursor = new.scrubCursor := rfl
@[simp] theorem Tables.setArea_scrubPass (new : Tables) : (t.setArea new).scrubPass = new.scrubPass := rfl

@[simp] theorem Tables.setLists_objects (free quarantine : List Nat) :
    (t.setLists free quarantine).objects =
      t.objects := rfl
@[simp] theorem Tables.setLists_buckets (free quarantine : List Nat) :
    (t.setLists free quarantine).buckets =
      t.buckets := rfl
@[simp] theorem Tables.setLists_entries (free quarantine : List Nat) :
    (t.setLists free quarantine).entries =
      t.entries := rfl
@[simp] theorem Tables.setLists_headers (free quarantine : List Nat) :
    (t.setLists free quarantine).headers =
      t.headers := rfl
@[simp] theorem Tables.setLists_holds (free quarantine : List Nat) : (t.setLists free quarantine).holds = t.holds := rfl
@[simp] theorem Tables.setLists_containers (free quarantine : List Nat) :
    (t.setLists free quarantine).containers =
      t.containers := rfl
@[simp] theorem Tables.setLists_freeList (free quarantine : List Nat) : (t.setLists free quarantine).freeList = free := rfl
@[simp] theorem Tables.setLists_quarantine (free quarantine : List Nat) :
    (t.setLists free quarantine).quarantine =
      quarantine := rfl
@[simp] theorem Tables.setLists_array (free quarantine : List Nat) : (t.setLists free quarantine).array = t.array := rfl
@[simp] theorem Tables.setLists_scrubCursor (free quarantine : List Nat) :
    (t.setLists free quarantine).scrubCursor =
      t.scrubCursor := rfl
@[simp] theorem Tables.setLists_scrubPass (free quarantine : List Nat) :
    (t.setLists free quarantine).scrubPass =
      t.scrubPass := rfl

@[simp] theorem Tables.setEntry_objects (h : Nat) (e : Option IdxEntry) : (t.setEntry h e).objects = t.objects := rfl
@[simp] theorem Tables.setEntry_buckets (h : Nat) (e : Option IdxEntry) : (t.setEntry h e).buckets = t.buckets := rfl
@[simp] theorem Tables.setEntry_entries (h : Nat) (e : Option IdxEntry) :
    (t.setEntry h e).entries =
      setKey t.entries h e := rfl
@[simp] theorem Tables.setEntry_headers (h : Nat) (e : Option IdxEntry) : (t.setEntry h e).headers = t.headers := rfl
@[simp] theorem Tables.setEntry_holds (h : Nat) (e : Option IdxEntry) : (t.setEntry h e).holds = t.holds := rfl
@[simp] theorem Tables.setEntry_containers (h : Nat) (e : Option IdxEntry) :
    (t.setEntry h e).containers =
      t.containers := rfl
@[simp] theorem Tables.setEntry_freeList (h : Nat) (e : Option IdxEntry) : (t.setEntry h e).freeList = t.freeList := rfl
@[simp] theorem Tables.setEntry_quarantine (h : Nat) (e : Option IdxEntry) :
    (t.setEntry h e).quarantine =
      t.quarantine := rfl
@[simp] theorem Tables.setEntry_array (h : Nat) (e : Option IdxEntry) : (t.setEntry h e).array = t.array := rfl
@[simp] theorem Tables.setEntry_scrubCursor (h : Nat) (e : Option IdxEntry) :
    (t.setEntry h e).scrubCursor =
      t.scrubCursor := rfl
@[simp] theorem Tables.setEntry_scrubPass (h : Nat) (e : Option IdxEntry) : (t.setEntry h e).scrubPass = t.scrubPass := rfl

@[simp] theorem Tables.setHeader_objects (b : Nat) (h : BucketHeader) : (t.setHeader b h).objects = t.objects := rfl
@[simp] theorem Tables.setHeader_buckets (b : Nat) (h : BucketHeader) : (t.setHeader b h).buckets = t.buckets := rfl
@[simp] theorem Tables.setHeader_entries (b : Nat) (h : BucketHeader) : (t.setHeader b h).entries = t.entries := rfl
@[simp] theorem Tables.setHeader_headers (b : Nat) (h : BucketHeader) :
    (t.setHeader b h).headers =
      if h = BucketHeader.blank then dropKey t.headers b else putKey t.headers b h := rfl
@[simp] theorem Tables.setHeader_holds (b : Nat) (h : BucketHeader) : (t.setHeader b h).holds = t.holds := rfl
@[simp] theorem Tables.setHeader_containers (b : Nat) (h : BucketHeader) :
    (t.setHeader b h).containers =
      t.containers := rfl
@[simp] theorem Tables.setHeader_freeList (b : Nat) (h : BucketHeader) : (t.setHeader b h).freeList = t.freeList := rfl
@[simp] theorem Tables.setHeader_quarantine (b : Nat) (h : BucketHeader) :
    (t.setHeader b h).quarantine =
      t.quarantine := rfl
@[simp] theorem Tables.setHeader_array (b : Nat) (h : BucketHeader) : (t.setHeader b h).array = t.array := rfl
@[simp] theorem Tables.setHeader_scrubCursor (b : Nat) (h : BucketHeader) :
    (t.setHeader b h).scrubCursor =
      t.scrubCursor := rfl
@[simp] theorem Tables.setHeader_scrubPass (b : Nat) (h : BucketHeader) : (t.setHeader b h).scrubPass = t.scrubPass := rfl

@[simp] theorem Tables.setHolds_objects (hs : List Hold) : (t.setHolds hs).objects = t.objects := rfl
@[simp] theorem Tables.setHolds_buckets (hs : List Hold) : (t.setHolds hs).buckets = t.buckets := rfl
@[simp] theorem Tables.setHolds_entries (hs : List Hold) : (t.setHolds hs).entries = t.entries := rfl
@[simp] theorem Tables.setHolds_headers (hs : List Hold) : (t.setHolds hs).headers = t.headers := rfl
@[simp] theorem Tables.setHolds_holds (hs : List Hold) : (t.setHolds hs).holds = hs := rfl
@[simp] theorem Tables.setHolds_containers (hs : List Hold) : (t.setHolds hs).containers = t.containers := rfl
@[simp] theorem Tables.setHolds_freeList (hs : List Hold) : (t.setHolds hs).freeList = t.freeList := rfl
@[simp] theorem Tables.setHolds_quarantine (hs : List Hold) : (t.setHolds hs).quarantine = t.quarantine := rfl
@[simp] theorem Tables.setHolds_array (hs : List Hold) : (t.setHolds hs).array = t.array := rfl
@[simp] theorem Tables.setHolds_scrubCursor (hs : List Hold) : (t.setHolds hs).scrubCursor = t.scrubCursor := rfl
@[simp] theorem Tables.setHolds_scrubPass (hs : List Hold) : (t.setHolds hs).scrubPass = t.scrubPass := rfl

@[simp] theorem Tables.dropMoves_objects : (t.dropMoves).objects = t.objects := rfl
@[simp] theorem Tables.dropMoves_buckets : (t.dropMoves).buckets = t.buckets := rfl
@[simp] theorem Tables.dropMoves_entries  :
    (t.dropMoves ).entries =
      t.entries.map fun e => (e.1, { e.2 with move := none }) := rfl
@[simp] theorem Tables.dropMoves_headers : (t.dropMoves).headers = t.headers := rfl
@[simp] theorem Tables.dropMoves_holds : (t.dropMoves).holds = t.holds := rfl
@[simp] theorem Tables.dropMoves_containers : (t.dropMoves).containers = t.containers := rfl
@[simp] theorem Tables.dropMoves_freeList : (t.dropMoves).freeList = t.freeList := rfl
@[simp] theorem Tables.dropMoves_quarantine : (t.dropMoves).quarantine = t.quarantine := rfl
@[simp] theorem Tables.dropMoves_array : (t.dropMoves).array = t.array := rfl
@[simp] theorem Tables.dropMoves_scrubCursor : (t.dropMoves).scrubCursor = t.scrubCursor := rfl
@[simp] theorem Tables.dropMoves_scrubPass : (t.dropMoves).scrubPass = t.scrubPass := rfl

end Sys2Proof.Machine
end

