-- ==== Sys2Proof/Laws/Tables.lean ====
section
/-!
SUPPORT. The laws of sparse tables and of the external memory: what a key reads as after a change, and that every operation
on the memory keeps its canonical form.
-/

namespace Sys2Proof.Machine

variable {α : Type}

@[simp] theorem getKey_putKey_self (m : Assoc α) (k : Nat) (v : α) : getKey (putKey m k v) k = some v := by
  induction m with
  | nil => simp [putKey, getKey]
  | cons e t ih =>
    obtain ⟨j, w⟩ := e
    unfold putKey
    split
    · simp [getKey]
    · split
      · simp [getKey]
      · rename_i h1 h2
        have : j ≠ k := fun h => h2 h.symm
        simp [getKey, this, ih]

theorem getKey_putKey_other (m : Assoc α) {k p : Nat} (v : α) (h : p ≠ k) : getKey (putKey m k v) p = getKey m p := by
  induction m with
  | nil => simp [putKey, getKey, h.symm]
  | cons e t ih =>
    obtain ⟨j, w⟩ := e
    unfold putKey
    split
    · simp [getKey, h.symm]
    · split
      · rename_i h1 h2
        subst h2
        simp [getKey, h.symm]
      · simp only [getKey, ih]

theorem getKey_putKey (m : Assoc α) (k p : Nat) (v : α) :
    getKey (putKey m k v) p = if p = k then some v else getKey m p := by
  split
  · rename_i h; subst h; simp
  · exact getKey_putKey_other m v ‹_›

theorem getKey_dropKey (m : Assoc α) (k p : Nat) : getKey (dropKey m k) p = if p = k then none else getKey m p := by
  induction m with
  | nil => simp [dropKey, getKey]
  | cons e t ih =>
    obtain ⟨j, w⟩ := e
    unfold dropKey at ih ⊢
    by_cases hj : j = k
    · subst hj
      by_cases hp : p = j
      · subst hp; simp_all
      · have : ¬ j = p := fun h => hp h.symm
        simp_all [getKey]
    · by_cases hp : j = p
      · subst hp; simp_all [getKey]
      · simp_all [getKey]

theorem getKey_setKey (m : Assoc α) (k p : Nat) (v : Option α) :
    getKey (setKey m k v) p = if p = k then v else getKey m p := by
  cases v with
  | none => exact getKey_dropKey m k p
  | some v => exact getKey_putKey m k p v

/-! ## Rising keys -/

/-- Whether every key of a table lies above a number. -/
def keysAbove (b : Nat) (m : Assoc α) : Prop := ∀ e ∈ m, b < e.1

theorem keysRise_cons (j : Nat) (w : α) (t : Assoc α) : keysRise ((j, w) :: t) = true ↔ keysAbove j t ∧ keysRise t = true := by
  induction t generalizing j w with
  | nil => simp [keysRise, keysAbove]
  | cons e t ih =>
    obtain ⟨k, x⟩ := e
    have := ih k x
    simp only [keysRise, Bool.and_eq_true, decide_eq_true_eq, keysAbove, List.mem_cons, forall_eq_or_imp] at *
    constructor
    · intro ⟨h, r⟩
      exact ⟨⟨h, fun e he => Nat.lt_trans h ((this.1 r).1 e he)⟩, r⟩
    · exact fun ⟨⟨h, _⟩, r⟩ => ⟨h, r⟩

theorem keysAbove_putKey {b k : Nat} {m : Assoc α} (v : α) (h : keysAbove b m) (hb : b < k) : keysAbove b (putKey m k v) := by
  induction m with
  | nil => simpa [putKey, keysAbove] using hb
  | cons e t ih =>
    obtain ⟨j, w⟩ := e
    have ht : keysAbove b t := fun e he => h e (List.mem_cons_of_mem _ he)
    have hj : b < j := h (j, w) (List.mem_cons_self ..)
    have := ih ht
    unfold putKey
    split
    · intro e he; simp only [List.mem_cons] at he
      rcases he with rfl | rfl | he
      · exact hb
      · exact hj
      · exact ht e he
    · split
      · intro e he; simp only [List.mem_cons] at he
        rcases he with rfl | he
        · exact hb
        · exact ht e he
      · intro e he; simp only [List.mem_cons] at he
        rcases he with rfl | he
        · exact hj
        · exact this e he

/-- Putting a key keeps the keys rising. -/
theorem keysRise_putKey {m : Assoc α} (k : Nat) (v : α) (h : keysRise m = true) : keysRise (putKey m k v) = true := by
  induction m with
  | nil => simp [putKey, keysRise]
  | cons e t ih =>
    obtain ⟨j, w⟩ := e
    obtain ⟨ha, hr⟩ := (keysRise_cons j w t).1 h
    unfold putKey
    split
    · rename_i hk
      exact (keysRise_cons ..).2 ⟨by
        intro e he; simp only [List.mem_cons] at he
        rcases he with rfl | he
        · exact hk
        · exact Nat.lt_trans hk (ha e he), h⟩
    · split
      · rename_i hk; subst hk
        exact (keysRise_cons ..).2 ⟨ha, hr⟩
      · exact (keysRise_cons ..).2 ⟨keysAbove_putKey v ha (by omega), ih hr⟩

/-- Filtering a table keeps the keys rising. -/
theorem keysRise_filter {m : Assoc α} (f : Nat × α → Bool) (h : keysRise m = true) : keysRise (m.filter f) = true := by
  induction m with
  | nil => rfl
  | cons e t ih =>
    obtain ⟨j, w⟩ := e
    obtain ⟨ha, hr⟩ := (keysRise_cons j w t).1 h
    by_cases hf : f (j, w)
    · rw [List.filter_cons_of_pos hf]
      exact (keysRise_cons ..).2 ⟨fun e he => ha e ((List.mem_filter.1 he).1), ih hr⟩
    · rw [List.filter_cons_of_neg hf]
      exact ih hr

/-! ## The memory -/

theorem Memory.mem_putKey {m : List Host.Cell} {a : Nat} {v : Byte} {c : Host.Cell} (h : c ∈ putKey m a v) :
    c = (a, v) ∨ c ∈ m := by
  induction m with
  | nil => simp_all [putKey]
  | cons e t ih =>
    obtain ⟨j, w⟩ := e
    unfold putKey at h
    split at h
    · simpa using h
    · split at h
      · simp only [List.mem_cons] at h ⊢
        exact h.imp_right .inr
      · simp only [List.mem_cons] at h ⊢
        rcases h with h | h
        · exact .inr (.inl h)
        · exact (ih h).imp_right .inr

/-- The canonical form, said of every cell. -/
theorem Memory.wf_iff (m : List Host.Cell) : Memory.wf m = true ↔ keysRise m = true ∧ ∀ c ∈ m, c.2 ≠ 0 := by
  simp [Memory.wf, List.all_eq_true]

@[simp] theorem Memory.wf_nil : Memory.wf [] = true := by decide

/-- Writing one byte keeps the canonical form. -/
theorem Memory.wf_put {m : List Host.Cell} (a : Nat) (v : Byte) (h : Memory.wf m = true) : Memory.wf (Memory.put m a v) = true := by
  rw [Memory.wf_iff] at h ⊢
  unfold Memory.put
  split
  · exact ⟨keysRise_filter _ h.1, fun c hc => h.2 c ((List.mem_filter.1 hc).1)⟩
  · rename_i hv
    refine ⟨keysRise_putKey a v h.1, fun c hc => ?_⟩
    rcases Memory.mem_putKey hc with rfl | hc
    · exact hv
    · exact h.2 c hc

/-- Writing a run of bytes keeps the canonical form. -/
theorem Memory.wf_write {m : List Host.Cell} (a : Nat) (bs : List Byte) (h : Memory.wf m = true) :
    Memory.wf (Memory.write m a bs) = true := by
  induction bs generalizing m a with
  | nil => exact h
  | cons b bs ih => exact ih (a + 1) (Memory.wf_put a b h)

/-- Zero-filling a range keeps the canonical form. -/
theorem Memory.wf_zero {m : List Host.Cell} (a n : Nat) (h : Memory.wf m = true) : Memory.wf (Memory.zero m a n) = true := by
  rw [Memory.wf_iff] at h ⊢
  exact ⟨keysRise_filter _ h.1, fun c hc => h.2 c ((List.mem_filter.1 hc).1)⟩

/-- A byte after one byte has been written. -/
theorem Memory.get_put (m : List Host.Cell) (a p : Nat) (v : Byte) :
    Memory.get (Memory.put m a v) p = if p = a then v else Memory.get m p := by
  unfold Memory.get Memory.put
  split
  · rename_i hv
    rw [getKey_dropKey]
    split <;> simp_all
  · rw [getKey_putKey]
    split <;> simp

/-- A byte after a run of bytes has been written. -/
theorem Memory.get_write (m : List Host.Cell) (a p : Nat) (bs : List Byte) :
    Memory.get (Memory.write m a bs) p = if a ≤ p ∧ p < a + bs.length then bs.getD (p - a) 0 else Memory.get m p := by
  induction bs generalizing m a with
  | nil =>
    have : ¬ (a ≤ p ∧ p < a + ([] : List Byte).length) := by simp
    rw [if_neg this]; rfl
  | cons b bs ih =>
    rw [Memory.write, ih, Memory.get_put]
    by_cases h1 : p = a
    · subst h1
      have h1 : ¬ (p + 1 ≤ p ∧ p < p + 1 + bs.length) := by omega
      have h2 : p ≤ p ∧ p < p + (b :: bs).length := by simp
      rw [if_neg h1, if_pos h2]; simp
    · by_cases h2 : a + 1 ≤ p ∧ p < a + 1 + bs.length
      · have h3 : a ≤ p ∧ p < a + (b :: bs).length := by simp; omega
        have h4 : p - a = (p - (a + 1)) + 1 := by omega
        simp only [if_pos h2, if_pos h3, h4, List.getD_cons_succ]
      · have h3 : ¬ (a ≤ p ∧ p < a + (b :: bs).length) := by simp; omega
        simp only [if_neg h2, if_neg h3, if_neg h1]

/-- A run of bytes read where it has just been written. -/
theorem Memory.read_write (m : List Host.Cell) (a : Nat) (bs : List Byte) :
    Memory.read (Memory.write m a bs) a bs.length = bs := by
  apply List.ext_getElem
  · simp [Memory.read]
  · intro i h1 h2
    simp only [Memory.read, List.getElem_map, List.getElem_range, Memory.get_write]
    rw [if_pos ⟨by omega, by omega⟩]
    simp [List.getD_eq_getElem?_getD, h2]

/-- A byte after a range has been zero-filled. -/
theorem Memory.get_zero (m : List Host.Cell) (a n p : Nat) :
    Memory.get (Memory.zero m a n) p = if a ≤ p ∧ p < a + n then 0 else Memory.get m p := by
  unfold Memory.get Memory.zero
  induction m with
  | nil => simp [getKey]
  | cons e t ih =>
    obtain ⟨j, w⟩ := e
    simp only [List.filter_cons, getKey]
    split
    · rename_i hk
      simp only [Bool.or_eq_true, decide_eq_true_eq] at hk
      simp only [getKey]
      split
      · rename_i hj; subst hj
        rw [if_neg (by omega)]
      · exact ih
    · rename_i hk
      simp only [Bool.or_eq_true, decide_eq_true_eq] at hk
      rw [ih]
      by_cases hj : j = p
      · subst hj
        rw [if_pos (by omega), if_pos (by omega)]
      · simp only [if_neg hj]

end Sys2Proof.Machine
end

