-- ==== Sys2Proof/Laws/Ops.lean ====
section
/-!
SUPPORT. The laws of the shared operations: what a numbered record reads as after a change, and what answering, submitting an
operation and giving one back can change.
-/

namespace Sys2Proof.Machine

variable (s : State)

/-! ## Numbered records -/

theorem State.stream_setStream (i j : Nat) (v : Stream) :
    (s.setStream i v).stream j = if i = j ∧ i < 8 then v else s.stream j := by
  unfold State.stream State.setStream
  simp only [Vector.getElem?_setIfInBounds]
  grind

theorem State.chan_setChan (p q : Nat) (v : Channel) :
    (s.setChan p v).chan q = if p = q ∧ p < 4 then v else s.chan q := by
  unfold State.chan State.setChan
  simp only [Vector.getElem?_setIfInBounds]
  grind

theorem State.grant_setGrant (g h : Nat) (v : Grant) :
    (s.setGrant g v).grant h = if g = h ∧ g < 64 then v else s.grant h := by
  unfold State.grant State.setGrant
  simp only [Vector.getElem?_setIfInBounds]
  grind

theorem State.reader_setReader (i j : Nat) (v : ReadStream) :
    (s.setReader i v).reader j = if i = j ∧ i < 16 then v else s.reader j := by
  unfold State.reader State.setReader
  simp only [Vector.getElem?_setIfInBounds]
  grind

theorem State.bay_setBay (b c : Nat) (v : Bay) : (s.setBay b v).bay c = if b = c ∧ b < 4 then v else s.bay c := by
  unfold State.bay State.setBay
  simp only [Vector.getElem?_setIfInBounds]
  grind

@[simp] theorem State.grant_setReader (i g : Nat) (v : ReadStream) : (s.setReader i v).grant g = s.grant g := rfl
@[simp] theorem State.reader_setGrant (i g : Nat) (v : Grant) : (s.setGrant g v).reader i = s.reader i := rfl

theorem State.obj_setObj (o p : Nat) (v : Option Obj) : (s.setObj o v).obj p = if p = o then v else s.obj p :=
  getKey_setKey s.tables.objects o p v

theorem State.cont_setCont (c d : Nat) (v : Option Container) : (s.setCont c v).cont d = if d = c then v else s.cont d :=
  getKey_setKey s.tables.containers c d v

@[simp] theorem State.obj_setCont (c o : Nat) (v : Option Container) : (s.setCont c v).obj o = s.obj o := rfl
@[simp] theorem State.cont_setObj (c o : Nat) (v : Option Obj) : (s.setObj o v).cont c = s.cont c := rfl

/-- A write of the tables leaves what it writes, and of the bad words those that it does not write (R180). -/
theorem Tables.write_eq (t : Tables) (touch : Nat → Bool) (new : Tables) :
    ∃ bad, t.write touch new = { new with bad := bad } ∧ ∀ w ∈ bad, w ∈ t.bad ∧ touch w = false := by
  refine ⟨_, rfl, fun w hw => ?_⟩
  simp only [List.mem_filter, Bool.and_eq_true, Bool.not_eq_true'] at hw
  exact ⟨hw.1, hw.2.1⟩

/-- Where no table word is bad, none is after a write. -/
theorem Tables.write_of_good {t : Tables} (touch : Nat → Bool) (new : Tables) (h : t.bad = []) :
    t.write touch new = { new with bad := [] } := by
  unfold Tables.write
  rw [h]; rfl

theorem Tables.entry_setEntry (t : Tables) (h p : Nat) (e : Option IdxEntry) :
    (t.setEntry h e).entry p = if p = h then (if t.isHandle h then e else none) else t.entry p := by
  simp only [Tables.entry, Tables.isHandle, Tables.setEntry_buckets, Tables.setEntry_entries, getKey_setKey]
  grind

/-- A container's record changed: everything else stands. -/
theorem State.modCont_eq (c : Nat) (f : Container → Container) :
    s.modCont c f = { s with tables := { s.tables with
      containers := (s.modCont c f).tables.containers, bad := (s.modCont c f).tables.bad } } := by
  unfold State.modCont
  split <;> rfl

theorem State.cont_modCont (c d : Nat) (f : Container → Container) :
    (s.modCont c f).cont d = if d = c then (s.cont c).map f else s.cont d := by
  unfold State.modCont
  split
  · rename_i v hv
    rw [State.cont_setCont, hv]; rfl
  · rename_i hv
    split <;> simp_all

/-! ## Answers -/

/-- LNK's reply queue after an owner's answer (R200). -/
def Lnk.queueAfter (l : Lnk) (tag kind : Nat) (st : Status) (fs : List Field) : List Reply :=
  if l.holds tag kind then
    l.replyQueue ++ [{ tag := tag, kind := kind, status := st, fields := fs, refusal := false }]
  else l.replyQueue

/-- An answer changes the reply queue alone, and only while its pending entry stands (R200). -/
theorem State.answer_eq (tag kind : Nat) (st : Status) (fs : List Field) :
    s.answer tag kind st fs = { s with lnk := { s.lnk with replyQueue := s.lnk.queueAfter tag kind st fs } } := by
  unfold State.answer Lnk.queueAfter
  split <;> rfl

theorem State.refuse_eq (tag kind : Nat) (st : Status) : s.refuse tag kind st = s.answer tag kind st [] := rfl

/-! ## Channels -/

/-- An idleness report changes the channel and, in PWC, the idle timers and the standby requests (R107). -/
theorem State.idleUpdate_frame (p : Nat) : ∃ ch it sa, s.idleUpdate p =
    { s with chans := ch, pwc := { s.pwc with idleTimers := it, standbyAsks := sa } } := by
  unfold State.idleUpdate
  dsimp only
  split
  · exact ⟨_, _, _, rfl⟩
  · split
    · exact ⟨_, _, s.pwc.standbyAsks, rfl⟩
    · exact ⟨s.chans, s.pwc.idleTimers, s.pwc.standbyAsks, rfl⟩

/-- Giving an operation back changes the returned operations alone. -/
theorem State.giveBack_frame (p : Nat) (o : Op) (r : OpResult) : ∃ rs, s.giveBack p o r = { s with returns := rs } := by
  unfold State.giveBack
  split
  · exact ⟨_, rfl⟩
  · exact ⟨s.returns, rfl⟩

/-- Queueing an operation changes the channels and, in PWC, the idle timers and the standby requests (R99, R107). -/
theorem State.enqueue_frame (p : Nat) (o : Op) : ∃ ch it sa, s.enqueue p o =
    { s with chans := ch, pwc := { s.pwc with idleTimers := it, standbyAsks := sa } } := by
  unfold State.enqueue
  obtain ⟨ch, it, sa, h⟩ := State.idleUpdate_frame (s.modChan p fun c => c.enqueue o) p
  exact ⟨ch, it, sa, h⟩

/-- What a submission does once it reaches its channel (R97, R98). -/
theorem State.arrive_frame (p : Nat) (o : Op) : ∃ ch it sa rs, s.arrive p o =
    { s with chans := ch, pwc := { s.pwc with idleTimers := it, standbyAsks := sa }, returns := rs } := by
  unfold State.arrive
  split
  · obtain ⟨rs, h⟩ := s.giveBack_frame p o .badArgument
    exact ⟨s.chans, s.pwc.idleTimers, s.pwc.standbyAsks, rs, h⟩
  · obtain ⟨rs, hg⟩ := s.giveBack_frame p o .memberFailed
    obtain ⟨ch, it, sa, h⟩ := s.enqueue_frame p o
    split
    · exact ⟨s.chans, s.pwc.idleTimers, s.pwc.standbyAsks, rs, hg⟩
    · exact ⟨s.chans, s.pwc.idleTimers, s.pwc.standbyAsks, rs, hg⟩
    · exact ⟨_, it, sa, s.returns, by simp only [h]; rfl⟩
    · exact ⟨_, it, sa, s.returns, by simp only [h]; rfl⟩
    · exact ⟨ch, it, sa, s.returns, h⟩

/-- All that a submission can change (R97 to R99). -/
theorem State.submit_frame (p : Nat) (o : Op) : ∃ ch it sa rs, s.submit p o =
    { s with chans := ch, pwc := { s.pwc with idleTimers := it, standbyAsks := sa }, returns := rs } := by
  unfold State.submit
  dsimp only
  split
  · obtain ⟨rs, h⟩ := s.giveBack_frame p (madeOp o) .arrayFailed
    exact ⟨s.chans, s.pwc.idleTimers, s.pwc.standbyAsks, rs, h⟩
  · split
    · exact ⟨_, s.pwc.idleTimers, s.pwc.standbyAsks, s.returns, rfl⟩
    · exact s.arrive_frame p (madeOp o)

/-- All that a run of submissions can change. -/
theorem State.submitAll_frame (os : List (Nat × Op)) : ∃ ch it sa rs, s.submitAll os =
    { s with chans := ch, pwc := { s.pwc with idleTimers := it, standbyAsks := sa }, returns := rs } := by
  unfold State.submitAll
  induction os generalizing s with
  | nil => exact ⟨s.chans, s.pwc.idleTimers, s.pwc.standbyAsks, s.returns, rfl⟩
  | cons o os ih =>
    obtain ⟨ch, it, sa, rs, h⟩ := s.submit_frame o.1 o.2
    obtain ⟨ch', it', sa', rs', h'⟩ := ih (s.submit o.1 o.2)
    exact ⟨ch', it', sa', rs', by rw [List.foldl_cons, h', h]⟩

/-- All that waiting requesters can change when they join a class queue: as a submission (R99). -/
theorem State.joinWaiters_frame (p : Nat) (k : Cls) (fuel : Nat) : ∃ ch it sa rs, State.joinWaiters p k fuel s =
    { s with chans := ch, pwc := { s.pwc with idleTimers := it, standbyAsks := sa }, returns := rs } := by
  induction fuel generalizing s with
  | zero => exact ⟨s.chans, s.pwc.idleTimers, s.pwc.standbyAsks, s.returns, rfl⟩
  | succ n ih =>
    unfold State.joinWaiters
    split
    · split
      · rename_i w ws _ _
        obtain ⟨ch, it, sa, rs, h⟩ := (s.modChan p fun c =>
          (c.setQueue k (c.queue k ++ [w.op])).setWaiting k ws).submitAll_frame w.rest
        obtain ⟨ch', it', sa', rs', h'⟩ := ih ((s.modChan p fun c =>
          (c.setQueue k (c.queue k ++ [w.op])).setWaiting k ws).submitAll w.rest)
        exact ⟨ch', it', sa', rs', by rw [h', h]; rfl⟩
      · exact ⟨s.chans, s.pwc.idleTimers, s.pwc.standbyAsks, s.returns, rfl⟩
    · exact ⟨s.chans, s.pwc.idleTimers, s.pwc.standbyAsks, s.returns, rfl⟩

/-- All that a dispatch can change (R99, R101). -/
theorem State.dispatch_frame (p : Nat) : ∃ ch it sa rs, s.dispatch p =
    { s with chans := ch, pwc := { s.pwc with idleTimers := it, standbyAsks := sa }, returns := rs } := by
  unfold State.dispatch
  dsimp only
  split
  · obtain ⟨ch, it, sa, rs, h⟩ := (s.modChan p Channel.dispatch).joinWaiters_frame p _ 16
    exact ⟨ch, it, sa, rs, h⟩
  · exact ⟨_, s.pwc.idleTimers, s.pwc.standbyAsks, s.returns, rfl⟩

/-! ## The memory (R180) -/

/-- Giving the bad words of a range their bytes changes the memory and the list of bad words alone. -/
theorem State.rewords_frame (touch : Nat → Bool) : ∃ m bad, s.rewords touch =
    { s with mem := m, mec := { s.mec with bad := bad } } := ⟨_, _, rfl⟩

/-- A block's write changes the memory and the list of bad words alone. -/
theorem State.writeMem_frame (a : Nat) (bs : List Byte) : ∃ m bad, s.writeMem a bs =
    { s with mem := m, mec := { s.mec with bad := bad } } := ⟨_, _, rfl⟩

/-- A zero-fill changes the memory and the list of bad words alone. -/
theorem State.zeroMem_frame (a n : Nat) : ∃ m bad, s.zeroMem a n =
    { s with mem := m, mec := { s.mec with bad := bad } } := ⟨_, _, rfl⟩

/-- Giving bad words their bytes keeps the canonical form of the memory. -/
theorem State.wf_rewords (touch : Nat → Bool) (h : Memory.wf s.mem = true) : Memory.wf (s.rewords touch).mem = true := by
  unfold State.rewords
  simp only
  generalize s.mec.bad.filter touch = bad
  generalize s.mem = m at h ⊢
  induction bad generalizing m with
  | nil => exact h
  | cons x xs ih => exact ih _ (Memory.wf_write _ _ h)

/-- A block's write keeps the canonical form of the memory. -/
theorem State.wf_writeMem (a : Nat) (bs : List Byte) (h : Memory.wf s.mem = true) :
    Memory.wf (s.writeMem a bs).mem = true :=
  Memory.wf_write a bs (s.wf_rewords (wordTouches a bs.length) h)

/-- A zero-fill keeps the canonical form of the memory. -/
theorem State.wf_zeroMem (a n : Nat) (h : Memory.wf s.mem = true) : Memory.wf (s.zeroMem a n).mem = true :=
  Memory.wf_zero a n (s.wf_rewords (wordTouches a n) h)

/-- A run of bytes reads back where a block has just written it. -/
theorem State.read_writeMem (a : Nat) (bs : List Byte) : Memory.read (s.writeMem a bs).mem a bs.length = bs :=
  Memory.read_write _ a bs

/-! ## Stripes (R79, R82) -/

@[simp] theorem Channel.mapOps_member (c : Channel) (p : Nat) (f : Nat → Op → Op) : (c.mapOps p f).member = c.member := rfl
@[simp] theorem Channel.mapOps_current (c : Channel) (p : Nat) (f : Nat → Op → Op) :
    (c.mapOps p f).current = c.current.map (f p) := rfl

/-- Finishing a stripe in its buffer changes the memory and the list of bad words alone (R82). -/
theorem State.finishStripe_frame (b : Nat) (k : ContKind) (seq : Nat) (l : Layout) : ∃ m bad, (s.finishStripe b k seq l).1 =
    { s with mem := m, mec := { s.mec with bad := bad } } := ⟨_, _, rfl⟩

/-- A run of changes of channels changes the channels alone. -/
theorem State.each_modChan_frame (ps : List Nat) (f : Nat → Channel → Channel) : ∃ ch,
    s.each ps (fun s p => s.modChan p (f p)) = { s with chans := ch } := by
  unfold State.each
  induction ps generalizing s with
  | nil => exact ⟨s.chans, rfl⟩
  | cons p ps ih =>
    obtain ⟨ch, h⟩ := ih (s.modChan p (f p))
    exact ⟨ch, h⟩

/-- All that a copy into a SEALING container does besides the copy (R82). -/
theorem State.lateCopy_frame (c b : Nat) : ∃ m bad ch, s.lateCopy c b =
    { s with mem := m, mec := { s.mec with bad := bad }, chans := ch } := by
  have same : ∃ m bad ch, s = { s with mem := m, mec := { s.mec with bad := bad }, chans := ch } :=
    ⟨s.mem, s.mec.bad, s.chans, rfl⟩
  unfold State.lateCopy
  split
  · split
    · rename_i r a _ _ _
      obtain ⟨m, bad, hf⟩ := s.finishStripe_frame b r.kind (r.seq.getD 0) a.layout
      generalize s.finishStripe b r.kind (r.seq.getD 0) a.layout = x at hf ⊢
      obtain ⟨ch, h⟩ := State.each_modChan_frame x.1 (List.range 4) (fun p y => y.mapOps p fun q o =>
        if o.job = .stripeWrite c then { o with data := unitFor a.layout c q x.2 } else o)
      exact ⟨m, bad, ch, h.trans (by rw [hf])⟩
    · exact same
  · exact same

/-- Into a container that is not SEALING nothing but the copy is made. -/
theorem State.lateCopy_of_not_sealing {c : Nat} (b : Nat) (h : ∀ r, s.cont c = some r → r.state ≠ .sealing) :
    s.lateCopy c b = s := by
  unfold State.lateCopy
  split
  · rename_i r a hr ha
    rw [if_neg (h r hr)]
  · rfl

/-- All that a copy can change (R79, R82). -/
theorem State.copyChunk_frame (c off place : Nat) (moved : Bool) (h : Nat) (f : Fp) (bytes : List Byte) : ∃ m bad bs ch,
    s.copyChunk c off place moved h f bytes =
      { s with mem := m, mec := { s.mec with bad := bad }, ctm := { s.ctm with buffers := bs }, chans := ch } := by
  unfold State.copyChunk
  split
  · dsimp only
    split
    · obtain ⟨m, bad, ch, h⟩ := State.lateCopy_frame (State.setBuffer (s.writeMem _ bytes) _ _) c _
      exact ⟨m, bad, _, ch, h⟩
    · exact ⟨_, _, s.ctm.buffers, s.chans, rfl⟩
  · exact ⟨s.mem, s.mec.bad, s.ctm.buffers, s.chans, rfl⟩

/-! ## The index -/

/-- The test of R86 changes a container's record, the quarantine list and the held-back transitions. -/
theorem State.testFree_frame (c : Nat) : ∃ cs q b d, s.testFree c =
    { s with tables := { s.tables with containers := cs, quarantine := q, bad := b },
             ctm := { s.ctm with deferred := d } } := by
  unfold State.testFree
  split
  · exact ⟨s.tables.containers, s.tables.quarantine, s.tables.bad, s.ctm.deferred, rfl⟩
  · split
    · split
      · exact ⟨s.tables.containers, s.tables.quarantine, s.tables.bad, _, rfl⟩
      · exact ⟨_, _, _, s.ctm.deferred, rfl⟩
    · exact ⟨s.tables.containers, s.tables.quarantine, s.tables.bad, s.ctm.deferred, rfl⟩

theorem State.modCont_testFree_frame (c d : Nat) (f : Container → Container) : ∃ cs q b e, (s.modCont c f).testFree d =
    { s with tables := { s.tables with containers := cs, quarantine := q, bad := b },
             ctm := { s.ctm with deferred := e } } := by
  obtain ⟨cs, q, b, e, h⟩ := (s.modCont c f).testFree_frame d
  exact ⟨cs, q, b, e, by rw [h, State.modCont_eq]⟩

/-- A removal (R40) changes the index's entries and chains, and through CTM the containers. -/
theorem State.removeEntry_frame (h : Nat) (e : IdxEntry) : ∃ hd cs q b d, s.removeEntry h e =
    { s with tables := { s.tables with
        entries := setKey s.tables.entries h none, headers := hd, containers := cs, quarantine := q, bad := b },
             ctm := { s.ctm with deferred := d } } := by
  unfold State.removeEntry State.liveLower
  obtain ⟨cs, q, b, d, hq⟩ := (s.onTables fun t => (t.leaveChain h e.fp).setEntry h none).modCont_testFree_frame
    e.container e.container (fun r => { r with live := r.live - fpLength e.fp })
  refine ⟨((s.tables.leaveChain h e.fp).setEntry h none).headers, cs, q, b, d, ?_⟩
  rw [hq]
  unfold State.onTables Tables.leaveChain
  split <;> rfl

/-- All that a lower can change (R38). -/
theorem State.idxLower_frame (h : Nat) : ∃ x es hd cs q b d, s.idxLower h =
    { s with idx := x,
             tables := { s.tables with entries := es, headers := hd, containers := cs, quarantine := q, bad := b },
             ctm := { s.ctm with deferred := d } } := by
  have same : ∀ x, ∃ x' es hd cs q b d, ({ s with idx := x } : State) = { s with
      idx := x', tables := { s.tables with entries := es, headers := hd, containers := cs, quarantine := q, bad := b },
      ctm := { s.ctm with deferred := d } } := fun x =>
    ⟨x, s.tables.entries, s.tables.headers, s.tables.containers, s.tables.quarantine, s.tables.bad, s.ctm.deferred, rfl⟩
  unfold State.idxLower
  split
  · exact same _
  · split
    · exact same _
    · rename_i e he
      split
      · exact same _
      split
      · exact same _
      · split
        · obtain ⟨hd, cs, q, b, d, hr⟩ := s.removeEntry_frame h e
          exact ⟨_, _, hd, cs, q, b, d, by rw [hr]; rfl⟩
        · exact ⟨_, _, s.tables.headers, s.tables.containers, s.tables.quarantine, _, s.ctm.deferred, rfl⟩

end Sys2Proof.Machine
end

