-- ==== Sys2Proof/WellFormed.lean ====
section
/-!
DEFINITION. Which commands are well-formed: every field in the range that its size on the link gives it (R203), and every
number of an internal step in the range of what it numbers. The meanings are total: they also answer on other values.
-/

namespace Sys2Proof

/-- A value that fits in `n` bytes. -/
def fitsBytes (n v : Nat) : Bool := decide (v < 256 ^ n)

/-- A number of an ingest stream (R1). -/
def ingestNumber (i : Nat) : Bool := decide (i < 8)

/-- A number of a read stream (R122). -/
def readNumber (i : Nat) : Bool := decide (i < 16)

/-- A position of the array, or a bay (R68, R109). -/
def positionNumber (p : Nat) : Bool := decide (p < 4)

/-- A handle: 32 bits (R26). -/
def handleNumber (h : Nat) : Bool := fitsBytes 4 h

/-- An object id: 16 bits (R49). -/
def objectNumber (o : Nat) : Bool := fitsBytes 2 o

/-- An operation on a channel (R97): whole units or a range within one, and a WRITE carries as many bytes as its length. -/
def Op.wellFormed (o : Op) : Bool :=
  decide (o.start + o.len ≤ 65536) && (decide (o.kind ≠ .write) || decide (o.data.length = o.len))

/-- A burst (R175): a write carries as many bytes as its length, and errors name words of the burst. -/
def Burst.wellFormed (b : Burst) : Bool :=
  (!b.isWrite || decide (b.data.length = b.len)) && b.errors.all fun e => decide (8 * e.1 < b.len)

/-- The well-formed commands. -/
def Instr.wellFormed : Instr → Bool
  | .openIngest tag kind owner _ => fitsBytes 2 tag && fitsBytes 1 kind && fitsBytes 1 owner
  | .ingestData tag i off data => fitsBytes 2 tag && fitsBytes 1 i && fitsBytes 6 off && decide (data.length ≤ 16377)
  | .closeIngest tag i => fitsBytes 2 tag && fitsBytes 1 i
  | .abortIngest tag i => fitsBytes 2 tag && fitsBytes 1 i
  | .setChunking tag k => fitsBytes 2 tag && fitsBytes 1 k
  | .getObject tag id mode => fitsBytes 2 tag && objectNumber id && fitsBytes 1 mode
  | .setAlbums tag id _ => fitsBytes 2 tag && objectNumber id
  | .releaseObject tag id => fitsBytes 2 tag && objectNumber id
  | .putGrant tag g _ _ allowance limit =>
    fitsBytes 2 tag && fitsBytes 1 g && decide (allowance.getD 0 < 1099511627776) && fitsBytes 1 limit
  | .revokeGrant tag g => fitsBytes 2 tag && fitsBytes 1 g
  | .getGrant tag g => fitsBytes 2 tag && fitsBytes 1 g
  | .openRead tag o g start count =>
    fitsBytes 2 tag && objectNumber o && fitsBytes 1 g && fitsBytes 6 start && fitsBytes 6 count
  | .stopRead tag i => fitsBytes 2 tag && fitsBytes 1 i
  | .relocateContainer tag c => fitsBytes 2 tag && fitsBytes 4 c
  | .setScrub tag period => fitsBytes 2 tag && fitsBytes 4 period
  | .adoptMember tag bay p => fitsBytes 2 tag && fitsBytes 1 bay && fitsBytes 1 p
  | .sleep tag => fitsBytes 2 tag
  | .setPowerPolicy tag a b c d limit grace =>
    fitsBytes 2 tag && fitsBytes 2 a && fitsBytes 2 b && fitsBytes 2 c && fitsBytes 2 d && fitsBytes 1 limit &&
      fitsBytes 2 grace
  | .setWakePattern tag n enabled off len bytes _ iv =>
    fitsBytes 2 tag && fitsBytes 1 n && fitsBytes 1 enabled && fitsBytes 1 off && fitsBytes 1 len &&
      decide (bytes.length = 16) && fitsBytes 2 iv
  | .setStation tag address broadcast => fitsBytes 2 tag && decide (address.length = 6) && fitsBytes 1 broadcast
  | .setAlarm tag off _ => fitsBytes 2 tag && fitsBytes 1 off
  | .setTime tag _ => fitsBytes 2 tag
  | .setLamps tag mode => fitsBytes 2 tag && fitsBytes 1 mode
  | .formArray tag layout n bays buckets =>
    fitsBytes 2 tag && fitsBytes 1 layout && fitsBytes 1 n && decide (bays.length = 4) && bays.all (fitsBytes 1) &&
      fitsBytes 4 buckets
  | .attachArray tag => fitsBytes 2 tag
  | .checkpoint tag => fitsBytes 2 tag
  | .getStatus tag figures => fitsBytes 2 tag && fitsBytes 1 figures
  | .setServiceFrame tag sel f classes =>
    fitsBytes 2 tag && fitsBytes 1 sel && fitsBytes 1 f && decide (classes.length = 32) && classes.all (fitsBytes 1)
  | .powerOnReset => true
  | .warmReset => true
  | .headerReceived bytes => decide (bytes.length = 8)
  | .frameReceived payload _ => decide (payload.length ≤ 16384)
  | .frameSkipped => true
  | .lineBreak => true
  | .messageBegin => true
  | .replySent => true
  | .dataMessageSent => true
  | .dataBytesRead i _ => readNumber i
  | .chunkerRun i => ingestNumber i
  | .lookupIssue i => ingestNumber i
  | .lookup _ i => ingestNumber i
  | .verifyComplete i _ => ingestNumber i
  | .chunkCopyDone i _ => ingestNumber i
  | .queueLeave i => ingestNumber i
  | .streamSealing i => ingestNumber i
  | .ringWordError i position => ingestNumber i && decide (position < 262144)
  | .insert _ _ _ i => ingestNumber i
  | .collisionInsert _ _ _ i => ingestNumber i
  | .dropHold h i _ => handleNumber h && ingestNumber i
  | .confirmHold h i => handleNumber h && ingestNumber i
  | .raise h => handleNumber h
  | .lower h => handleNumber h
  | .replayCreate h _ _ _ => handleNumber h
  | .removeIfUnreferenced h => handleNumber h
  | .stored h _ _ _ => handleNumber h
  | .damageMark h _ => handleNumber h
  | .setMove h _ _ _ => handleNumber h
  | .switchLocation h _ _ _ _ => handleNumber h
  | .location h => handleNumber h
  | .indexWordError word =>
    match word with
    | .way _ w => decide (w < 8)
    | .overflow _ => true
    | .header _ _ => true
    | .hold _ => true
  | .replayMove h _ _ _ => handleNumber h
  | .sumOfLengths _ => true
  | .discardMoveDestinations => true
  | .recordRead asker =>
    match asker with
    | .stream i => readNumber i
    | .walk => true
  | .recordReadDone asker _ =>
    match asker with
    | .stream i => readNumber i
    | .walk => true
  | .walkStep => true
  | .releaseRecordCopied o => objectNumber o
  | .objectWordError o => objectNumber o
  | .chunkPlacement who =>
    match who with
    | .record i _ => ingestNumber i
    | .relocation => true
  | .recordPlacement => true
  | .placementRetry => true
  | .zeroStripeDone => true
  | .forcedSeal => true
  | .unitWriteDone _ p => positionNumber p
  | .stripeWriteComplete => true
  | .quarantineRelease => true
  | .chunkRead req =>
    handleNumber req.handle &&
      match req.who with
      | .stream i _ => readNumber i
      | .verify i _ => ingestNumber i
  | .unitReadDone _ _ => true
  | .relocationStep => true
  | .relocationEnd => true
  | .stripeBufferWordError buffer _ => decide (buffer < 4)
  | .containerRecordError _ _ => true
  | .operationSubmit p op => positionNumber p && op.wellFormed
  | .dispatch p => positionNumber p
  | .operationComplete p _ => positionNumber p
  | .operationTimeout p => positionNumber p
  | .failMember p _ => positionNumber p
  | .standbyRequest p => positionNumber p
  | .standbyOperationEnd p _ => positionNumber p
  | .spinupRequest p => positionNumber p
  | .driveReady p _ => positionNumber p
  | .spinupTimeout p => positionNumber p
  | .readbackExpire b => positionNumber b
  | .senseChange b _ => positionNumber b
  | .presenceChange b _ => positionNumber b
  | .idleTimerExpire p => positionNumber p
  | .timeTick => true
  | .grantExpire g => decide (g < 64)
  | .alarmFire => true
  | .lanFrame _ => true
  | .buttonShort => true
  | .buttonLong => true
  | .entryDrainDone => true
  | .entrySealDone => true
  | .entryCheckpointDone => true
  | .graceExpire => true
  | .selfRefreshEntered => true
  | .selfRefreshExited => true
  | .memoryInitDone _ => true
  | .refreshTimerExpire _ => true
  | .memoryBurst burst => (burst.map Burst.wellFormed).getD true
  | .readBufferRequest _ count => decide (1 ≤ count)
  | .readBufferReturn _ count => decide (1 ≤ count)
  | .regionMapRequest _ _ => true
  | .markerRequest => true
  | .seekStep i => readNumber i
  | .chunkIssue i => readNumber i
  | .chunkReadReport i => readNumber i
  | .scrubTimerExpire => true
  | .scrubStepStart => true
  | .scrubReadsDone bad => bad.all positionNumber
  | .repairWriteDone => true
  | .adoptLabelWritten => true
  | .checkpointCopyDone => true
  | .rebuildStep => true
  | .rebuildReadsDone bad => bad.all positionNumber
  | .rebuildWriteDone => true
  | .rebuildComplete => true
  | .formDrivesReady => true
  | .formLabelsWritten => true
  | .checkpointQuiet => true
  | .checkpointSealed => true
  | .checkpointUnitWritten p => positionNumber p
  | .checkpointEnd => true
  | .attachLabelsRead => true
  | .slotHeadersRead => true
  | .slotBodyRead => true
  | .replayScanRead => true
  | .replayApply => true
  | .replayWalksDone => true
  | .frameSync => true
  | .noticeSent => true

end Sys2Proof
end

