-- ==== Sys2Proof/Tests/Slice0.lean ====
section
/-!
SUPPORT. Tests: ill-formed commands that the checks refuse, worked examples of the manual, and for each statement with hypotheses
a small state on which the hypotheses of its clauses hold together.
-/

namespace Sys2Proof.Tests

set_option Elab.async false

open Sys2Proof Sys2Proof.Machine

/-! ## Small states -/

/-- The memory up: READY with 1 GiB and refresh running. -/
def mecUp : Mec := { Mec.powerOn with state := .ready, size := some 1073741824, refreshRunning := true }

/-- A block whose memory is up, with no array. -/
def up : State := { State.reset with mec := mecUp }

/-- An ACTIVE member's channel. -/
def activeChan (p : Nat) : Channel :=
  { Channel.resetRecord p with member := { state := .active, cause := none, errors := 0 }, idleReported := true }

/-- The array record of a small PARITY3 array with its fence at its top. -/
def smallArray : ArrayRec :=
  { layout := .parity3, number := 7, reserved := 1, containers := 10, seq := 5, fence := 10 }

/-- A NORMAL array of three ACTIVE members with empty tables. -/
def normal : State :=
  { up with
    ctm := { Ctm.resetRecord with state := .normal },
    chans := #v[activeChan 0, activeChan 1, activeChan 2, Channel.resetRecord 3],
    tables := { Tables.blank with buckets := 65536, array := some smallArray, freeList := [4, 5, 6] },
    inUse := true,
    mec := { mecUp with map := some { buckets := 65536, containers := 10, pool := 67108864 } } }

/-- The state that a command answers, or the state itself where it stops. -/
def after (c : Instr) (s : State) : State :=
  match exec c s with
  | .next t => t
  | _ => s
/-- A command waits. -/
def wQueue : State := { State.reset with pending := [.timeTick] }
/-- A read burst. -/
def readBurst (a n : Nat) : Burst := { isWrite := false, addr := a, len := n, data := [], errors := [], piece := false }
/-- A byte of the memory written. -/
def oneByte : State := { normal with mem := [(0, 1)], pending := [.timeTick] }
def oneByteNext : State :=
  match step oneByte with
  | .next t => t
  | _ => oneByte
/-- A grant with an allowance of 5 bytes. -/
def granted (g : Grant) : State := { normal with rds := { Rds.resetRecord with grants := Rds.resetRecord.grants.set 0 g } }
def smallGrant : Grant :=
  { state := .active, albums := 1, notAfter := 100, installed := some 9, remaining := some 5, limit := 4, opens := 0,
    delivered := 4 }
def refreshing : State := { normal with mec := { mecUp with state := .selfRefresh } }
/-- The link record changed. -/
def lnkOf (s : State) (f : Lnk → Lnk) : State := { s with lnk := f s.lnk }
/-- A header with its check (kind, flags, tag, length). -/
def headerBytes (k f t n : Nat) : List Byte := ((frameBytes k f t (List.replicate n 0)).drop 2).take 8
/-- A receiver that gathers a header. -/
def inHeader : State := lnkOf normal fun l => { l with receiver := .header }
/-- The status of R199's checks in their order. -/
def checks (s : State) (h : Header) (payload : List Byte) (crc : Crc) : Status :=
  if (0 < h.length ∧ crc32 payload ≠ crc) ∨ h.flags ≠ 0 then .malformed
  else if h.kind = 0 ∨ 0x1C < h.kind then .unknownKind
  else if ∃ e ∈ s.lnk.entries, e.refusal = false ∧ e.tag = h.tag then .tagInUse
  else if lengthGood h.kind h.length = false then .malformed
  else if s.ctm.state = .failed ∧ h.kind ≠ 0x1B ∧ h.kind ≠ 0x06 ∧ h.kind ≠ 0x17 then .arrayFailed
  else .ok
/-- GET_STATUS with tag 7, as its header gives it. -/
def statusHeader : Header := ⟨0x1B, 0, 7, 1⟩
/-- A frame is being skipped. -/
def skipping : State := lnkOf normal fun l => { l with receiver := .skipping, header := some statusHeader }
/-- HOLD is asserted. -/
def held : State := lnkOf State.reset fun l => { l with hold := true }
/-- The same in WAKING, with a wake cause or without. -/
def wakingHeader (c : Option WakeCause) : State := { inHeader with pwc := { Pwc.resetRecord 0 with box := .waking, cause := c } }
/-- A receiver that has a header and awaits the payload. -/
def inPayload (h : Header) : State := lnkOf normal fun l => { l with receiver := .payload, header := some h }
/-- 31 pending entries with tag 7 are taken, marked or not. -/
def crowded (h : Header) (marked : Bool) : State := lnkOf (inPayload h) fun l => { l with entries := List.replicate 31 ⟨7, 1, marked⟩ }
/-- SET_SERVICE_FRAME, a kind of 0, CHECKPOINT, and an INGEST_DATA of one byte, each with tag 7. -/
def frameHeader : Header := ⟨0x1C, 0, 7, 34⟩
def zeroHeader : Header := ⟨0, 0, 7, 0⟩
def checkpointHeader : Header := ⟨0x1A, 0, 7, 0⟩
def shortHeader : Header := ⟨2, 0, 7, 1⟩
/-- The same in a FAILED array. -/
def failedPayload (h : Header) : State := { inPayload h with ctm := { Ctm.resetRecord with state := .failed } }
/-- A reply. -/
def aReply : Reply := ownerReply 7 0x1A .ok []
/-- A link with one notice pending, in the given slot, or none. -/
def oneNotice (n : Option Nat) (s : State) : State :=
  lnkOf s fun l => { l with notices := Vector.ofFn fun k => if some k.val = n then some [] else none }
/-- A chunk of 8 bytes in flight, READY. -/
def aFlight : Flight :=
  { handle := 3, fp := fingerprint 0 8, position := 0, base := 0, from_ := 0, upto := 8, state := .ready, bytes := [1,2,3,4,5,6,7,8], sent := 0,
    reread := false, discarded := false, buffer := some 0 }
/-- Read stream `i` of grant 0 RUNNING with that chunk and an offered message. -/
def reading (i : Nat) (o : Option Offered) : State :=
  (oneNotice none (granted smallGrant)).setReader i
    { ReadStream.freeRecord with state := .running, object := some 1, grant := some 0, stop := 20, offset := 8, flights := [aFlight], offered := o }
/-- The lane is sending. -/
def laneSends (s : State) (m : OutMsg) : State := lnkOf s fun l => { l with lane := some m, entries := [⟨7, 0x1A, false⟩], hold := true }
/-- A reply waits. -/
def replyWaits : State := lnkOf normal fun l => { l with replyQueue := [aReply] }
/-- GET_STATUS with tag 7 holds an entry. -/
def statusAsked : State := lnkOf normal fun l => { l with entries := [⟨7, 0x1B, false⟩] }
/-- An array with one ingest stream in use. -/
def withIngest (i : Nat) (t : Stream) : State := normal.setStream i t
/-- An OPEN stream that fills object 1 with chunk order 10. -/
def openStream : Stream := { Stream.freeRecord with state := .opened, object := some 1, k := some 10 }
/-- An OPEN object of stream `i`. -/
def openObj (i : Nat) : Obj :=
  { kind := 2, owner := 1, state := .opened, length := 0, chunks := 0, albums := 1, created := 0, sealedAt := 0, map := [], stream := some i,
    walk := none, tail := none, recorded := true }
/-- That stream and its object. -/
def ingesting (i : Nat) (t : Stream) : State := (withIngest i t).setObj 1 (some (openObj i))
/-- Every stream but the last is in use, and the id cursor is at its top. -/
def sevenOpen : State :=
  { normal with
    ing := { Ing.resetRecord with streams := Vector.ofFn fun i : Fin 8 => if i.val < 7 then openStream else Stream.freeRecord },
    oru := { Oru.resetRecord with cursor := 65535 } }
/-- A MIRROR2 array. -/
def mirrored : State :=
  { normal with
    chans := #v[activeChan 0, activeChan 1, Channel.resetRecord 2, Channel.resetRecord 3],
    tables := { normal.tables with array := some { smallArray with layout := .mirror2 } } }
/-- A stream that has received `n` bytes, of which none has been chunked. -/
def filled (n : Nat) : Stream := { openStream with received := n }
/-- A stream with nothing left to do, DRAINING or FAULTED. -/
def doneStream (st : StreamState) : Stream := { openStream with state := st, recipe := [3] }
def draining : Stream := { openStream with state := .draining }
/-- An OPEN stream that holds its byte 0. -/
def holdsByte : Stream := { openStream with received := 1 }
/-- A stream in the middle of its first chunk: the manual's bytes 80 and 16 taken, one byte to take, with chunk order 13. -/
def midStream (st : StreamState) : Stream :=
  { openStream with
    state := st, k := some 13, received := 3, chunked := 2, curLen := 2, sumA := 96, sumB := 176,
    window := List.replicate 30 0 ++ [80, 16], crc := crcRun crcStart [80, 16] }
def midChunk (st : StreamState) : State :=
  { ingesting 7 (midStream st) with mem := [(ringAddress 7 0, 80), (ringAddress 7 1, 16), (ringAddress 7 2, 5)] }
/-- A fingerprint of 8 bytes. -/
def fp8 : Fp := fingerprint 0 8
/-- A chunk record of those 8 bytes. -/
def rec8 (st : Stage) (w : Work) : ChunkRec :=
  { no := 0, start := 0, len := 8, fp := fp8, stage := st, cand := none, result := none, work := w }
/-- A stream whose resolve queue holds one record. -/
def queued (r : ChunkRec) : Stream := { openStream with received := 8, chunked := 8, queue := [r], nextNo := 1 }
/-- An index entry for them at handle 3, in container 2. -/
def entry8 (st : EntryState) (n : Nat) : IdxEntry :=
  { state := st, fp := fp8, container := 2, offset := 0, refcount := n, move := none }
/-- A container that holds them. -/
def cont2 (st : ContState) : Container :=
  { state := st, kind := .data, seq := some 4, live := 8, segRefs := 0, entries := 1, fill := 8, reads := 0, scarred := false }
/-- A state with that entry and container. -/
def indexed (s : State) (e : IdxEntry) (c : Container) : State :=
  { s with tables := { s.tables with entries := [(3, e)], containers := [(2, c)] } }
def lookingUp : State := ingesting 7 (queued (rec8 .waitingLookup .lookupSent))
/-- A report of a verify's read. -/
def verifyReport (a : ReadAnswer) : ReadReport := { job := 0, who := .chunk (.verify 7 0), answer := a }
/-- A record being verified, with the report. -/
def verifying (a : ReadAnswer) : State :=
  let s := ingesting 7 (queued { rec8 .verifying .reading with cand := some 3 })
  { s with ctm := { s.ctm with reports := [verifyReport a] } }
def recVerify : ChunkRec := { rec8 .verifying .reading with cand := some 3 }
/-- A record whose place is given and that waits for its insertion; `st` tells a collision. -/
def placed (st : Stage) : State :=
  let s := ingesting 7 (queued (rec8 st (.insert 2 0 0)))
  { s with tables := { s.tables with containers := [(2, cont2 .opened)] } }
/-- Stripe buffer 3 holds the container. -/
def buffered (s : State) (ps : List Place) : State :=
  { s with ctm := { s.ctm with buffers := #v[none, none, none, some { container := 2, places := ps }] } }
/-- A record whose copy into container 2 is to come, with the container's state; a write of the container is on channel 1. -/
def copyingInto (st : ContState) : State :=
  let s := buffered (ingesting 7 (queued (rec8 .waitingLookup (.copy 3 2 0 0)))) [.empty]
  { s with tables := { s.tables with containers := [(2, cont2 st)] } }.modChan 1 fun c =>
    { c with current := some (writeOp .write 2 0 [] .ctm (.stripeWrite 2)) }
def recDone : ChunkRec := { rec8 .resolved .idle with result := some 3 }
/-- An array with one entry at handle 3, in container 2. -/
def held8 (n : Nat) : State := indexed normal (entry8 .stored n) (cont2 .sealed)
/-- The same with bucket 0 lost. -/
def lost0 : State :=
  let s := held8 1
  { s with tables := { s.tables with headers := [(0, { lost := true, lostCount := 0, chain := [] })] } }
/-- The container holds 4 more live bytes than the entry. -/
def cont12 : Container := { cont2 .sealed with live := 12 }
def shared12 : State := indexed normal (entry8 .stored 1) cont12
/-- A hold of stream 7 on handle 3. -/
def withHold (s : State) : State := { s with tables := { s.tables with holds := [{ stream := 7, handle := 3 }] } }
def recConfirm : ChunkRec := { rec8 .resolved .confirm with result := some 3, cand := some 3 }
def recDrop : ChunkRec := { rec8 .verifying (.drop .difference) with cand := some 3 }
def confirming : State := withHold (indexed (ingesting 7 (queued recConfirm)) (entry8 .stored 2) (cont2 .sealed))
def dropping : State := withHold (indexed (ingesting 7 (queued recDrop)) (entry8 .stored 2) (cont2 .sealed))
/-- The entry in a given state. -/
def inState (st : EntryState) : State := indexed normal (entry8 st 1) (cont2 .sealed)
/-- An entry with a move destination, its source and its destination. -/
def entryMoving : IdxEntry := { entry8 .stored 1 with move := some 9 }
def cont9 : Container := { cont2 .opened with seq := none, live := 0 }
def moving : State :=
  let s := indexed normal entryMoving cont12
  { s with tables := { s.tables with containers := [(2, cont12), (9, cont9)] } }
/-- Object 1, SEALED, with 8 bytes in one segment. -/
def sealedObj : Obj := { openObj 0 with state := .sealed, length := 8, chunks := 1, stream := none, map := [{ container := 2, offset := 0 }] }
/-- An array that holds one object. -/
def holding (o : Nat) (r : Obj) : State := { normal with tables := { normal.tables with objects := [(o, r)] } }
/-- The same object with readers. -/
def readBy (n : Nat) (r : Obj) : State := { holding 1 r with oru := { Oru.resetRecord with readers := [(1, n)] } }
def pendingObj : Obj := { sealedObj with state := .releasePending }
/-- An object being walked, with its place in the walk. -/
def walkAt (ph : WalkPhase) : Walk := { phase := ph, ordinal := 0, index := 0, lowered := 0 }
def walkedObj (ph : WalkPhase) : Obj := { sealedObj with state := .releasing, walk := some (walkAt ph) }
def walkingWith (ph : WalkPhase) (hs : Option (List Nat)) : State :=
  { indexed (holding 1 (walkedObj ph)) (entry8 .stored 2) (cont2 .sealed) with
    oru := { Oru.resetRecord with queue := [1], handles := hs, marks := [(1, 7)], recordAsked := [1], recordCopied := [1] } }
/-- The walk of an aborted object at its end; a SEGMENT record of it has been copied or not. -/
def abortedObj (rec : Bool) : Obj :=
  { openObj 7 with state := .releasing, stream := none, walk := some (walkAt .tail), tail := some [], recorded := rec }
def abortWalked (rec : Bool) : State :=
  let s := ingesting 7 { openStream with state := .aborting, queued := true, abortTag := some 9 }
  { s.setObj 1 (some (abortedObj rec)) with
    oru := { Oru.resetRecord with queue := [1] }, lnk := { s.lnk with entries := [{ tag := 9, kind := 4, refusal := false }] } }
/-- A stream writes its first SEGMENT record out, and the pool has no slot. -/
def poolFull : State :=
  let s := (ingesting 7 { openStream with writingOut := true, recipe := [3] }).setObj 1 (some { openObj 7 with recorded := false })
  { s with mec := { s.mec with map := s.mec.map.map fun m => { m with pool := 0 } } }
def walkingFailed : State := let s := walkingWith .ended none; { s with ctm := { s.ctm with state := .failed } }
/-- A segment read for the walk is wanted, or has its bytes. -/
def walkWants (r : SegRead) : State :=
  let s := walkingWith .segments none
  { s with oru := { s.oru with walkRead := r } }
def segBytes : List Byte := (RecipeRec.segment 1 0 [3]).bytes
def segJob : ReadJob :=
  { id := 0, who := .seg .walk, handle := none, cls := .read, container := 2, offset := 0, length := 16, check := .segment 1 0, phase := .reading,
    parts := [], out := 0, reread := false, buffered := some segBytes }
def segRead : State :=
  let s := walkWants .reading
  { s with ctm := { s.ctm with reads := [(0, segJob)] } }
/-- Read stream 15 seeks object 1, whose segment is wanted, or has its bytes. -/
def streamWants (r : SegRead) : State :=
  (holding 1 sealedObj).setReader 15
    { ReadStream.freeRecord with state := .seeking, object := some 1, grant := some 0, stop := 8, segRead := r }
def streamJob : ReadJob := { segJob with who := .seg (.stream 15) }
def streamRead : State :=
  let s := streamWants .reading
  { s with ctm := { s.ctm with reads := [(0, streamJob)] } }
/-- A container that is OPEN, of a kind, with a fill offset and an entry count. -/
def openCont (k : ContKind) (fill n : Nat) : Container :=
  { state := .opened, kind := k, seq := none, live := 0, segRefs := 0, entries := n, fill := fill, reads := 0, scarred := false }
/-- A state in which container 2 is OPEN with a stripe buffer. -/
def opened (s : State) (v : Container) : State :=
  { s with tables := { s.tables with containers := [(2, v)] },
           ctm := { s.ctm with buffers := #v[none, none, none, some { container := 2, places := [] }] } }
def emptyBuf : StripeBuf := ⟨2, []⟩
def recPlace : ChunkRec := rec8 .waitingLookup .place
/-- A RELEASE record of object 1 is asked for, or waits. -/
def recordAsked (retry : Bool) : State :=
  let s := opened normal (openCont .recipe 126968 254)
  { s with ctm := { s.ctm with waiting := if retry then [.record (.release 1)] else [],
                               recordReqs := if retry then [] else [.release 1] } }
/-- A returned operation of a job. -/
def backFrom (p : Nat) (j : Job) (r : OpResult) : Returned :=
  { position := p, op := writeOp .write 2 0 [] .ctm j, result := r }
/-- A zero stripe is being written on one member. -/
def zeroing : State :=
  { normal with ctm := { normal.ctm with zeroing := some (10, 1) }, returns := [backFrom 0 (.zeroStripe 9) (.ok [])] }
/-- Sleep entry asks for a forced seal. -/
def sealAsked : State :=
  let s := opened normal (openCont .data 8 1)
  { s with ctm := { s.ctm with sealReqs := [.sleepEntry] } }
/-- A stripe write of container 2 whose last unit write is out. -/
def aWrite (out : List Nat) : StripeWrite := { container := 2, seq := 4, out := out, written := 3 - out.length }
def writing (out : List Nat) : State :=
  let s := buffered (indexed normal (entry8 .pending 1) (cont2 .sealing)) [.chunk false 3 fp8 0]
  { s with ctm := { s.ctm with writes := [aWrite out] }, returns := out.map fun p => backFrom p (.stripeWrite 2) (.ok []) }
/-- A recipe container is being written with the SEAL record of stream 7 at offset 24. -/
def recipeCont : Container := { cont2 .sealing with kind := .recipe, live := 0, segRefs := 1, fill := 64, entries := 2 }
def sealRec : RecipeRec := .closing 1 8 1 2 3 5#32 1
def sealedStream : Stream :=
  { openStream with state := .sealing, closeTag := some 9, sealAt := some { container := 2, offset := 24 } }
/-- Such a container with other records before the SEAL record, and with a number of segment references. -/
def segPlace : Place := .record (.segment 1 0 [3]) 0
def writingAfter (ps : List Place) (refs : Nat) : State :=
  let s := buffered (ingesting 7 sealedStream) (ps ++ [.record sealRec 24])
  { s with tables := { s.tables with containers := [(2, { recipeCont with segRefs := refs })] },
           ctm := { s.ctm with writes := [aWrite []] },
           lnk := { s.lnk with entries := [{ tag := 9, kind := 3, refusal := false }] } }
/-- A chunk read for read stream 0. -/
def aReq : ChunkReq := { handle := 3, fp := fp8, cls := .read, who := .stream 0 0 }
def asking (s : State) : State := { s with ctm := { s.ctm with chunkReqs := [aReq] } }
/-- The stream's read with the chunk's bytes from a stripe buffer: eight zero bytes. -/
def fpZero : Fp := fingerprint (crc32 (List.replicate 8 0)) 8
def chunkJob : ReadJob :=
  { id := 5, who := .chunk (.stream 0 0), handle := some 3, cls := .read, container := 2, offset := 0, length := 8, check := .chunk fpZero,
    phase := .reading, parts := [], out := 0, reread := false, buffered := some (List.replicate 8 0) }
def chunkHad : State :=
  let s := held8 1
  { s with ctm := { s.ctm with reads := [(5, chunkJob)], nextRead := 6 } }
/-- Its read from the array: unit 0 of the stripe, wanted from member 1, with what has come back. -/
def partAt (d f : Bool) (got : Option (List Byte)) : Part :=
  { unit := 0, start := 0, len := 8, degraded := d, byError := false, got := got, failed := f }
/-- The unit when its read has come back in error. -/
def erredPart : Part := { partAt true false none with byError := true }
def arrayJob (ph : ReadPhase) (p : Part) (n : Nat) : ReadJob := { chunkJob with phase := ph, parts := [p], out := n, buffered := none }
def readBackOf (q : Nat) (r : OpResult) : Returned :=
  { position := q, op := readOp .read 2 0 8 (.readStream 0) (.unitRead 5 0 q), result := r }
def entryZero : IdxEntry := { entry8 .stored 1 with fp := fpZero }
def arrayHad (j : ReadJob) (rs : List Returned) : State :=
  let s := indexed normal entryZero { cont2 .sealed with reads := 1 }
  { s with ctm := { s.ctm with reads := [(5, j)], nextRead := 6 }, returns := rs }
def zeros8 : List Byte := List.replicate 8 0
def ones8 : List Byte := List.replicate 8 1
def directJob : ReadJob := arrayJob .reading (partAt false false none) 1
def degradedJob : ReadJob := arrayJob .reading (partAt true false none) 2
def reconJob : ReadJob := arrayJob (.recon 0) (partAt false false (some ones8)) 2
def readCont : Container := { cont2 .sealed with reads := 1 }
/-- A relocation of container 2 in a stage. -/
def relocAt (st : RelocStage) : Reloc :=
  { source := 2, tag := 7, cursor := 0, moved := 0, left := 0, destinations := [], entries := [⟨0, 3, 0, 8⟩], stage := st, full := false, buffer := none }
def relocating (st : RelocStage) : State :=
  let s := held8 1
  { s with ctm := { s.ctm with reloc := some (relocAt st) } }
/-- The same at a candidate entry, and with what its chunk's read has reported. -/
def goodEntry : DirEntry := ⟨0, 3, fp8, 0⟩
def walkAt8 (st : RelocStage) : Reloc := { relocAt st with entries := [goodEntry], buffer := some 5 }
def relocating8 (st : RelocStage) (rs : List ReadReport) : State :=
  let s := opened (held8 1) (openCont .data 8 1)
  let s := { s with tables := { s.tables with containers := [(2, cont2 .draining), (9, openCont .data 126968 254)] } }
  { s with ctm := { s.ctm with
      reloc := some (walkAt8 st), reports := rs, buffers := #v[none, none, none, some { container := 9, places := [.empty] }] } }
def relocReport (a : ReadAnswer) : ReadReport := { job := 5, who := .relocChunk, answer := a }
/-- A read of container 2. -/
def anOp (c : Cls) (j : Job) : Op := readOp c 2 65528 8 .igu j
/-- Channel 2 changed. -/
def chan2 (s : State) (f : Channel → Channel) : State := s.modChan 2 f
/-- Channel 2 with `n` reads queued. -/
def queuedOps (n : Nat) : State := chan2 normal fun c => { c with queues := #v[List.replicate n (anOp .read (.lone 1)), [], [], [], []] }
/-- Channel 2 at the last slot of its frame (REBUILD) with one scrub read. -/
def lastSlot : State := chan2 normal fun c => { c with queues := #v[[], [], [], [anOp .scrub (.lone 1)], []], position := 15 }
/-- An operation is in progress on channel 2. -/
def busyWith (o : Op) : State := chan2 normal fun c => { c with current := some o, idleReported := false }
/-- The drive's answer to a command sent before the last one. -/
def staleAnswer : DriveAnswer := { command := 1, completion := .mediaError }
/-- A member at position 2 in a state. -/
def member2 (s : State) (m : MemberState) : State :=
  chan2 s fun c => { c with member := { c.member with state := m }, idleReported := false }
/-- An array of three ACTIVE members with the PWC record changed. -/
def pwcOf (s : State) (f : Pwc → Pwc) : State := { s with pwc := f s.pwc }
def timerRuns : State := pwcOf normal fun w => { w with idleTimers := #v[false, false, true, false] }
def standbyAsked : State := pwcOf normal fun w => { w with standbyAsks := #v[none, none, some .idleTimer, none] }
def standbyRuns : State := pwcOf (busyWith standbyOp) fun w => { w with standbyOps := #v[none, none, some { asker := .idleTimer, second := false }, none] }
/-- The array state replaced. -/
def arrayIn (a : ArrayState) (s : State) : State := { s with ctm := { s.ctm with state := a } }
def spinAsked (m : MemberState) : State := chan2 (member2 normal m) fun c => { c with spinupAsked := true }
def aSpin (n : Nat) : Spinning := { attempt := n, fromOff := true, commanded := true }
def spinningUp (n : Nat) : State :=
  pwcOf (member2 normal .spinningUp) fun w => { w with spinning := #v[none, none, some (aSpin n), none] }
/-- An adoption of position 2 whose label is not yet written. -/
def newAdoption : Adoption :=
  { position := 2, bay := 2, tag := some 7, labelled := false, seq := none, walking := false, closing := false }
def adoptedSpins : State :=
  let s := arrayIn .degraded (spinningUp 1)
  { s with igu := { s.igu with adoption := some newAdoption } }
/-- Bay 2 of a small array changed. -/
def bay2 (f : Bay → Bay) (s : State) : State := pwcOf s fun w => { w with bays := w.bays.set 2 (f Bay.resetRecord) }
def on : Line := { samples := (true, true, true), level := true }
def busyGrant : State := granted { smallGrant with opens := 1 }
def revokedGrant : State := granted { smallGrant with state := .revoked }
def dueGrant : State := granted { smallGrant with notAfter := 0 }
/-- A grant and a SEALED object that share album 0, with read streams below `n` in use. -/
def shareable (n : Nat) (al : Albums) : State :=
  let s := { granted { smallGrant with albums := al } with tables := (holding 1 sealedObj).tables }
  { s with rds := { s.rds with streams := Vector.ofFn fun i : Fin 16 =>
      if i.val < n then { ReadStream.freeRecord with state := .running } else ReadStream.freeRecord } }
/-- Read stream 15 with a record. -/
def reader15 (r : ReadStream) : State :=
  let s := held8 1
  ({ s with rds := (granted smallGrant).rds }).setReader 15 r
def seeker : ReadStream :=
  { ReadStream.freeRecord with state := .seeking, object := some 1, grant := some 0, start := 8, stop := 20, seg := some ⟨0, 0, [3, 3]⟩ }
def stopping : ReadStream := { seeker with segRead := .reading }
def runner : ReadStream := { seeker with state := .running, start := 0 }
def rich : State := (reader15 runner).setGrant 0 { smallGrant with remaining := some 8 }
/-- The runner as changed, its grant with an allowance. -/
def issuing (f : ReadStream → ReadStream) (left : Option Nat) : State :=
  (reader15 (f runner)).setGrant 0 { smallGrant with remaining := left }
/-- The condition of CHUNK_ISSUE's statement on the grant. -/
abbrev issueGranted (s : State) (g : Nat) : Prop :=
  (s.reader 15).grant = some g ∧ (g = 255 ∨ (g ≤ 63 ∧ (s.grant g).state = .active ∧ s.pwc.time < (s.grant g).notAfter ∧
    ∀ left, (s.grant g).remaining = some left → (s.reader 15).wanted (fpLength (entry8 .stored 1).fp) ≤ left))
def waitingFlight : Flight := { aFlight with state := .reading, bytes := [], buffer := none }
def poorRunner : ReadStream := { runner with flights := [waitingFlight] }
def bytesReport : ReadReport := { job := 5, who := .chunk (.stream 15 0), answer := .bytes [1,2,3,4,5,6,7,8] }
def reported : State :=
  let s := reader15 poorRunner
  { s with ctm := { s.ctm with reports := [bytesReport] } }
/-- A scrub step on container 2 at the given point. -/
def scrubAt (reading started : Bool) (units : Vector UnitRead 4) (o : Option Finding) : ScrubStep :=
  { container := 2, reading := reading, deferred := false, started := started, units := units, reread := [], outcome := o }
def scrubbing (s : State) (st : ScrubStep) : State := { s with igu := { s.igu with step := some st } }
def idleStep : ScrubStep := scrubAt false false (Vector.replicate 4 .lost) none
def expired : State :=
  let s := scrubbing (held8 1) idleStep
  { s with igu := { s.igu with timer := 0 } }
def idleMember : State := member2 (scrubbing (held8 1) idleStep) .standby
/-- The scrub timer has expired with no step pending. -/
def scrubDue (cursor : Nat) (s : State) : State :=
  { s with igu := { s.igu with timer := 0 }, tables := { s.tables with scrubCursor := cursor } }
/-- Container 9, the last, is SEALED. -/
def lastSealed : State := { normal with tables := { normal.tables with containers := [(9, cont2 .sealed)] } }
def brokenStep : ScrubStep := scrubAt true true #v[.lost, .lost, .out, .lost] none
def broken : State :=
  let s := scrubbing (held8 1) brokenStep
  { s with returns := [backFrom 2 .scrubRead (.ok [])] }
/-- A stripe of short units that a scrub step has in hand, member 0's with the parity just come back: four bytes whose area CRC is
zero, as their missing CRC field reads. -/
def stripeStep (a b : UnitRead) : ScrubStep := scrubAt true true #v[.out, a, b, .lost] none
def stripeOf (p a b : UnitRead) : Stripe := { layout := .parity3, container := 2, units := #v[p, a, b, .lost] }
def stripeHad (p : List Byte) (a b : UnitRead) : State :=
  let s := scrubbing (indexed normal (entry8 .stored 1) { cont2 .sealed with reads := 1 }) (stripeStep a b)
  { s with returns := [backFrom 0 .scrubRead (.ok p)] }
def unitA : UnitRead := .bytes [80, 47]
def unitB : UnitRead := .bytes [27, 16]
/-- No data unit: the parity unit. -/
def noUnit : Option Nat := none
def repairing : ScrubStep := scrubAt true true (Vector.replicate 4 (.bytes [])) (some (.repaired none))
def repaired : State :=
  let s := scrubbing (held8 1) repairing
  { s with returns := [backFrom 2 .scrubRepair (.ok [])] }
/-- A DEGRADED array whose member 2 has FAILED, its bay 2 holding a drive. -/
def degraded : State :=
  arrayIn .degraded (pwcOf (member2 normal .failed) fun w => { w with bays := w.bays.set 2 { Bay.resetRecord with presence := on } })
def anAdoption (labelled walking : Bool) : Adoption :=
  { position := 2, bay := 2, tag := some 7, labelled := labelled, seq := if labelled then some 5 else none, walking := walking, closing := false }
/-- An adoption in progress, with one operation come back. -/
def adopting (a : Adoption) (rs : List Returned) (s : State) : State :=
  { s with igu := { s.igu with adoption := some a }, returns := rs }
def labelBack : Returned := backFrom 2 .adoptLabel (.ok [])
/-- An array whose member 2 is REBUILDING, in an array state, with a current slot. -/
def remade (a : ArrayState) (s : State) : State :=
  let s := arrayIn a (member2 s .rebuilding)
  { s with ckr := { s.ckr with slot := some .b } }
def aCopy : SlotCopy := { slot := .a, unit := 0, writing := false, source := some 0 }
def copyBack : Returned := { backFrom 0 .copyRead (.ok [1]) with op := readUnitOp .rebuild 1 .copyRead }
def copying : State :=
  let s := adopting (anAdoption true false) [copyBack] (remade .rebuilding normal)
  { s with ckr := { s.ckr with copy := some aCopy } }
def walks (n : Nat) (s : State) : State :=
  let s := adopting (anAdoption true true) [] s
  { s with igu := { s.igu with rebuildCursor := n } }
def oldCont : Container := { cont2 .sealed with seq := some 4 }
def toRebuild : State := walks 2 (remade .rebuilding (indexed normal (entry8 .stored 1) oldCont))
def rebuildJob (w : Bool) : RebuildJob :=
  { container := 2, started := true, writing := w, units := #v[.out, .lost, .lost, .lost], reread := [], abandoned := false }
def rebuilding (w : Bool) (r : Returned) : State :=
  let s := adopting (anAdoption true true) [r] (held8 1)
  { s with igu := { s.igu with rebuild := some (rebuildJob w) } }
def writeBack : Returned := backFrom 2 .rebuildWrite (.ok [])
def readBack : Returned := backFrom 0 .rebuildRead .error
/-- The units of the other two members have come back. -/
def goodJob : RebuildJob := { rebuildJob false with units := #v[.bytes [5], .out, .lost, .lost] }
def goodRead : Returned := backFrom 1 .rebuildRead (.ok [9])
def sourcesBack : State :=
  let s := adopting (anAdoption true true) [goodRead] (remade .rebuilding (held8 1))
  { s with igu := { s.igu with rebuild := some goodJob } }
def finalBack : Returned := backFrom 2 .finalLabel (.ok [])
/-- The box in SLEEP_ENTRY at a step. -/
def entering (n : Nat) : State := pwcOf normal fun w => { w with box := .sleepEntry, entryStep := some n, sleepTag := some 7 }
/-- The same with every drive off. -/
def enteringOff (n : Nat) : State := { entering n with chans := resetChannels }
/-- At step 6, the grace time runs. At step 7, MEC is asked to enter self-refresh. -/
def gracing : State := pwcOf (entering 6) fun w => { w with graceTimer := some 1 }
def fallingAsleep : State := (entering 7).onMec fun m => { m with entryAsked := true }
def offAsked : State :=
  pwcOf (member2 (entering 5) .standby) fun w => { w with standbyAsks := #v[none, none, some .sleepEntry, none] }
/-- In SLEEP, the LAN filter on with pattern 7 enabled. -/
def sleeping : State :=
  pwcOf normal fun w => { w with
    box := .asleep, filterActive := true, patterns := w.patterns.set 7 { WakePattern.resetRecord with enabled := true, length := 1 } }
/-- The smallest LAN frame, to the station address after a reset. -/
def lanBytes : List Byte := withCrc (List.replicate 60 0)
def sleepingAlarm : State := pwcOf sleeping fun w => { w with alarm := some 0 }
def matched : Pwc := (sleeping.pwc.tryPatterns (lanBytes.take 60) (List.range 8)).1
def leaving : State :=
  let s := pwcOf normal fun w => { w with box := .waking }
  s.onMec fun m => { m with state := .selfRefresh, exitAsked := true }
def alarmDue : State := pwcOf normal fun w => { w with alarm := some 0 }
/-- The memory with `n` owed refreshes. -/
def owing (n : Nat) : State := up.onMec fun m => { m with owed := n }
/-- The pool with one asker's buffers lent. -/
def lending (n : Nat) : State := normal.onMec fun m => { m with lent := [(.scrub, n)] }
def aMarker : Marker := { number := 7, buckets := 65536, containers := 10, pool := 1 }
def marked : State := up.onMec fun m => { m with marker := some aMarker }
def memFailed : State := up.onMec fun m => { m with state := .failed }
def lastRead : Burst := { isWrite := false, addr := 1073741816, len := 8, data := [], errors := [], piece := false }
def firstWrite : Burst :=
  { isWrite := true, addr := 0, len := 4096, data := List.replicate 4096 1, errors := [], piece := false }
def aBurst : Burst := { isWrite := false, addr := 0, len := 8, data := [], errors := [], piece := false }
/-- No array, with a drive present in every bay. -/
def present : State := { up with pwc := { up.pwc with bays := Vector.replicate 4 { Bay.resetRecord with presence := on } } }
/-- A forming of a MIRROR2 array in a stage, with the given operations come back. -/
def aForming (st : FormStage) : Forming := { tag := 7, layout := .mirror2, bays := [0, 3], buckets := 65536, stage := st }
def formingAt (s : State) (st : FormStage) (rs : List Returned) : State :=
  { s with ckr := { s.ckr with form := some (aForming st), op := .forming }, returns := rs, ctm := { s.ctm with state := .attaching } }
def labelIn (p : Nat) (bs : List Byte) : Returned := { position := p, op := labelReadOp .labelRead, result := .ok bs }
def sized : State :=
  let s := formingAt present .drives [labelIn 0 [], labelIn 1 []]
  { s with chans := s.chans.map fun c => { c with units := some 40000 } }
def formBack (p : Nat) (j : Job) : Returned := { position := p, op := writeUnitOp .write 0 [] .ckr j, result := .ok [] }
def labelsBack : State :=
  formingAt mirrored .labels [formBack 0 .formLabel, formBack 0 .formWipe, formBack 1 .formLabel, formBack 1 .formWipe]
/-- A checkpoint in a phase. -/
def aCkpt (why : CkptWhy) (ph : CkptPhase) : Ckpt :=
  { why := why, phase := ph, slot := .a, seq := 1, q := 4, members := [0, 1, 2], piece := 10000, crc := 0, out := [], retaken := false,
    retake := false, headersOut := [], headersWritten := 0, released := false }
/-- Its headers written on member 0. -/
def ckptDone (why : CkptWhy) (released : Bool) : Ckpt := { aCkpt why .copying with headersOut := [0], released := released }
def headerBack : Returned := formBack 0 .ckptHeader
def checkpointing (s : State) (c : Ckpt) (rs : List Returned) : State :=
  { s with ckr := { s.ckr with ckpt := some c, op := .checkpoint }, returns := rs }
def formed : State := checkpointing (formingAt normal .slot []) (ckptDone .forming true) [headerBack]
def mirrorArray : ArrayRec := { smallArray with layout := .mirror2 }
def bodyOut (n : Nat) : Ckpt := { aCkpt (.request 7) .copying with out := [2], piece := n }
def bodyBack : Returned := formBack 2 .ckptBody
/-- Two agreeing labels of a MIRROR2 array. -/
def aLabel (p : Nat) : Label :=
  { number := 7, layout := .mirror2, position := p, reserved := reservedFor 1073741824, containers := 10, buckets := 65536,
    memory := 1073741824, incomplete := false, adoption := none }
def anAttach (st : AttachStage) : Attach :=
  { tag := 7, stage := st, bays := [0, 3], usable := [0, 1], warm := false, label := some (aLabel 0), heads := [], slot := .b, seq := 6,
    otherTried := false, sources := [0, 1], whole := [0, 1], units := [], scanning := none, rest := [], misses := 0, accepted := [],
    items := [], applied := [], walking := none, directories := [], derived := .normal, figures := Figures.zero }
def attaching (s : State) (a : Attach) (rs : List Returned) : State :=
  { s with ckr := { s.ckr with attach := some a, op := .attaching }, returns := rs, ctm := { s.ctm with state := .attaching } }
def labelled : State :=
  attaching present (anAttach .labels) [labelIn 3 ((aLabel 0).bytes.take 37), labelIn 0 ((aLabel 1).bytes.take 37)]
def aHeader : SlotHeader :=
  { number := 7, seq := 6, q := 4, buckets := 65536, containers := 10, pool := 67108864, fence := 10, cursor := 0, pass := 0,
    freeHead := noHandle, freeLength := 0, quarantineHead := noHandle, quarantineLength := 0, bodyLength := 0, bodyCrc := 0 }
def headIn (p : Nat) (b : Bool) : Returned := { position := p, op := readUnitOp .read 0 (.slotHeader b), result := .ok (aHeader.bytes.take 70) }
def headed : State := attaching present (anAttach .headers) [headIn 0 true, headIn 1 true]
def heads2 : List HeadRead := [⟨0, true, aHeader⟩, ⟨1, true, aHeader⟩]

def knowsHeads (st : AttachStage) : Attach := { anAttach st with heads := heads2 }
def bodied : State := attaching present (knowsHeads .body) []
/-- A scan of container 9 after `m` that did not check. -/
def scanAtt (m : Nat) (rest : List Nat) : Attach := { anAttach .scan with scanning := some 9, rest := rest, misses := m }
def scanning (m : Nat) (rest : List Nat) : State := attaching mirrored (scanAtt m rest) []
def applying (i : ReplayItem) : Attach := { anAttach .apply with items := [i] }
def sealItem : ReplayItem := .record 2 0 (some (.closing 1 8 1 2 1 3 1))
def albumsItem : ReplayItem := .record 2 0 (some (.albums 1 3))
def openedObj : Obj := { sealedObj with state := .opened }
def walked : State := { normal with tables := { normal.tables with containers := [(2, cont2 .draining)] } }
/-- Replayed entries, and records of other kinds. -/
def newEntry (h : Nat) (f : Fp) : DirEntry := ⟨0, h, f, 16⟩
def movedEntry (f : Fp) : DirEntry := ⟨1, 3, f, 16⟩
def lostIndex : State := { lost0 with tables := { lost0.tables with containers := [(2, cont12), (9, cont9)] } }
def segItem : ReplayItem := .record 9 24 (some (.segment 1 1 [3, 3]))
def firstItem : ReplayItem := .record 9 24 (some (.segment 65535 0 []))
def releaseItem : ReplayItem := .record 9 24 (some (.release 1))
def replayObj (st : ObjState) (m : List SegLoc) : Obj := { sealedObj with state := st, map := m }
def replayOn (st : ObjState) (m : List SegLoc) (i : ReplayItem) : State :=
  let s := attaching moving (applying i) []
  { s with tables := { s.tables with objects := [(1, replayObj st m), (7, sealedObj)] } }
/-- Object 1 RELEASING in a phase of its walk, with its RELEASE record to be applied. -/
def releasingObj (p : WalkPhase) (m : List SegLoc) : Obj :=
  { replayObj .releasing m with walk := some { Walk.start with phase := p } }
def releasingOn (p : WalkPhase) (m : List SegLoc) : State :=
  let s := replayOn .releasing m releaseItem
  { s with tables := { s.tables with objects := [(1, releasingObj p m), (7, sealedObj)] } }
def newEntries (i : ReplayItem) : State := attaching moving (applying i) []
/-- A SEGMENT record of no chunks. -/
def noHandles : List Nat := []
def closing : State := checkpointing (attaching normal (anAttach .closing) []) (ckptDone .closing true) [headerBack]
/-- A DATA container has been applied, whose directory is to be read again. -/
def appliedOne : Accepted := { container := 2, kind := .data, seq := 6, count := 0, entries := [], records := [] }
def dirAttach : Attach := { anAttach .walks with applied := [appliedOne] }

/-! ## Ill-formed commands -/

/-- An operation and a burst that are well-formed. -/
def goodOp : Op :=
  { kind := .write, cls := .write, target := .container 0, start := 65535, len := 1, requester := .ctm, retry := false, data := [0],
    job := .lone 0 }
def goodBurst : Burst := { isWrite := true, addr := 0, len := 8, data := List.replicate 8 0, errors := [], piece := false }

theorem test_wellFormed_accepts :
    (Instr.openIngest 65535 255 255 0).wellFormed = true ∧ (Instr.chunkerRun 7).wellFormed = true ∧
    (Instr.operationSubmit 3 goodOp).wellFormed = true ∧ (Instr.memoryBurst (some goodBurst)).wellFormed = true := by decide

/-- Fields that do not fit in their size. -/
theorem test_wellFormed_fields :
    (Instr.openIngest 65536 0 0 0).wellFormed = false ∧ (Instr.openIngest 0 256 0 0).wellFormed = false ∧
    (Instr.releaseObject 0 65536).wellFormed = false ∧ (Instr.raise 4294967296).wellFormed = false ∧
    (Instr.openRead 0 1 0 281474976710656 0).wellFormed = false ∧
    (Instr.putGrant 0 0 0 0 (some 1099511627776) 1).wellFormed = false := by decide

/-- Numbers that number nothing. -/
theorem test_wellFormed_numbers :
    (Instr.chunkerRun 8).wellFormed = false ∧ (Instr.seekStep 16).wellFormed = false ∧ (Instr.dispatch 4).wellFormed = false ∧
    (Instr.grantExpire 64).wellFormed = false ∧ (Instr.ringWordError 0 262144).wellFormed = false ∧
    (Instr.indexWordError (.way 0 8)).wellFormed = false ∧ (Instr.stripeBufferWordError 4 0).wellFormed = false ∧
    (Instr.recordRead (.stream 16)).wellFormed = false ∧ (Instr.chunkPlacement (.record 8 0)).wellFormed = false ∧
    (Instr.scrubReadsDone [4]).wellFormed = false ∧ (Instr.readBufferRequest .scrub 0).wellFormed = false := by decide

/-- Runs of bytes or of numbers of the wrong length. -/
theorem test_wellFormed_lengths :
    (Instr.setStation 0 [] 0).wellFormed = false ∧ (Instr.setWakePattern 0 0 0 0 1 [] 0 0).wellFormed = false ∧
    (Instr.formArray 0 0 2 [0, 1] 65536).wellFormed = false ∧ (Instr.setServiceFrame 0 0 4 [0]).wellFormed = false ∧
    (Instr.headerReceived [0]).wellFormed = false := by decide
theorem test_wellFormed_long_runs :
    (Instr.ingestData 0 0 0 (List.replicate 16378 0)).wellFormed = false ∧
    (Instr.frameReceived (List.replicate 16385 0) 0).wellFormed = false := by decide +kernel

/-- Operations outside their unit, or whose data is not as long as they say. -/
theorem test_wellFormed_operations :
    (Instr.operationSubmit 0 { goodOp with len := 2 }).wellFormed = false ∧
    (Instr.operationSubmit 0 { goodOp with data := [] }).wellFormed = false := by decide

/-- Bursts whose data is not as long as they say, or whose errors lie outside them. -/
theorem test_wellFormed_bursts :
    (Instr.memoryBurst (some { goodBurst with len := 16 })).wellFormed = false ∧
    (Instr.memoryBurst (some { goodBurst with errors := [(1, true)] })).wellFormed = false := by decide

/-! ## Worked examples of the manual -/

/-- The rows of the table give no bits. -/
theorem test_no_word_spells : decodeTableWord 16 1 = none ∧ State.reset.withFetchWord 16 1 = State.reset := ⟨rfl, rfl⟩

/-- R10: the CRC of the nine ASCII bytes 123456789. -/
theorem test_crc_of_digits : crc32 [0x31, 0x32, 0x33, 0x34, 0x35, 0x36, 0x37, 0x38, 0x39] = 0xCBF43926 := by decide +kernel

/-- Chapter 1, the first bytes of a chunk: A is 96 and B is 176 after 80 and 16. -/
theorem test_sums_of_two_bytes :
    let t := (openStream.takeByte 80).takeByte 16
    t.sumA = 96 ∧ t.sumB = 176 ∧ t.curLen = 2 ∧ t.queue = [] := by decide +kernel

/-- Chapter 1, a boundary at 3,002 bytes. -/
def at3000 : Stream :=
  { openStream with k := some 12, sumA := 8000, sumB := 39994, window := [65, 24] ++ List.replicate 30 0, curLen := 3000, chunked := 3000 }
theorem test_boundary_at_3002 :
    (at3000.takeByte 122).sumA = 8057 ∧ (at3000.takeByte 122).sumB = 0xB393 ∧ (at3000.takeByte 122).queue = [] ∧
    ((at3000.takeByte 122).takeByte 11).queue.map (fun r => (r.len, fpLength r.fp)) = [(3002, 3002)] := by decide +kernel

/-- Section 2.9: bucket 15,437, its way 2 and overflow entry 812. -/
theorem test_handles_of_section_2_9 :
    normal.tables.bucketOf (fingerprint 0x1A2B3C4D 3002) = 15437 ∧
    normal.tables.bucketOfHandle 123498 (entry8 .stored 1) = 15437 ∧ normal.tables.isHandle 2147484460 = true := by decide +kernel

/-- Section 4.1 and 4.11: stripe 5 of a PARITY4 array, and the parity byte of 0x5A, 0x3C and 0xF0. -/
theorem test_stripe_5 :
    parityMember 4 5 = 2 ∧ (List.range 3).map (dataMember 4 5) = [3, 0, 1] ∧ stripeUnit 64 5 = 134 ∧
    Layout.parity4.chunkSpace = 192512 ∧ xorAll 1 [[0x5A], [0x3C], [0xF0]] = [0x96] ∧
    xorAll 1 [[0x5A], [0xF0], [0x96]] = [0x3C] := by decide +kernel

/-- Section 7.5: stripe 2,310. -/
theorem test_stripe_2310 :
    parityMember 4 2310 = 1 ∧ (List.range 3).map (dataMember 4 2310) = [2, 3, 0] ∧ stripeUnit 64 2310 = 2439 := by decide +kernel

/-- Chapter 9: the region map of a 1 GiB memory. -/
theorem test_pool_of_1_GiB :
    poolFor 1073741824 1048576 10000000 = some 40292136 ∧ fixedRegions = 15859648 ∧ indexRegion 1048576 = 335544832 ∧
    containerRegion 10000000 = 400000256 := by decide +kernel

/-- Chapter 5, the default frame at position 3: a VERIFY slot with no VERIFY operation starts r3 by fallback and counts. -/
def atSlot3 : State := chan2 (queuedOps 1) fun c => { c with position := 3 }
theorem test_fallback_counts_underrun :
    ((after (.dispatch 2) atSlot3).chan 2).position = 4 ∧
    ((after (.dispatch 2) atSlot3).chan 2).underruns = (Vector.replicate 5 0).set 2 1 ∧
    ((after (.dispatch 2) atSlot3).chan 2).current = some (anOp .read (.lone 1)) := by decide +kernel

/-- Section 11.10, step 1: the 32nd entry asserts HOLD. Step 4: a tag that is held is answered TAG_IN_USE. -/
theorem test_full_table_holds :
    (after (.frameReceived [2] (crc32 [2])) (crowded { statusHeader with tag := 256 } false)).lnk.hold = true := by decide +kernel
theorem test_tag_in_use :
    (after (.frameReceived [2] (crc32 [2])) (crowded statusHeader false)).lnk.replyQueue.map (fun r => r.status) = [.tagInUse] := by
  decide +kernel

/-! ## Witnesses

For each statement with hypotheses: small states and operands on which the hypotheses of its clauses hold, clause after clause. -/

theorem witness_StepRunsFrontCommand :
    (wQueue.pending = [Instr.timeTick]) := by
  decide +kernel

theorem witness_QueueDiscipline :
    (State.reset.pending = []) ∧
    (exec Instr.timeTick wQueue = Host.Outcome.next (after Instr.timeTick wQueue)) := by
  and_intros <;> first | decide +kernel | rfl

theorem witness_OnlyBurstsStop :
    (exec (Instr.memoryBurst (some (readBurst 1073741824 8))) up = Host.Outcome.fault Fault.noSuchAddress) ∧
    (up.mec.state = .ready ∧ up.mec.bursts = [] ∧ up.mec.size.getD 0 < (readBurst 1073741817 8).addr + (readBurst
      1073741817 8).len ∧ up.mec.entryAsked = false) ∧
    (up.mec.state = .ready ∧ up.mec.bursts = [] ∧ (readBurst 1073741824 0).addr + (readBurst 1073741824 0).len ≤
      up.mec.size.getD 0 ∧ up.mec.entryAsked = false ∧ (readBurst 1073741824 0).admitted up.mec.map = false) := by
  and_intros <;> first | decide +kernel | rfl

set_option maxRecDepth 4096 in
theorem witness_StepKeepsMemoryForm :
    (Memory.wf oneByte.mem = true ∧ step oneByte = Host.Outcome.next oneByteNext) := by
  and_intros <;> first | decide +kernel | rfl

theorem witness_MemoryBytesStay :
    (exec (Instr.setScrub 7 90) (granted smallGrant) = Host.Outcome.next (after (Instr.setScrub 7 90) (granted
      smallGrant)) ∧ (Instr.setScrub 7 90).mayWriteMemory = false) := by
  and_intros <;> first | decide +kernel | rfl

theorem witness_SettingsStand :
    exec .timeTick (granted smallGrant) = .next (after .timeTick (granted smallGrant)) ∧
    (.timeTick : Instr) ≠ .powerOnReset ∧ (.timeTick : Instr) ≠ .warmReset ∧ (.timeTick : Instr) ≠ .checkpointEnd ∧
    (∀ tag i j k m l g, (.timeTick : Instr) ≠ .setPowerPolicy tag i j k m l g) ∧
    (∀ tag ad b, (.timeTick : Instr) ≠ .setStation tag ad b) ∧ (∀ tag m, (.timeTick : Instr) ≠ .setLamps tag m) ∧
    (∀ tag p, (.timeTick : Instr) ≠ .setScrub tag p) ∧ (∀ tag k, (.timeTick : Instr) ≠ .setChunking tag k) ∧
    (∀ tag sel f cl, (.timeTick : Instr) ≠ .setServiceFrame tag sel f cl) ∧
    (∀ tag n e o l bs m iv, (.timeTick : Instr) ≠ .setWakePattern tag n e o l bs m iv) ∧
    (∀ bs, (.timeTick : Instr) ≠ .lanFrame bs) := by
  refine ⟨rfl, ?_⟩
  and_intros <;> simp

theorem witness_TablesStand :
    (exec (Instr.setScrub 7 90) (granted smallGrant) = Host.Outcome.next (after (Instr.setScrub 7 90) (granted
      smallGrant)) ∧ (Instr.setScrub 7 90).leavesTables = true) ∧
    (exec Instr.timeTick (granted smallGrant) = Host.Outcome.next (after Instr.timeTick (granted smallGrant)) ∧
      Instr.timeTick.mayChangeIndex = false ∧ Instr.timeTick ≠ Instr.warmReset) ∧
    (exec Instr.timeTick (granted smallGrant) = Host.Outcome.next (after Instr.timeTick (granted smallGrant)) ∧
      Instr.timeTick ≠ Instr.powerOnReset ∧ Instr.timeTick ≠ Instr.formDrivesReady ∧ Instr.timeTick ≠
      Instr.slotBodyRead) := by
  and_intros <;> first | decide +kernel | rfl

theorem witness_GrantsNeverWiden :
    (exec Instr.timeTick (granted smallGrant) = Host.Outcome.next (after Instr.timeTick (granted smallGrant)) ∧
      Instr.timeTick ≠ Instr.powerOnReset ∧ Instr.timeTick ≠ Instr.warmReset ∧ (∀ (tag : Nat) (al : Albums) (na :
      Time) (a : Option Nat) (l : Nat), Instr.timeTick ≠ Instr.putGrant tag 0 al na a l)) := by
  and_intros <;> first | decide +kernel | rfl | simp

theorem witness_TimeCounts :
    (exec Instr.graceExpire State.reset = Host.Outcome.next State.reset ∧ Instr.graceExpire ≠ Instr.timeTick ∧
      Instr.graceExpire ≠ Instr.powerOnReset ∧ (∀ (tag : Nat) (v : Time), Instr.graceExpire ≠ Instr.setTime tag v)) ∧
    (State.reset.ctm.state ≠ .failed ∧ State.reset.pwc.alarm = none ∧ (∀ (g : Nat), g < 64 → (State.reset.grant
      g).state ≠ .active)) ∧
    (State.reset.ctm.state ≠ .failed ∧ State.reset.pwc.time < 1) ∧
    (State.reset.ctm.state ≠ .failed) := by
  and_intros <;> first | decide +kernel | rfl | simp

theorem witness_ReceiverReadsHeaders :
    (State.reset.lnk.hostPowered = true ∧ State.reset.lnk.receiver = Receiver.hunting) ∧
    (held.lnk.hostPowered = true ∧ held.lnk.receiver = Receiver.hunting) ∧
    (skipping.lnk.receiver = Receiver.skipping ∧ skipping.lnk.header.isSome = true) ∧
    (normal.lnk.receiver = Receiver.hunting) ∧
    (inHeader.lnk.receiver ≠ Receiver.hunting) ∧
    (inHeader.lnk.receiver = Receiver.header ∧ 8 ≤ (inHeader.lnk.gathered ++ headerBytes 27 0 7 1).length ∧ headerOf
      (List.take 8 (inHeader.lnk.gathered ++ headerBytes 27 0 7 1)) = some statusHeader ∧ inHeader.pwc.box ≠ .waking) ∧
    ((wakingHeader none).lnk.receiver = Receiver.header ∧ 8 ≤ ((wakingHeader none).lnk.gathered ++ headerBytes 27 0 7
      1).length ∧ headerOf (List.take 8 ((wakingHeader none).lnk.gathered ++ headerBytes 27 0 7 1)) = some
      statusHeader ∧ (wakingHeader none).pwc.box = .waking ∧ (wakingHeader none).ctm.waiting = []) ∧
    ((wakingHeader (some ⟨none, .button true⟩)).lnk.receiver = Receiver.header ∧ 8 ≤ ((wakingHeader (some ⟨none,
      .button true⟩)).lnk.gathered ++ headerBytes 27 0 7 1).length ∧ headerOf (List.take 8 ((wakingHeader (some ⟨none,
      .button true⟩)).lnk.gathered ++ headerBytes 27 0 7 1)) = some statusHeader ∧ (wakingHeader (some ⟨none, .button
      true⟩)).pwc.box = .waking ∧ (wakingHeader (some ⟨none, .button true⟩)).ctm.waiting = []) ∧
    (inHeader.lnk.receiver = Receiver.header ∧ 8 ≤ (inHeader.lnk.gathered ++ List.replicate 8 0).length ∧ headerOf
      (List.take 8 (inHeader.lnk.gathered ++ List.replicate 8 0)) = none) ∧
    (inHeader.lnk.receiver = Receiver.header ∧ 8 ≤ (inHeader.lnk.gathered ++ [195, 60, 0, 0, 0, 0, 0, 0]).length ∧
      headerOf (List.take 8 (inHeader.lnk.gathered ++ [195, 60, 0, 0, 0, 0, 0, 0])) = none) := by
  decide +kernel

theorem witness_HeaderRoundTrip :
    (255 < 256 ∧ 0 < 256 ∧ 65535 < 65536 ∧ ([] : List Byte).length ≤ 16384) ∧
    (255 < 256 ∧ 65534 < 65536 ∧ [1, 2, 3].length ≤ 16384) := by
  decide +kernel

theorem witness_FrameTakesEntry :
    ((inPayload statusHeader).lnk.receiver = Receiver.payload ∧ (inPayload statusHeader).lnk.header = some
      statusHeader ∧ [2].length = statusHeader.length ∧ statusHeader.flags = 0 ∧ (statusHeader.length = 0 ∨ crc32 [2]
      = crc32 [2]) ∧ 1 ≤ statusHeader.kind ∧ statusHeader.kind ≤ 28 ∧ (∀ (e : Entry), e ∈ (inPayload
      statusHeader).lnk.entries → e.refusal = true ∨ e.tag ≠ statusHeader.tag) ∧ lengthGood statusHeader.kind
      statusHeader.length = true ∧ ((inPayload statusHeader).ctm.state ≠ .failed ∨ statusHeader.kind = 27 ∨
      statusHeader.kind = 6 ∨ statusHeader.kind = 23)) ∧
    ((crowded frameHeader true).lnk.receiver = Receiver.payload ∧ (crowded frameHeader true).lnk.header = some
      frameHeader ∧ (List.replicate 34 2).length = frameHeader.length ∧ frameHeader.flags = 0 ∧ (frameHeader.length =
      0 ∨ crc32 (List.replicate 34 2) = crc32 (List.replicate 34 2)) ∧ 1 ≤ frameHeader.kind ∧ frameHeader.kind ≤ 28 ∧
      (∀ (e : Entry), e ∈ (crowded frameHeader true).lnk.entries → e.refusal = true ∨ e.tag ≠ frameHeader.tag) ∧
      lengthGood frameHeader.kind frameHeader.length = true ∧ ((crowded frameHeader true).ctm.state ≠ .failed ∨
      frameHeader.kind = 27 ∨ frameHeader.kind = 6 ∨ frameHeader.kind = 23)) ∧
    ((inPayload statusHeader).lnk.receiver = Receiver.payload ∧ (inPayload statusHeader).lnk.header = some
      statusHeader ∧ [2].length = statusHeader.length ∧ Status.malformed = checks ((inPayload statusHeader))
      (statusHeader) ([2]) (crc32 [2] + 1) ∧ Status.malformed ≠ Status.ok) ∧
    ((inPayload zeroHeader).lnk.receiver = Receiver.payload ∧ (inPayload zeroHeader).lnk.header = some zeroHeader ∧
      ([] : List Byte).length = zeroHeader.length ∧ Status.unknownKind = checks ((inPayload zeroHeader)) (zeroHeader)
      ([]) (0) ∧ Status.unknownKind ≠ Status.ok) ∧
    ((crowded statusHeader false).lnk.receiver = Receiver.payload ∧ (crowded statusHeader false).lnk.header = some
      statusHeader ∧ [2].length = statusHeader.length ∧ Status.tagInUse = checks ((crowded statusHeader false))
      (statusHeader) ([2]) (crc32 [2]) ∧ Status.tagInUse ≠ Status.ok) ∧
    ((failedPayload checkpointHeader).lnk.receiver = Receiver.payload ∧ (failedPayload checkpointHeader).lnk.header =
      some checkpointHeader ∧ ([] : List Byte).length = checkpointHeader.length ∧ Status.arrayFailed = checks
      ((failedPayload checkpointHeader)) (checkpointHeader) ([]) (0) ∧ Status.arrayFailed ≠ Status.ok) ∧
    ((inPayload shortHeader).lnk.receiver = Receiver.payload ∧ (inPayload shortHeader).lnk.header = some shortHeader ∧
      [2].length = shortHeader.length ∧ Status.malformed = checks ((inPayload shortHeader)) (shortHeader) ([2]) (crc32
      [2]) ∧ Status.malformed ≠ Status.ok) := by
  decide +kernel

theorem witness_OutboundLane :
    (replyWaits.lnk.lane = none ∧ replyWaits.lnk.hostPowered = true ∧ replyWaits.pwc.box ≠ .waking ∧
      replyWaits.lnk.replyQueue = [aReply]) ∧
    (normal.lnk.lane = none ∧ normal.lnk.hostPowered = true ∧ normal.pwc.box ≠ .waking ∧ normal.lnk.replyQueue = [] ∧
      0 < 37 ∧ normal.lnk.notices[0]? = some (some startPowerOn) ∧ (∀ (m : Nat), m < 0 → normal.lnk.notices[m]? = some
      none)) ∧
    ((oneNotice (some 31) normal).lnk.lane = none ∧ (oneNotice (some 31) normal).lnk.hostPowered = true ∧ (oneNotice
      (some 31) normal).pwc.box ≠ .waking ∧ (oneNotice (some 31) normal).lnk.replyQueue = [] ∧ 31 < 37 ∧ (oneNotice
      (some 31) normal).lnk.notices[31]? = some (some []) ∧ (∀ (m : Nat), m < 31 → (oneNotice (some 31)
      normal).lnk.notices[m]? = some none)) ∧
    ((oneNotice (some 36) normal).lnk.lane = none ∧ (oneNotice (some 36) normal).lnk.hostPowered = true ∧ (oneNotice
      (some 36) normal).pwc.box ≠ .waking ∧ (oneNotice (some 36) normal).lnk.replyQueue = [] ∧ 36 < 37 ∧ (oneNotice
      (some 36) normal).lnk.notices[36]? = some (some []) ∧ (∀ (m : Nat), m < 36 → (oneNotice (some 36)
      normal).lnk.notices[m]? = some none)) ∧
    ((reading 15 (some (Offered.mk 0 4 (some [1, 2, 3, 4])))).lnk.lane = none ∧ (reading 15 (some (Offered.mk 0 4
      (some [1, 2, 3, 4])))).lnk.hostPowered = true ∧ (reading 15 (some (Offered.mk 0 4 (some [1, 2, 3, 4])))).pwc.box
      ≠ .waking ∧ (reading 15 (some (Offered.mk 0 4 (some [1, 2, 3, 4])))).lnk.replyQueue = [] ∧ (∀ (n : Nat), n < 37
      → (reading 15 (some (Offered.mk 0 4 (some [1, 2, 3, 4])))).lnk.notices[n]? = some none) ∧ 15 < 16 ∧ ((reading 15
      (some (Offered.mk 0 4 (some [1, 2, 3, 4])))).reader 15).offered = some
      { offset := 0, length := [1, 2, 3, 4].length, bytes := some [1, 2, 3, 4] } ∧ (∀ (k : Nat), k < (15 + 15 -
      (reading 15 (some (Offered.mk 0 4 (some [1, 2, 3, 4])))).lnk.roundRobin) % 16 → (((reading 15 (some (Offered.mk
      0 4 (some [1, 2, 3, 4])))).reader (((reading 15 (some (Offered.mk 0 4 (some [1, 2, 3, 4])))).lnk.roundRobin + 1
      + k) % 16)).offered.bind fun o => o.bytes) = none) ∧ (reading 15 (some (Offered.mk 0 4 (some [1, 2, 3,
      4])))).lnk.roundRobin < 16) ∧
    ((reading 0 (some (Offered.mk 0 4 (some [1, 2, 3, 4])))).lnk.lane = none ∧ (reading 0 (some (Offered.mk 0 4 (some
      [1, 2, 3, 4])))).lnk.hostPowered = true ∧ (reading 0 (some (Offered.mk 0 4 (some [1, 2, 3, 4])))).pwc.box ≠
      .waking ∧ (reading 0 (some (Offered.mk 0 4 (some [1, 2, 3, 4])))).lnk.replyQueue = [] ∧ (∀ (n : Nat), n < 37 →
      (reading 0 (some (Offered.mk 0 4 (some [1, 2, 3, 4])))).lnk.notices[n]? = some none) ∧ 0 < 16 ∧ ((reading 0
      (some (Offered.mk 0 4 (some [1, 2, 3, 4])))).reader 0).offered = some
      { offset := 0, length := [1, 2, 3, 4].length, bytes := some [1, 2, 3, 4] } ∧ (∀ (k : Nat), k < (0 + 15 -
      (reading 0 (some (Offered.mk 0 4 (some [1, 2, 3, 4])))).lnk.roundRobin) % 16 → (((reading 0 (some (Offered.mk 0
      4 (some [1, 2, 3, 4])))).reader (((reading 0 (some (Offered.mk 0 4 (some [1, 2, 3, 4])))).lnk.roundRobin + 1 +
      k) % 16)).offered.bind fun o => o.bytes) = none) ∧ (reading 0 (some (Offered.mk 0 4 (some [1, 2, 3,
      4])))).lnk.roundRobin < 16) ∧
    ((laneSends normal (OutMsg.reply aReply)).lnk.lane = some (OutMsg.reply aReply)) ∧
    ((laneSends normal (OutMsg.notice 36 [])).lnk.lane = some (OutMsg.notice 36 [])) ∧
    ((laneSends (reading 15 none) (OutMsg.data 15 0 [1, 2, 3, 4])).lnk.lane = some (OutMsg.data 15 0 [1, 2, 3, 4]) ∧
      15 < 16 ∧ ((laneSends (reading 15 none) (OutMsg.data 15 0 [1, 2, 3, 4])).reader 15).state = ReadState.running ∧
      ((laneSends (reading 15 none) (OutMsg.data 15 0 [1, 2, 3, 4])).reader 15).flights = [aFlight] ∧ ((laneSends
      (reading 15 none) (OutMsg.data 15 0 [1, 2, 3, 4])).reader 15).grant = some 0 ∧ 0 + [1, 2, 3, 4].length <
      aFlight.upto) ∧
    (15 < 16 ∧ ((reading 15 (some (Offered.mk 4 4 none))).reader 15).offered = some (Offered.mk 4 4 none) ∧
      (Offered.mk 4 4 none).bytes = none ∧ ((reading 15 (some (Offered.mk 4 4 none))).reader 15).flights = [aFlight]) := by
  and_intros <;> first | decide +kernel | rfl

theorem witness_GetStatusAnswers :
    (10 ≤ 10) ∧
    (10 < 11) := by
  decide +kernel

theorem witness_IngestOpens :
    (2 ≤ 2 ∧ sevenOpen.running = true ∧ 7 < 8 ∧ (sevenOpen.stream 7).state = .free ∧ (∀ (j : Nat), j < 7 →
      (sevenOpen.stream j).state ≠ .free) ∧ sevenOpen.freeId = some 1) ∧
    (0 ≤ 2 ∧ normal.running = true ∧ 0 < 8 ∧ (normal.stream 0).state = .free ∧ (∀ (j : Nat), j < 0 → (normal.stream
      j).state ≠ .free) ∧ normal.freeId = some 1) ∧
    (mirrored.ctm.state ≠ .failed) ∧
    (normal.ctm.state ≠ .failed) := by
  decide +kernel

theorem witness_IngestDataFillsRing :
    (7 < 8 ∧ (ingesting 7 (filled 262141)).running = true ∧ ((ingesting 7 (filled 262141)).stream 7).state = .opened ∧
      ((ingesting 7 (filled 262141)).stream 7).received + [1, 2, 3].length ≤ byteLimit (((ingesting 7 (filled
      262141)).stream 7).k.getD 13) ∧ [1, 2, 3].length ≤ ((ingesting 7 (filled 262141)).stream 7).freeSpace) ∧
    (0 < 8 ∧ (ingesting 0 openStream).running = true ∧ ((ingesting 0 openStream).stream 0).state = .opened ∧
      ((ingesting 0 openStream).stream 0).received + ([] : List Byte).length ≤ byteLimit (((ingesting 0
      openStream).stream 0).k.getD 13) ∧ ([] : List Byte).length ≤ ((ingesting 0 openStream).stream 0).freeSpace) ∧
    (7 < 8 ∧ (ingesting 7 (filled 262142)).running = true ∧ ((ingesting 7 (filled 262142)).stream 7).state = .opened ∧
      ((ingesting 7 (filled 262142)).stream 7).received + [1, 2, 3].length ≤ byteLimit (((ingesting 7 (filled
      262142)).stream 7).k.getD 13) ∧ ((ingesting 7 (filled 262142)).stream 7).freeSpace < [1, 2, 3].length) := by
  decide +kernel

theorem witness_StreamsEnd :
    (7 < 8 ∧ (ingesting 7 openStream).ctm.state ≠ .failed ∧ ((ingesting 7 openStream).stream 7).state = .opened) ∧
    (7 < 8 ∧ (ingesting 7 (doneStream .opened)).ctm.state ≠ .failed ∧ (((ingesting 7 (doneStream .opened)).stream
      7).state = .opened ∨ ((ingesting 7 (doneStream .opened)).stream 7).state = .draining ∨ ((ingesting 7 (doneStream
      .opened)).stream 7).state = .faulted) ∧ ((ingesting 7 (doneStream .opened)).stream 7).queue = [] ∧ ((ingesting 7
      (doneStream .opened)).stream 7).queued = false ∧ (ingesting 7 (doneStream .opened)).waitingReads
      (ReadWho.isVerifyOf 7) = [] ∧ ((ingesting 7 (doneStream .opened)).stream 7).object = some 1 ∧ ((ingesting 7
      (doneStream .opened)).stream 7).gone = false ∧ (ingesting 7 (doneStream .opened)).obj 1 = some (openObj 7) ∧
      (openObj 7).state = .opened) ∧
    (0 < 8 ∧ (ingesting 0 (doneStream .faulted)).ctm.state ≠ .failed ∧ (((ingesting 0 (doneStream .faulted)).stream
      0).state = .opened ∨ ((ingesting 0 (doneStream .faulted)).stream 0).state = .draining ∨ ((ingesting 0
      (doneStream .faulted)).stream 0).state = .faulted) ∧ ((ingesting 0 (doneStream .faulted)).stream 0).queue = [] ∧
      ((ingesting 0 (doneStream .faulted)).stream 0).queued = false ∧ (ingesting 0 (doneStream .faulted)).waitingReads
      (ReadWho.isVerifyOf 0) = [] ∧ ((ingesting 0 (doneStream .faulted)).stream 0).object = some 1 ∧ ((ingesting 0
      (doneStream .faulted)).stream 0).gone = false ∧ (ingesting 0 (doneStream .faulted)).obj 1 = some (openObj 0) ∧
      (openObj 0).state = .opened) ∧
    (7 < 8 ∧ ((ingesting 7 draining).stream 7).readyToSeal = true ∧ ((ingesting 7 draining).stream 7).recipe = []) ∧
    (7 < 8 ∧ ((ingesting 7 holdsByte).stream 7).wordHeld 0 = true ∧ ((ingesting 7 holdsByte).stream 7).state =
      .opened) ∧
    (((ingesting 7 holdsByte).stream 7).wordHeld 8 = false) := by
  decide +kernel

theorem chunkInHand_fresh : ChunkInHand (ingesting 7 (filled 5000)) 7 10 := by
  constructor <;> decide +kernel
theorem chunkInHand_middle (st : StreamState) : ChunkInHand (midChunk st) 7 13 := by
  cases st <;> constructor <;> decide +kernel
theorem witness_ChunkerBounds :
    (ChunkInHand (ingesting 7 (filled 5000)) 7 10 ∧ ((ingesting 7 (filled 5000)).stream 7).active = true ∧
      ((ingesting 7 (filled 5000)).stream 7).chunked ≤ ((ingesting 7 (filled 5000)).stream 7).received) ∧
    (ChunkInHand (midChunk .opened) 7 13 ∧ ((midChunk .opened).stream 7).active = true ∧
      ((midChunk .opened).stream 7).chunked ≤ ((midChunk .opened).stream 7).received) ∧
    (ChunkInHand (midChunk .draining) 7 13 ∧ ((midChunk .draining).stream 7).active = true ∧
      ((midChunk .draining).stream 7).chunked ≤ ((midChunk .draining).stream 7).received) :=
  ⟨⟨chunkInHand_fresh, by decide +kernel⟩, ⟨chunkInHand_middle _, by decide +kernel⟩,
    ⟨chunkInHand_middle _, by decide +kernel⟩⟩

/-- A lookup of stream 7 that would hit, with `n` holds of the stream listed. -/
def holdsListed (n : Nat) : State :=
  let s := indexed lookingUp (entry8 .stored 65535) (cont2 .sealed)
  { s with tables := s.tables.setHolds (List.replicate n { stream := 7, handle := 3 }) }

theorem witness_LookupsAndVerifies :
    (((ingesting 7 (queued (rec8 Stage.waitingLookup Work.idle))).stream 7).mayLookUp = true ∧ ((ingesting 7 (queued
      (rec8 Stage.waitingLookup Work.idle))).stream 7).nextToLookUp = some (rec8 Stage.waitingLookup Work.idle) ∧
      (ingesting 7 (queued (rec8 Stage.waitingLookup Work.idle))).stalledAt (Requester.ingest 7) Cls.verify = none) ∧
    (7 < 8 ∧ (List.find? (fun r => decide (r.work = Work.lookupSent) && decide (r.fp = fp8)) (lookingUp.stream
      7).queue = some (rec8 Stage.waitingLookup Work.lookupSent)) ∧ ((lookingUp.tables.header
      (lookingUp.tables.bucketOf fp8)).lost = true ∨ List.find? (lookingUp.tables.candidate fp8)
      (lookingUp.tables.searchOrder (lookingUp.tables.bucketOf fp8)) = none)) ∧
    (7 < 8 ∧ (List.find? (fun r => decide (r.work = Work.lookupSent) && decide (r.fp = fp8)) ((holdsListed 3).stream 7).queue = some (rec8 Stage.waitingLookup Work.lookupSent)) ∧
      ((holdsListed 3).tables.header ((holdsListed 3).tables.bucketOf fp8)).lost = false ∧ List.find? ((holdsListed 3).tables.candidate fp8) ((holdsListed 3).tables.searchOrder ((holdsListed 3).tables.bucketOf fp8)) =
      some 3 ∧ (holdsListed 3).tables.entry 3 = some (entry8 .stored 65535)
      ∧ (entry8 .stored 65535).state = .stored ∧ ((holdsListed 3).tables.holds.filter fun x => x.stream = 7).length < 4) ∧
    (((holdsListed 4).tables.header ((holdsListed 4).tables.bucketOf fp8)).lost = false ∧
      List.find? ((holdsListed 4).tables.candidate fp8) ((holdsListed 4).tables.searchOrder ((holdsListed 4).tables.bucketOf fp8)) =
      some 3 ∧ 4 ≤ ((holdsListed 4).tables.holds.filter fun x => x.stream = 7).length) ∧
    (7 < 8 ∧ (((verifying (ReadAnswer.bytes (List.replicate 8 0))).reportFor fun w => decide (w = ReadWho.chunk
      (ReadBy.verify 7 0))) = some (verifyReport (ReadAnswer.bytes (List.replicate 8 0)))) ∧ ((verifying
      (ReadAnswer.bytes (List.replicate 8 0))).stream 7).record 0 = some recVerify ∧ recVerify.work = Work.reading ∧
      ((verifying (ReadAnswer.bytes (List.replicate 8 0))).stream 7).state ≠ .aborting ∧ (verifying (ReadAnswer.bytes
      (List.replicate 8 0))).mec.bufferQueue = [] ∧ (verifyReport (ReadAnswer.bytes (List.replicate 8 0))).answer =
      ReadAnswer.bytes (List.replicate 8 0) ∧ List.replicate 8 0 = (verifying (ReadAnswer.bytes (List.replicate 8
      0))).ringBytes 7 recVerify.start recVerify.len) ∧
    (7 < 8 ∧ (((verifying (ReadAnswer.bytes (List.replicate 8 1))).reportFor fun w => decide (w = ReadWho.chunk
      (ReadBy.verify 7 0))) = some (verifyReport (ReadAnswer.bytes (List.replicate 8 1)))) ∧ ((verifying
      (ReadAnswer.bytes (List.replicate 8 1))).stream 7).record 0 = some recVerify ∧ recVerify.work = Work.reading ∧
      ((verifying (ReadAnswer.bytes (List.replicate 8 1))).stream 7).state ≠ .aborting ∧ (verifying (ReadAnswer.bytes
      (List.replicate 8 1))).mec.bufferQueue = [] ∧ (verifyReport (ReadAnswer.bytes (List.replicate 8 1))).answer =
      ReadAnswer.bytes (List.replicate 8 1) ∧ List.replicate 8 1 ≠ (verifying (ReadAnswer.bytes (List.replicate 8
      1))).ringBytes 7 recVerify.start recVerify.len) ∧
    (7 < 8 ∧ (((verifying (ReadAnswer.dataLost none)).reportFor fun w => decide (w = ReadWho.chunk (ReadBy.verify 7
      0))) = some (verifyReport (ReadAnswer.dataLost none))) ∧ ((verifying (ReadAnswer.dataLost none)).stream
      7).record 0 = some recVerify ∧ recVerify.work = Work.reading ∧ ((verifying (ReadAnswer.dataLost none)).stream
      7).state ≠ .aborting ∧ (verifying (ReadAnswer.dataLost none)).mec.bufferQueue = [] ∧ (verifyReport
      (ReadAnswer.dataLost none)).answer = ReadAnswer.dataLost none) := by
  decide +kernel

theorem witness_InsertsCreateEntries :
    (7 < 8 ∧ ((placed Stage.waitingLookup).stream 7).inserting fp8 2 0 false = some (rec8 Stage.waitingLookup
      (Work.insert 2 0 0), 0) ∧ (placed Stage.waitingLookup).tables.chooseEntry fp8 = some 0) ∧
    (7 < 8 ∧ ((placed Stage.verifying).stream 7).inserting fp8 2 0 true = some (rec8 Stage.verifying (Work.insert 2 0
      0), 0) ∧ (placed Stage.verifying).tables.chooseEntry fp8 = some 0) := by
  and_intros <;> decide +kernel

theorem witness_ChunksAreCopiedAndLeave :
    (7 < 8 ∧ ((copyingInto .opened).stream 7).record 0 = some (rec8 Stage.waitingLookup (Work.copy 3 2 0 0)) ∧ (rec8
      Stage.waitingLookup (Work.copy 3 2 0 0)).work = Work.copy 3 2 0 0 ∧ ((copyingInto .opened).stream 7).state ≠
      .aborting ∧ (copyingInto .opened).bufferOf 2 = some 3 ∧ (copyingInto .opened).buffer 3 = some
      { container := 2, places := [Place.empty] } ∧ 3 < 4 ∧ (copyingInto .opened).cont 2 = some (cont2 .opened) ∧
      (cont2 .opened).state = .opened) ∧
    (7 < 8 ∧ ((copyingInto .sealing).stream 7).record 0 = some (rec8 Stage.waitingLookup (Work.copy 3 2 0 0)) ∧ (rec8
      Stage.waitingLookup (Work.copy 3 2 0 0)).work = Work.copy 3 2 0 0 ∧ ((copyingInto .sealing).stream 7).state ≠
      .aborting ∧ (copyingInto .sealing).bufferOf 2 = some 3 ∧ (copyingInto .sealing).buffer 3 = some
      { container := 2, places := [Place.empty] } ∧ 3 < 4 ∧ (copyingInto .sealing).cont 2 = some (cont2 .sealing) ∧
      (cont2 .sealing).state = .sealing ∧ (copyingInto .sealing).arr = some smallArray ∧ 0 + (rec8 Stage.waitingLookup
      (Work.copy 3 2 0 0)).len ≤ smallArray.layout.chunkSpace) ∧
    (7 < 8 ∧ ((ingesting 7 (queued recDone)).stream 7).active = true ∧ ((ingesting 7 (queued recDone)).stream 7).queue
      = [recDone] ∧ recDone.stage = Stage.resolved ∧ recDone.work = Work.idle ∧ recDone.result = some 3 ∧ ((ingesting
      7 (queued recDone)).stream 7).recipe.length < 4095 ∧ ((ingesting 7 (queued recDone)).stream 7).writingOut =
      false ∧ ((ingesting 7 (queued recDone)).stream 7).object = some 1 ∧ (ingesting 7 (queued recDone)).obj 1 = some
      (openObj 7)) := by
  decide +kernel

theorem witness_ReferenceCounts :
    ((held8 2).tables.lostPart 3 = false ∧ (held8 2).tables.entry 3 = some (entry8 .stored 2) ∧ 2 ≤ (entry8 .stored
      2).refcount ∧ (entry8 .stored 2).refcount ≠ 65535) ∧
    (shared12.tables.lostPart 3 = false ∧ shared12.tables.entry 3 = some (entry8 .stored 1) ∧ (entry8 .stored
      1).refcount = 1 ∧ shared12.cont (entry8 .stored 1).container = some cont12 ∧ cont12.live - fpLength (entry8
      .stored 1).fp ≠ 0 ∧ cont12.kind = ContKind.data) ∧
    ((held8 65535).tables.lostPart 3 = false ∧ (held8 65535).tables.entry 3 = some (entry8 .stored 65535) ∧ (entry8
      .stored 65535).refcount = 65535) ∧
    ((held8 0).tables.lostPart 3 = false ∧ (held8 0).tables.entry 3 = some (entry8 .stored 0) ∧ (entry8 .stored
      0).refcount = 0) ∧
    (lost0.tables.lostPart 0 = true) ∧
    ((held8 1).tables.lostPart 524287 = false ∧ (held8 1).tables.entry 524287 = none) ∧
    ((held8 1).tables.lostPart 3 = false ∧ (held8 1).tables.entry 3 = some (entry8 .stored 1) ∧ (entry8 .stored
      1).refcount = 1 ∧ (held8 1).cont (entry8 .stored 1).container = some (cont2 .sealed) ∧ (cont2 .sealed).state =
      .sealed ∧ (cont2 .sealed).kind = ContKind.data ∧ (cont2 .sealed).live = fpLength (entry8 .stored 1).fp ∧ (cont2
      .sealed).reads = 0 ∧ (held8 1).isSource (entry8 .stored 1).container = false ∧ (held8 1).beingReplayed (entry8
      .stored 1).container = false ∧ (held8 1).ctm.noFree = false) := by
  decide +kernel

theorem witness_HoldsConfirmOrDrop :
    (7 < 8 ∧ { stream := 7, handle := 3 } ∈ confirming.tables.holds ∧ (List.find? (fun r => decide (r.work =
      Work.confirm) && decide (r.result = some 3)) (confirming.stream 7).queue = some recConfirm)) ∧
    (7 < 8 ∧ { stream := 7, handle := 3 } ∈ dropping.tables.holds ∧ dropping.tables.lostPart 3 = false ∧
      dropping.tables.entry 3 = some (entry8 .stored 2) ∧ 2 ≤ (entry8 .stored 2).refcount ∧ (entry8 .stored
      2).refcount ≠ 65535 ∧ (List.find? (fun r => decide (r.work = Work.drop HoldReason.difference) && decide (r.cand
      = some 3)) (dropping.stream 7).queue = some recDrop) ∧ (dropping.stream 7).active = true) ∧
    ((¬{ stream := 7, handle := 3 } ∈ (ingesting 7 openStream).tables.holds)) ∧
    ((¬{ stream := 7, handle := 3 } ∈ (ingesting 7 openStream).tables.holds) ∧ ((ingesting 7 openStream).stream
      7).queue = [] ∧ ((ingesting 7 openStream).stream 7).state = .opened) := by
  decide +kernel

theorem witness_RaisesAndReplayCreates :
    ((held8 65534).tables.lostPart 3 = false ∧ (held8 65534).tables.entry 3 = some (entry8 .stored 65534) ∧ (entry8
      .stored 65534).refcount < 65535) ∧
    ((held8 65535).tables.lostPart 3 = false ∧ (held8 65535).tables.entry 3 = some (entry8 .stored 65535) ∧ (entry8
      .stored 65535).refcount = 65535) ∧
    (lost0.tables.lostPart 7 = true) ∧
    ((held8 1).tables.lostPart 2147549183 = false ∧ (held8 1).tables.entry 2147549183 = none) ∧
    ((held8 1).tables.isHandle 2147549183 = true ∧ (held8 1).tables.lostPart 2147549183 = false ∧ (held8
      1).tables.entry 2147549183 = none) ∧
    ((held8 1).tables.isHandle 0 = true ∧ (held8 1).tables.lostPart 0 = false ∧ (held8 1).tables.entry 0 = none) ∧
    ((held8 1).tables.isHandle 3 = true ∧ (held8 1).tables.lostPart 3 = false ∧ (held8 1).tables.entry 3 = some
      (entry8 .stored 1)) ∧
    (lost0.tables.isHandle 7 = true ∧ lost0.tables.lostPart 7 = true) ∧
    ((held8 1).tables.isHandle noHandle = false) := by
  decide +kernel

theorem witness_EntryStates :
    ((held8 0).tables.lostPart 3 = false ∧ (held8 0).tables.entry 3 = some (entry8 .stored 0) ∧ (entry8 .stored
      0).refcount = 0) ∧
    ((held8 1).tables.lostPart 3 = false ∧ (held8 1).tables.entry 3 = some (entry8 .stored 1) ∧ (entry8 .stored
      1).refcount ≠ 0) ∧
    ((inState .pending).tables.lostPart 3 = false ∧ (inState .pending).tables.entry 3 = some (entry8 .pending 1) ∧
      (entry8 .pending 1).fp = fp8 ∧ (entry8 .pending 1).container = 2 ∧ (entry8 .pending 1).offset = 0 ∧ (entry8
      .pending 1).state = .pending) ∧
    ((inState .damaged).tables.lostPart 3 = false ∧ (inState .damaged).tables.entry 3 = some (entry8 .damaged 1) ∧
      (entry8 .damaged 1).fp = fp8 ∧ (entry8 .damaged 1).container = 2 ∧ (entry8 .damaged 1).offset = 0 ∧ (entry8
      .damaged 1).state = .damaged) ∧
    ((inState .pending).tables.lostPart 3 = false ∧ (inState .pending).tables.entry 3 = some (entry8 .pending 1) ∧
      ((entry8 .pending 1).fp ≠ fp8 ∨ (entry8 .pending 1).container ≠ 2 ∨ (entry8 .pending 1).offset ≠ 1)) ∧
    ((inState .pending).tables.lostPart 3 = false ∧ (inState .pending).tables.entry 3 = some (entry8 .pending 1) ∧
      (entry8 .pending 1).fp = fp8) ∧
    ((inState .pending).tables.lostPart 3 = false ∧ (inState .pending).tables.entry 3 = some (entry8 .pending 1) ∧
      (entry8 .pending 1).fp ≠ 0) := by
  decide +kernel

theorem witness_LocationsMove :
    ((held8 1).tables.lostPart 3 = false ∧ (held8 1).tables.entry 3 = some (entry8 .stored 1) ∧ (entry8 .stored 1).fp
      = fp8 ∧ (entry8 .stored 1).container = 2) ∧
    ((held8 1).tables.lostPart 3 = false ∧ (held8 1).tables.entry 3 = some (entry8 .stored 1) ∧ ((entry8 .stored 1).fp
      ≠ fp8 ∨ (entry8 .stored 1).container ≠ 4)) ∧
    (moving.tables.lostPart 3 = false ∧ moving.tables.entry 3 = some entryMoving ∧ entryMoving.fp = fp8 ∧
      entryMoving.container = 2 ∧ entryMoving.move = some 9 ∧ 2 ≠ 9 ∧ moving.cont 2 = some cont12 ∧ cont12.kind =
      ContKind.data ∧ cont12.live - fpLength fp8 ≠ 0 ∧ moving.cont 9 = some cont9) ∧
    ((held8 1).tables.lostPart 3 = false ∧ (held8 1).tables.entry 3 = some (entry8 .stored 1) ∧ ((entry8 .stored 1).fp
      ≠ fp8 ∨ (entry8 .stored 1).container ≠ 2 ∨ (entry8 .stored 1).move ≠ some 9)) ∧
    (moving.tables.lostPart 3 = false ∧ moving.tables.entry 3 = some entryMoving ∧ entryMoving.fp = fp8) ∧
    (shared12.tables.lostPart 3 = false ∧ shared12.tables.entry 3 = some (entry8 .stored 1) ∧ (entry8 .stored 1).fp =
      fp8) := by
  decide +kernel

theorem witness_LocationAnswers :
    (lost0.inUse = true ∧ lost0.tables.lostPart 7 = true) ∧
    ((inState .damaged).inUse = true ∧ (inState .damaged).tables.lostPart 3 = false ∧ (inState .damaged).tables.entry 3 = some (entry8 .damaged 1) ∧
      (entry8 .damaged 1).state = .damaged) ∧
    ((inState .pending).inUse = true ∧ (inState .pending).tables.lostPart 3 = false ∧ (inState .pending).tables.entry 3
      = some (entry8 .pending 1) ∧ (entry8 .pending 1).state ≠ .damaged) ∧
    ((inState .pending).inUse = true ∧ (inState .pending).tables.lostPart 524288 = false ∧ ((inState
      .pending).tables.isHandle 524288 = false ∨ getKey (inState .pending).tables.entries 524288 = none)) ∧
    ((inState .pending).inUse = true ∧ (inState .pending).tables.lostPart 0 = false ∧ ((inState .pending).tables.isHandle 0 = false ∨ getKey (inState
      .pending).tables.entries 0 = none)) := by
  decide +kernel

theorem witness_SumsAndLostBuckets :
    ((¬(2, true) ∈ (held8 1).ctm.recovering)) ∧
    (65535 < (held8 1).tables.buckets ∧ ((held8 1).tables.header 65535).lost = false) ∧
    ({ held8 1 with inUse := false }.inUse = false) := by
  decide +kernel

theorem witness_ObjectRequests :
    ((holding 65535 sealedObj).inUse = true ∧ (holding 65535 sealedObj).obj 65535 = some sealedObj) ∧
    ((holding 65535 sealedObj).inUse = true ∧ (List.find? (fun e => decide (65535 ≤ e.fst)) (holding 65535
      sealedObj).tables.objects = some (65535, sealedObj))) ∧
    ((holding 65535 sealedObj).inUse = true ∧ (List.find? (fun e => decide (0 ≤ e.fst)) (holding 65535
      sealedObj).tables.objects = some (65535, sealedObj))) ∧
    ((up.inUse = false ∨ 1 = 0 ∧ up.obj 1 = none)) ∧
    (((holding 65535 sealedObj).inUse = false ∨ 0 = 0 ∧ (holding 65535 sealedObj).obj 1 = none)) ∧
    ((ingesting 7 openStream).running = true ∧ (ingesting 7 openStream).obj 1 = some (openObj 7) ∧ (openObj 7).state =
      .opened ∧ (ingesting 7 openStream).sealPlaced 1 = false) ∧
    ((holding 1 sealedObj).running = true ∧ (holding 1 sealedObj).obj 1 = some sealedObj ∧ sealedObj.state = .sealed) := by
  decide +kernel

theorem witness_ReleasesRun :
    ((holding 1 sealedObj).running = true ∧ (holding 1 sealedObj).obj 1 = some sealedObj ∧ sealedObj.state = .sealed ∧
      getKey (holding 1 sealedObj).oru.marks 1 = none ∧ (holding 1 sealedObj).readersOf 1 = 0 ∧ (¬1 ∈ (holding 1
      sealedObj).oru.queue)) ∧
    ((readBy 1 sealedObj).running = true ∧ (readBy 1 sealedObj).obj 1 = some sealedObj ∧ sealedObj.state = .sealed ∧
      getKey (readBy 1 sealedObj).oru.marks 1 = none ∧ (readBy 1 sealedObj).readersOf 1 ≠ 0) ∧
    ((readBy 1 pendingObj).obj 1 = some pendingObj ∧ pendingObj.state = .releasePending ∧ (readBy 1
      pendingObj).readersOf 1 = 1 ∧ (¬1 ∈ (readBy 1 pendingObj).oru.queue)) ∧
    ((walkingWith WalkPhase.segments (some [3, 3])).mayWalk = true ∧ (walkingWith WalkPhase.segments (some [3,
      3])).ckr.attach = none ∧ (walkingWith WalkPhase.segments (some [3, 3])).oru.queue = [1] ∧ (walkingWith
      WalkPhase.segments (some [3, 3])).obj 1 = some (walkedObj WalkPhase.segments) ∧ (walkedObj
      WalkPhase.segments).walk = some (walkAt WalkPhase.segments) ∧ (walkAt WalkPhase.segments).phase =
      WalkPhase.segments ∧ (walkAt WalkPhase.segments).ordinal < (walkedObj WalkPhase.segments).map.length ∧
      (walkingWith WalkPhase.segments (some [3, 3])).oru.handles = some [3, 3] ∧ [3, 3][(walkAt
      WalkPhase.segments).index]? = some 3 ∧ (walkAt WalkPhase.segments).index + 1 < [3, 3].length) ∧
    (1 ∈ (walkingWith WalkPhase.ended none).oru.recordCopied ∧ (walkingWith WalkPhase.ended none).obj 1 = some
      (walkedObj WalkPhase.ended) ∧ (walkedObj WalkPhase.ended).walk = some (walkAt WalkPhase.ended) ∧ getKey
      (walkingWith WalkPhase.ended none).oru.marks 1 = some 7 ∧ (∀ (i : Nat), i < 8 → ((walkingWith WalkPhase.ended
      none).stream i).state ≠ .aborting) ∧ (walkingWith WalkPhase.ended none).ctm.state ≠ .failed) ∧
    ((abortWalked true).mayWalk = true ∧ (abortWalked true).ckr.attach = none ∧ (abortWalked true).oru.queue = [1] ∧
      (abortWalked true).obj 1 = some (abortedObj true) ∧ (abortedObj true).walk = some (walkAt WalkPhase.tail) ∧
      (walkAt WalkPhase.tail).phase = WalkPhase.tail ∧ (abortedObj true).tail.getD [] = [] ∧
      (abortedObj true).recorded = true ∧ (¬1 ∈ (abortWalked true).oru.recordAsked)) ∧
    ((abortWalked false).mayWalk = true ∧ (abortWalked false).ckr.attach = none ∧ (abortWalked false).oru.queue = [1] ∧
      (abortWalked false).obj 1 = some (abortedObj false) ∧ (abortedObj false).walk = some (walkAt WalkPhase.tail) ∧
      (abortedObj false).tail.getD [] = [] ∧ (abortedObj false).recorded = false ∧ (abortedObj false).map = [] ∧ 7 < 8 ∧
      ((abortWalked false).stream 7).state = .aborting ∧ ((abortWalked false).stream 7).object = some 1 ∧
      ((abortWalked false).stream 7).gone = false ∧ ((abortWalked false).stream 7).queued = true ∧
      ((abortWalked false).stream 7).abortTag = some 9 ∧
      (∀ (j : Nat), j < 8 → j ≠ 7 → ((abortWalked false).stream j).object ≠ some 1) ∧
      getKey (abortWalked false).oru.marks 1 = none) ∧
    (walkingFailed.ctm.state = .failed) := by
  and_intros <;> decide +kernel

theorem witness_RecordReadsAndObjectErrors :
    ((walkWants SegRead.wanted).oru.walkRead = SegRead.wanted ∧ (walkWants SegRead.wanted).walkTarget = some 1 ∧
      (walkWants SegRead.wanted).obj 1 = some (walkedObj WalkPhase.segments) ∧ (walkedObj WalkPhase.segments).walk =
      some (walkAt WalkPhase.segments) ∧ (walkedObj WalkPhase.segments).state = .releasing ∧ (walkWants
      SegRead.wanted).ctm.state ≠ .failed ∧ (walkedObj WalkPhase.segments).map[(walkAt WalkPhase.segments).ordinal]? =
      some { container := 2, offset := 0 }) ∧
    (15 < 16 ∧ ((streamWants SegRead.wanted).reader 15).segRead = SegRead.wanted ∧ ((streamWants
      SegRead.wanted).reader 15).object = some 1 ∧ (0 = (Option.map (fun g => g.ordinal + 1) ((streamWants
      SegRead.wanted).reader 15).seg).getD 0) ∧ (streamWants SegRead.wanted).obj 1 = some sealedObj ∧ sealedObj.state
      ≠ .lost ∧ (streamWants SegRead.wanted).ctm.state ≠ .failed ∧ sealedObj.map[0]? = some
      { container := 2, offset := 0 }) ∧
    ((List.find? (fun j => decide (j.who = ReadWho.seg SegAsker.walk)) (List.map (fun e => e.snd) segRead.ctm.reads) =
      some segJob) ∧ segJob.buffered = some segBytes ∧ segJob.phase = ReadPhase.reading ∧ segJob.out = 0 ∧
      segJob.parts = [] ∧ segJob.check = ReadCheck.segment 1 0 ∧ RecipeRec.parse segBytes = some (RecipeRec.segment 1
      0 [3]) ∧ segRead.ctm.state ≠ .failed ∧ (∀ (rep : ReadReport), rep ∈ segRead.ctm.reports → rep.who ≠ ReadWho.seg
      SegAsker.walk) ∧ segRead.mec.bufferQueue = [] ∧ segRead.walkTarget = some 1 ∧ segRead.obj 1 = some (walkedObj
      WalkPhase.segments) ∧ (walkedObj WalkPhase.segments).walk = some (walkAt WalkPhase.segments) ∧ (walkAt
      WalkPhase.segments).phase = WalkPhase.segments ∧ (walkAt WalkPhase.segments).ordinal = 0) ∧
    (15 < 16 ∧ (List.find? (fun j => decide (j.who = ReadWho.seg (SegAsker.stream 15))) (List.map (fun e => e.snd)
      streamRead.ctm.reads) = some streamJob) ∧ streamJob.buffered = some segBytes ∧ streamJob.phase =
      ReadPhase.reading ∧ streamJob.out = 0 ∧ streamJob.parts = [] ∧ streamJob.check = ReadCheck.segment 1 0 ∧
      RecipeRec.parse segBytes = some (RecipeRec.segment 1 0 [3]) ∧ streamRead.ctm.state ≠ .failed ∧ (∀ (rep :
      ReadReport), rep ∈ streamRead.ctm.reports → rep.who ≠ ReadWho.seg (SegAsker.stream 15)) ∧
      streamRead.mec.bufferQueue = [] ∧ (streamRead.reader 15).state = ReadState.seeking) ∧
    ((holding 65535 sealedObj).inUse = true ∧ (holding 65535 sealedObj).obj 65535 = some sealedObj ∧ sealedObj.state =
      .sealed) ∧
    ((holding 65535 sealedObj).obj 1 = none) := by
  decide +kernel

theorem witness_PlacementsTakeRoom :
    (7 < 8 ∧ 3 < 4 ∧ (opened (ingesting 7 (queued recPlace)) (openCont ContKind.data 126968 254)).ctm.state.attached =
      true ∧ ((opened (ingesting 7 (queued recPlace)) (openCont ContKind.data 126968 254)).stream 7).record 0 = some
      recPlace ∧ recPlace.work = Work.place ∧ (opened (ingesting 7 (queued recPlace)) (openCont ContKind.data 126968
      254)).waitsFor ContKind.data = false ∧ (opened (ingesting 7 (queued recPlace)) (openCont ContKind.data 126968
      254)).openOf ContKind.data = some 2 ∧ (opened (ingesting 7 (queued recPlace)) (openCont ContKind.data 126968
      254)).cont 2 = some (openCont ContKind.data 126968 254) ∧ (openCont ContKind.data 126968 254).fill +
      recPlace.len ≤ (opened (ingesting 7 (queued recPlace)) (openCont ContKind.data 126968 254)).layout.chunkSpace ∧
      (openCont ContKind.data 126968 254).entries < 255 ∧ (opened (ingesting 7 (queued recPlace)) (openCont
      ContKind.data 126968 254)).bufferOf 2 = some 3 ∧ (opened (ingesting 7 (queued recPlace)) (openCont ContKind.data
      126968 254)).buffer 3 = some emptyBuf) ∧
    (3 < 4 ∧ (recordAsked false).ctm.state.attached = true ∧ (recordAsked false).pwc.box = .run ∧ (recordAsked
      false).streamSealAsked = false ∧ (if false = true then (recordAsked false).ctm.waiting = [Waiter.record
      (RecordReq.release 1)] else (recordAsked false).ctm.waiting = [] ∧ (recordAsked false).ctm.recordReqs =
      [RecordReq.release 1]) ∧ (recordAsked false).openOf ContKind.recipe = some 2 ∧ (recordAsked false).cont 2 = some
      (openCont ContKind.recipe 126968 254) ∧ (openCont ContKind.recipe 126968 254).fill + 8 ≤ (recordAsked
      false).layout.chunkSpace ∧ (openCont ContKind.recipe 126968 254).entries < 255 ∧ (recordAsked false).bufferOf 2
      = some 3 ∧ (recordAsked false).buffer 3 = some emptyBuf) ∧
    (3 < 4 ∧ (recordAsked true).ctm.state.attached = true ∧ (recordAsked true).pwc.box = .run ∧ (recordAsked
      true).streamSealAsked = false ∧ (if true = true then (recordAsked true).ctm.waiting = [Waiter.record
      (RecordReq.release 1)] else (recordAsked true).ctm.waiting = [] ∧ (recordAsked true).ctm.recordReqs =
      [RecordReq.release 1]) ∧ (recordAsked true).openOf ContKind.recipe = some 2 ∧ (recordAsked true).cont 2 = some
      (openCont ContKind.recipe 126968 254) ∧ (openCont ContKind.recipe 126968 254).fill + 8 ≤ (recordAsked
      true).layout.chunkSpace ∧ (openCont ContKind.recipe 126968 254).entries < 255 ∧ (recordAsked true).bufferOf 2 =
      some 3 ∧ (recordAsked true).buffer 3 = some emptyBuf) := by
  decide +kernel

theorem witness_SealsAndStripeWrites :
    (zeroing.ctm.zeroing = some (10, 1) ∧ zeroing.ctm.waiting = [] ∧ (zeroing.returned isZeroJob).length = 1 ∧ (∀ (r :
      Returned), r ∈ zeroing.returned isZeroJob → r.result = .ok []) ∧ zeroing.tables.array = some smallArray) ∧
    (sealAsked.ctm.sealReqs = [SealBy.sleepEntry] ∧ sealAsked.ctm.state.attached = true ∧ sealAsked.openOf
      ContKind.data = some 2 ∧ sealAsked.cont 2 = some (openCont ContKind.data 8 1) ∧ (openCont ContKind.data 8
      1).fill ≠ 0 ∧ sealAsked.bufferOf 2 = some 3 ∧ sealAsked.buffer 3 = some emptyBuf ∧ sealAsked.arr = some
      smallArray ∧ sealAsked.openOf ContKind.recipe = none) ∧
    ((List.find? (fun r => Returned.isUnitWrite 2 2 r) (writing [2]).returns = some (backFrom 2 (Job.stripeWrite 2)
      (.ok []))) ∧ (backFrom 2 (Job.stripeWrite 2) (.ok [])).result = .ok []) ∧
    ((writing []).nextWrite = some (aWrite []) ∧ (aWrite []).out = [] ∧ (writing []).ctm.state ≠ .failed ∧ 3 < 4 ∧
      (writing []).bufferOf (aWrite []).container = some 3 ∧ (writing []).copyPending (aWrite []).container = false ∧
      (writing []).buffer 3 = some { container := (aWrite []).container, places := [Place.chunk false 3 fp8 0] } ∧
      (writing []).tables.lostPart 3 = false ∧ (writing []).tables.entry 3 = some (entry8 .pending 1) ∧ (entry8
      .pending 1).fp = fp8 ∧ (entry8 .pending 1).container = (aWrite []).container ∧ (entry8 .pending 1).offset = 0 ∧
      (entry8 .pending 1).state = .pending ∧ (writing []).cont (aWrite []).container = some (cont2 .sealing) ∧ (cont2
      .sealing).state = .sealing ∧ (cont2 .sealing).kind = ContKind.data ∧ (cont2 .sealing).live ≠ 0 ∧ (writing
      []).ctm.sealJobs = []) ∧
    ((writingAfter [segPlace] 1).nextWrite = some (aWrite []) ∧ (aWrite []).out = [] ∧ (writingAfter [segPlace] 1).ctm.state ≠ .failed ∧ 3 < 4 ∧
      (writingAfter [segPlace] 1).bufferOf (aWrite []).container = some 3 ∧ (writingAfter [segPlace] 1).copyPending (aWrite []).container = false ∧
      (writingAfter [segPlace] 1).buffer 3 = some {
        container := (aWrite []).container,
        places := [segPlace] ++ Place.record (RecipeRec.closing 1 8 1 2 3 (5#32) 1) 24 :: [] } ∧
      (∀ (p : Place), p ∈ [segPlace] ++ [] → p.recordNotSeal = true) ∧
      (writingAfter [segPlace] 1).cont (aWrite []).container = some { recipeCont with segRefs := 1 } ∧ recipeCont.state = .sealing ∧
      recipeCont.kind = ContKind.recipe ∧ 7 < 8 ∧ ((writingAfter [segPlace] 1).stream 7).state = .sealing ∧
      ((writingAfter [segPlace] 1).stream 7).sealAt = some { container := (aWrite []).container, offset := 24 } ∧
      (∀ (j : Nat), j < 8 → j ≠ 7 →
        ((writingAfter [segPlace] 1).stream j).sealAt ≠ some { container := (aWrite []).container, offset := 24 }) ∧
      ((writingAfter [segPlace] 1).stream 7).object = some 1 ∧ ((writingAfter [segPlace] 1).stream 7).closeTag = some 9 ∧ (writingAfter [segPlace] 1).obj 1 = some (openObj 7) ∧
      (openObj 7).state = .opened) ∧
    ((writingAfter [] 0).nextWrite = some (aWrite []) ∧ (aWrite []).out = [] ∧ (writingAfter [] 0).ctm.state ≠ .failed ∧ 3 < 4 ∧
      (writingAfter [] 0).bufferOf (aWrite []).container = some 3 ∧ (writingAfter [] 0).copyPending (aWrite []).container = false ∧
      (writingAfter [] 0).buffer 3 = some {
        container := (aWrite []).container,
        places := [] ++ Place.record (RecipeRec.closing 1 8 1 2 3 (5#32) 1) 24 :: [] } ∧
      (∀ (p : Place), p ∈ [] ++ [] → p.recordNotSeal = true) ∧
      (writingAfter [] 0).cont (aWrite []).container = some { recipeCont with segRefs := 0 } ∧ recipeCont.state = .sealing ∧
      recipeCont.kind = ContKind.recipe ∧ 7 < 8 ∧ ((writingAfter [] 0).stream 7).state = .sealing ∧
      ((writingAfter [] 0).stream 7).sealAt = some { container := (aWrite []).container, offset := 24 } ∧
      (∀ (j : Nat), j < 8 → j ≠ 7 →
        ((writingAfter [] 0).stream j).sealAt ≠ some { container := (aWrite []).container, offset := 24 }) ∧
      ((writingAfter [] 0).stream 7).object = some 1 ∧ ((writingAfter [] 0).stream 7).closeTag = some 9 ∧ (writingAfter [] 0).obj 1 = some (openObj 7) ∧
      (openObj 7).state = .opened) ∧
    (recipeCont.reads = 0 ∧ (writingAfter [] 0).isSource 2 = false ∧ (writingAfter [] 0).beingReplayed 2 = false ∧
      (writingAfter [] 0).ctm.noFree = false) := by
  and_intros <;> decide +kernel

/-- R86: a recipe container with the SEAL record alone goes FREE when its write completes, and its object is SEALED (R54). -/
theorem test_lone_seal_goes_free :
    (match exec .stripeWriteComplete (writingAfter [] 0) with
      | .next t => (t.cont 2).isNone && decide (t.tables.quarantine = (writingAfter [] 0).tables.quarantine ++ [2]) &&
          (t.obj 1).any fun r => r.state = .sealed
      | _ => false) = true := by
  decide +kernel

/-- R62, R51: an OPEN object whose one SEGMENT record has been copied with the pool full has a RELEASE record placed when an
attach releases it. -/
theorem test_unmapped_segment_is_released :
    ((poolFull.segmentCopied 7 2 0).obj 1).map (fun r => (r.map, r.adjusted.state, r.adjusted.recorded)) =
      some ([], .releasing, true) ∧ ((poolFull.segmentCopied 7 2 0).stream 7).cause = some .indexFull := by
  decide +kernel

/-- R62, R21: the walk of an aborted object no SEGMENT record of which has been copied ends with the slot free and ABORT_INGEST
answered. -/
theorem test_unrecorded_walk_frees :
    (match exec .walkStep (abortWalked false) with
      | .next t => (t.obj 1).isNone && decide ((t.stream 7) = Stream.freeRecord) &&
          decide (t.lnk.replyQueue.map (fun r => r.tag) = [9])
      | _ => false) = true := by
  decide +kernel

theorem witness_ContainerMemoryErrors :
    (3 < 4 ∧ (buffered (held8 1) [Place.chunk false 3 fp8 0]).buffer 3 = some
      { container := 2, places := [Place.chunk false 3 fp8 0] } ∧ 7 / 8 * 8 < (buffered (held8 1) [Place.chunk false 3
      fp8 0]).layout.chunkSpace ∧ 0 < 7 / 8 * 8 + 8 ∧ 7 / 8 * 8 < 0 + fpLength fp8 ∧ (buffered (held8 1) [Place.chunk
      false 3 fp8 0]).tables.lostPart 3 = false ∧ (buffered (held8 1) [Place.chunk false 3 fp8 0]).tables.entry 3 =
      some (entry8 .stored 1) ∧ (entry8 .stored 1).fp = fp8) ∧
    ((held8 1).inUse = true ∧ (held8 1).tables.array = some smallArray ∧ (∀ (c : Nat), c < smallArray.containers →
      (held8 1).recordBad c = false)) := by
  decide +kernel

theorem witness_ChunkReads :
    (aReq ∈ (asking (held8 1)).ctm.chunkReqs ∧ (asking (held8 1)).ctm.state ≠ .failed ∧ (asking (held8
      1)).tables.locate aReq.handle = IdxAnswer.found .stored fp8 2 0 ∧ (asking (held8 1)).cont 2 = some (cont2
      .sealed) ∧ (asking (held8 1)).keptBuffer aReq.who = none) ∧
    (aReq ∈ (asking (buffered (indexed normal (entry8 .pending 1) (cont2 .sealing)) [])).ctm.chunkReqs ∧ (asking
      (buffered (indexed normal (entry8 .pending 1) (cont2 .sealing)) [])).ctm.state ≠ .failed ∧ (asking (buffered
      (indexed normal (entry8 .pending 1) (cont2 .sealing)) [])).tables.locate aReq.handle = IdxAnswer.found .pending
      fp8 2 0 ∧ (asking (buffered (indexed normal (entry8 .pending 1) (cont2 .sealing)) [])).cont 2 = some (cont2
      .sealing) ∧ (asking (buffered (indexed normal (entry8 .pending 1) (cont2 .sealing)) [])).keptBuffer aReq.who =
      none) ∧
    (aReq ∈ (asking (inState .damaged)).ctm.chunkReqs ∧ (asking (inState .damaged)).ctm.state ≠ .failed ∧ (asking
      (inState .damaged)).tables.locate aReq.handle = IdxAnswer.dataLost (some fp8)) ∧
    (chunkHad.readJob 5 = some chunkJob ∧ chunkJob.id = 5 ∧ chunkJob.who = ReadWho.chunk (ReadBy.stream 0 0) ∧
      chunkJob.phase = ReadPhase.reading ∧ chunkJob.buffered = some (List.replicate 8 0) ∧ chunkJob.out = 0 ∧
      chunkJob.parts = [] ∧ chunkJob.check = ReadCheck.chunk fpZero ∧ matchesFp fpZero (List.replicate 8 0) = true ∧
      chunkHad.ctm.state ≠ .failed ∧ chunkHad.mec.bufferQueue = [] ∧ (∀ (rep : ReadReport), rep ∈ chunkHad.ctm.reports
      → rep.who.recovers = none)) ∧
    ((arrayHad directJob [readBackOf 1 (.ok zeros8)]).unitsReturned 5 directJob (ReadBy.stream 0 0) fpZero
      ReadPhase.reading ∧ gathered (partsBack directJob ((arrayHad directJob [readBackOf 1 (.ok zeros8)]).returned
      (readJobIs 5))) = some zeros8 ∧ (∀ (p : Part), p ∈ partsBack directJob ((arrayHad directJob [readBackOf 1 (.ok
      zeros8)]).returned (readJobIs 5)) → p.failed = false ∧ p.byError = false) ∧ (List.map (fun p => p.degraded)
      (partsBack directJob ((arrayHad directJob [readBackOf 1 (.ok zeros8)]).returned (readJobIs 5))) = List.map (fun
      p => p.degraded) directJob.parts) ∧ matchesFp fpZero zeros8 = true ∧ (arrayHad directJob [readBackOf 1 (.ok
      zeros8)]).cont directJob.container = some readCont ∧ readCont.live ≠ 0 ∧ readCont.kind = ContKind.data) ∧
    ((arrayHad degradedJob [readBackOf 0 (.ok ones8), readBackOf 2 (.ok ones8)]).unitsReturned 5 degradedJob
      (ReadBy.stream 0 0) fpZero ReadPhase.reading ∧ gathered (partsBack degradedJob ((arrayHad degradedJob
      [readBackOf 0 (.ok ones8), readBackOf 2 (.ok ones8)]).returned (readJobIs 5))) = some zeros8 ∧ (∀ (p : Part), p
      ∈ partsBack degradedJob ((arrayHad degradedJob [readBackOf 0 (.ok ones8), readBackOf 2 (.ok ones8)]).returned
      (readJobIs 5)) → p.failed = false ∧ p.byError = false) ∧ (List.map (fun p => p.degraded) (partsBack degradedJob
      ((arrayHad degradedJob [readBackOf 0 (.ok ones8), readBackOf 2 (.ok ones8)]).returned (readJobIs 5))) = List.map
      (fun p => p.degraded) degradedJob.parts) ∧ matchesFp fpZero zeros8 = true ∧ (arrayHad degradedJob [readBackOf 0
      (.ok ones8), readBackOf 2 (.ok ones8)]).cont degradedJob.container = some readCont ∧ readCont.live ≠ 0 ∧
      readCont.kind = ContKind.data) ∧
    ((arrayHad directJob [readBackOf 1 .error]).unitsReturned 5 directJob (ReadBy.stream 0 0) fpZero ReadPhase.reading
      ∧ [erredPart] = partsBack directJob ((arrayHad directJob [readBackOf 1 .error]).returned (readJobIs 5)) ∧ (∀ (q
      : Part), q ∈ [erredPart] → q.failed = false) ∧ directJob.parts[0]? = some (partAt false false none) ∧ (partAt
      false false none).degraded = false ∧ (Option.map (fun q => q.degraded) [erredPart][0]? = some true) ∧ (∀ (q :
      Part), q ∈ [erredPart].eraseIdx 0 → q.degraded = false) ∧ (arrayHad directJob [readBackOf 1
      .error]).othersAvailable directJob.container (partAt false false none).unit = true) ∧
    ((arrayHad degradedJob [readBackOf 0 (.ok ones8), readBackOf 2 .error]).unitsReturned 5 degradedJob (ReadBy.stream
      0 0) fpZero ReadPhase.reading ∧ (∃ p, p ∈ partsBack degradedJob ((arrayHad degradedJob [readBackOf 0 (.ok
      ones8), readBackOf 2 .error]).returned (readJobIs 5)) ∧ p.failed = true) ∧ degradedJob.handle = some 3 ∧
      (arrayHad degradedJob [readBackOf 0 (.ok ones8), readBackOf 2 .error]).tables.lostPart 3 = false ∧ (arrayHad
      degradedJob [readBackOf 0 (.ok ones8), readBackOf 2 .error]).tables.entry 3 = some entryZero ∧ entryZero.fp =
      fpZero) ∧
    ((arrayHad directJob [readBackOf 1 (.ok ones8)]).unitsReturned 5 directJob (ReadBy.stream 0 0) fpZero
      ReadPhase.reading ∧ [partAt false false (some ones8)] = partsBack directJob ((arrayHad directJob [readBackOf 1
      (.ok ones8)]).returned (readJobIs 5)) ∧ gathered [partAt false false (some ones8)] = some ones8 ∧ [partAt false
      false (some ones8)] = [partAt false false (some ones8)] ∧ (∀ (q : Part), q ∈ [partAt false false (some ones8)] →
      q.failed = false ∧ q.degraded = false) ∧ matchesFp fpZero ones8 = false ∧ (arrayHad directJob [readBackOf 1 (.ok
      ones8)]).othersAvailable directJob.container (partAt false false (some ones8)).unit = true) ∧
    ((arrayHad degradedJob [readBackOf 0 (.ok ones8), readBackOf 2 (.ok zeros8)]).unitsReturned 5 degradedJob
      (ReadBy.stream 0 0) fpZero ReadPhase.reading ∧ [partAt true false (some ones8)] = partsBack degradedJob
      ((arrayHad degradedJob [readBackOf 0 (.ok ones8), readBackOf 2 (.ok zeros8)]).returned (readJobIs 5)) ∧ gathered
      [partAt true false (some ones8)] = some ones8 ∧ (∀ (q : Part), q ∈ [partAt true false (some ones8)] → q.failed =
      false) ∧ (List.map (fun p => p.degraded) [partAt true false (some ones8)] = List.map (fun p => p.degraded)
      degradedJob.parts) ∧ (∃ q, q ∈ [partAt true false (some ones8)] ∧ q.degraded = true) ∧ matchesFp fpZero ones8 =
      false ∧ degradedJob.handle = some 3 ∧ (arrayHad degradedJob [readBackOf 0 (.ok ones8), readBackOf 2 (.ok
      zeros8)]).tables.lostPart 3 = false ∧ (arrayHad degradedJob [readBackOf 0 (.ok ones8), readBackOf 2 (.ok
      zeros8)]).tables.entry 3 = some entryZero ∧ entryZero.fp = fpZero) ∧
    ((arrayHad reconJob [readBackOf 0 (.ok ones8), readBackOf 2 (.ok ones8)]).unitsReturned 5 reconJob (ReadBy.stream
      0 0) fpZero (ReadPhase.recon 0) ∧ reconJob.parts[0]? = some (partAt false false (some ones8)) ∧ partResult
      ((arrayHad reconJob [readBackOf 0 (.ok ones8), readBackOf 2 (.ok ones8)]).returned (readJobIs 5)) 0 (partAt
      false false (some ones8)).len true = some zeros8 ∧ gathered (reconJob.parts.set 0
      { unit := (partAt false false (some ones8)).unit, start := (partAt false false (some ones8)).start, len := (partAt false false (some ones8)).len, degraded := (partAt false false (some ones8)).degraded, byError := (partAt false false (some ones8)).byError, got := some zeros8, failed := (partAt false false (some ones8)).failed })
      = some zeros8 ∧ matchesFp fpZero zeros8 = true) ∧
    ((arrayHad reconJob [readBackOf 0 (.ok ones8), readBackOf 2 (.ok zeros8)]).unitsReturned 5 reconJob (ReadBy.stream
      0 0) fpZero (ReadPhase.recon 0) ∧ reconJob.parts[0]? = some (partAt false false (some ones8)) ∧
      reconJob.parts.length = 0 + 1 ∧ partResult ((arrayHad reconJob [readBackOf 0 (.ok ones8), readBackOf 2 (.ok
      zeros8)]).returned (readJobIs 5)) 0 (partAt false false (some ones8)).len true = some ones8 ∧ gathered
      (reconJob.parts.set 0
      { unit := (partAt false false (some ones8)).unit, start := (partAt false false (some ones8)).start, len := (partAt false false (some ones8)).len, degraded := (partAt false false (some ones8)).degraded, byError := (partAt false false (some ones8)).byError, got := some ones8, failed := (partAt false false (some ones8)).failed })
      = some ones8 ∧ matchesFp fpZero ones8 = false ∧ reconJob.handle = some 3 ∧ (arrayHad reconJob [readBackOf 0 (.ok
      ones8), readBackOf 2 (.ok zeros8)]).tables.lostPart 3 = false ∧ (arrayHad reconJob [readBackOf 0 (.ok ones8),
      readBackOf 2 (.ok zeros8)]).tables.entry 3 = some entryZero ∧ entryZero.fp = fpZero) := by
  and_intros <;> decide +kernel

theorem witness_RelocationRuns :
    ((held8 1).running = true ∧ 2 < (held8 1).containerCount ∧ (held8 1).cont 2 = some (cont2 .sealed) ∧ (cont2
      .sealed).state = .sealed ∧ (cont2 .sealed).kind = ContKind.data ∧ (cont2 .sealed).live < (held8
      1).layout.chunkSpace ∧ (held8 1).ctm.reloc = none) ∧
    ((relocating RelocStage.scan).ctm.reloc = some (relocAt RelocStage.scan) ∧ (relocAt RelocStage.scan).stage =
      RelocStage.scan ∧ (relocating RelocStage.scan).oru.paused = false ∧ (relocAt RelocStage.scan).entries[(relocAt
      RelocStage.scan).cursor]? = some { kind := 0, handle := 3, fp := 0, offset := 8 } ∧ (relocating
      RelocStage.scan).relocCandidate (relocAt RelocStage.scan) { kind := 0, handle := 3, fp := 0, offset := 8 } =
      false) ∧
    ((relocating8 RelocStage.scan []).ctm.reloc = some (walkAt8 RelocStage.scan) ∧ (walkAt8 RelocStage.scan).stage =
      RelocStage.scan ∧ (relocating8 RelocStage.scan []).oru.paused = false ∧ (walkAt8
      RelocStage.scan).entries[(walkAt8 RelocStage.scan).cursor]? = some goodEntry ∧ goodEntry.offset + fpLength
      goodEntry.fp ≤ (relocating8 RelocStage.scan []).layout.chunkSpace ∧ (relocating8 RelocStage.scan
      []).tables.isHandle goodEntry.handle = true ∧ (relocating8 RelocStage.scan []).tables.lostPart goodEntry.handle
      = false ∧ (relocating8 RelocStage.scan []).tables.entry goodEntry.handle = some (entry8 .stored 1) ∧ ((entry8
      .stored 1).state = .damaged ∨ (entry8 .stored 1).container = (walkAt8 RelocStage.scan).source ∧ (entry8 .stored
      1).offset = goodEntry.offset) ∧ (relocating8 RelocStage.scan []).cont (walkAt8 RelocStage.scan).source = some
      (cont2 .draining)) ∧
    ((relocating8 RelocStage.chunk [relocReport (ReadAnswer.bytes zeros8)]).ctm.reloc = some (walkAt8
      RelocStage.chunk) ∧ (walkAt8 RelocStage.chunk).stage = RelocStage.chunk ∧ (((relocating8 RelocStage.chunk
      [relocReport (ReadAnswer.bytes zeros8)]).reportFor fun w => decide (w = ReadWho.relocChunk)) = some (relocReport
      (ReadAnswer.bytes zeros8))) ∧ ((relocReport (ReadAnswer.bytes zeros8)).answer = ReadAnswer.bytes zeros8 ∨
      (relocReport (ReadAnswer.bytes zeros8)).answer = ReadAnswer.dataLost (some zeros8))) ∧
    ((relocating8 RelocStage.chunk [relocReport (ReadAnswer.dataLost (some zeros8))]).ctm.reloc = some (walkAt8
      RelocStage.chunk) ∧ (walkAt8 RelocStage.chunk).stage = RelocStage.chunk ∧ (((relocating8 RelocStage.chunk
      [relocReport (ReadAnswer.dataLost (some zeros8))]).reportFor fun w => decide (w = ReadWho.relocChunk)) = some
      (relocReport (ReadAnswer.dataLost (some zeros8)))) ∧ ((relocReport (ReadAnswer.dataLost (some zeros8))).answer =
      ReadAnswer.bytes zeros8 ∨ (relocReport (ReadAnswer.dataLost (some zeros8))).answer = ReadAnswer.dataLost (some
      zeros8))) ∧
    ((relocating8 RelocStage.chunk [relocReport (ReadAnswer.dataLost none)]).ctm.reloc = some (walkAt8
      RelocStage.chunk) ∧ (walkAt8 RelocStage.chunk).stage = RelocStage.chunk ∧ (((relocating8 RelocStage.chunk
      [relocReport (ReadAnswer.dataLost none)]).reportFor fun w => decide (w = ReadWho.relocChunk)) = some
      (relocReport (ReadAnswer.dataLost none))) ∧ (relocReport (ReadAnswer.dataLost none)).answer =
      ReadAnswer.dataLost none) ∧
    ((relocating8 (RelocStage.place zeros8) []).ctm.reloc = some (walkAt8 (RelocStage.place zeros8)) ∧ (walkAt8
      (RelocStage.place zeros8)).stage = RelocStage.place zeros8 ∧ (relocating8 (RelocStage.place zeros8)
      []).ctm.state.attached = true ∧ (relocating8 (RelocStage.place zeros8) []).waitsFor ContKind.data = false ∧
      (relocating8 (RelocStage.place zeros8) []).openOf ContKind.data = some 9 ∧ (relocating8 (RelocStage.place
      zeros8) []).cont 9 = some (openCont ContKind.data 126968 254) ∧ (openCont ContKind.data 126968 254).fill +
      zeros8.length ≤ (relocating8 (RelocStage.place zeros8) []).layout.chunkSpace ∧ (openCont ContKind.data 126968
      254).entries < 255 ∧ (relocating8 (RelocStage.place zeros8) []).bufferOf 9 = some 3 ∧ 3 < 4 ∧ (relocating8
      (RelocStage.place zeros8) []).buffer 3 = some { container := 9, places := [Place.empty] }) ∧
    ((relocating8 (RelocStage.copy ones8 9 126968 0) []).cont 9 = some (openCont ContKind.data 126968 254) ∧ (openCont
      ContKind.data 126968 254).state = .opened ∧ (relocating8 (RelocStage.copy ones8 9 126968 0) []).ctm.reloc = some
      (walkAt8 (RelocStage.copy ones8 9 126968 0)) ∧ (walkAt8 (RelocStage.copy ones8 9 126968 0)).stage =
      RelocStage.copy ones8 9 126968 0 ∧ (walkAt8 (RelocStage.copy ones8 9 126968 0)).buffer = some 5 ∧ (walkAt8
      (RelocStage.copy ones8 9 126968 0)).entries[(walkAt8 (RelocStage.copy ones8 9 126968 0)).cursor]? = some
      goodEntry ∧ (relocating8 (RelocStage.copy ones8 9 126968 0) []).bufferOf 9 = some 3 ∧ 3 < 4 ∧ (relocating8
      (RelocStage.copy ones8 9 126968 0) []).buffer 3 = some { container := 9, places := [Place.empty] } ∧
      (relocating8 (RelocStage.copy ones8 9 126968 0) []).tables.lostPart goodEntry.handle = false ∧ (relocating8
      (RelocStage.copy ones8 9 126968 0) []).tables.entry goodEntry.handle = some (entry8 .stored 1) ∧ (entry8 .stored
      1).fp = goodEntry.fp ∧ (entry8 .stored 1).container = (walkAt8 (RelocStage.copy ones8 9 126968 0)).source ∧
      (relocating8 (RelocStage.copy ones8 9 126968 0) []).mec.bufferQueue = []) ∧
    ((relocating RelocStage.ending).ctm.reloc = some (relocAt RelocStage.ending) ∧ (relocAt RelocStage.ending).stage =
      RelocStage.ending ∧ (relocAt RelocStage.ending).destinations = [] ∧ (¬SealBy.relocation ∈ (relocating
      RelocStage.ending).ctm.sealReqs) ∧ (relocating RelocStage.ending).cont (relocAt RelocStage.ending).source = some
      (cont2 .sealed) ∧ (cont2 .sealed).live ≠ 0) := by
  and_intros <;> decide +kernel

theorem witness_ParityRelation :
    ((List.replicate 131072 1).length = Layout.parity3.dataUnits * unitSize ∧ 2 < Layout.parity3.members) := by
  decide +kernel

theorem witness_DriveFormatsRoundTrip :
    (65535 < 65536 ∧ 1 ≤ [4294967295].length ∧ [4294967295].length ≤ 4096 ∧ (∀ (h : Nat), h ∈ [4294967295] → h <
      4294967296)) ∧
    (65535 < 65536 ∧ 281474976710655 < 281474976710656 ∧ 4294967295 < 4294967296 ∧ 255 < 256) ∧
    (65535 < 65536) ∧
    ((aLabel 1).number < 4294967296 ∧ (aLabel 1).position < (aLabel 1).layout.members ∧ 1 ≤ (aLabel 1).containers ∧
      (aLabel 1).containers ≤ 67108864 ∧ (aLabel 1).reserved = reservedFor (aLabel 1).memory ∧ memorySizes.contains
      (aLabel 1).memory = true ∧ bucketCountGood (aLabel 1).buckets = true ∧ (∀ (q : Nat), (aLabel 1).adoption = some
      q → q < 281474976710656)) ∧
    (aHeader.number < 4294967296 ∧ aHeader.seq < 281474976710656 ∧ aHeader.q < 281474976710656 ∧ aHeader.buckets <
      4294967296 ∧ aHeader.containers < 4294967296 ∧ aHeader.pool < 4294967296 ∧ aHeader.fence < 4294967296 ∧
      aHeader.cursor < 4294967296 ∧ aHeader.pass < 4294967296 ∧ aHeader.freeHead < 4294967296 ∧ aHeader.freeLength <
      4294967296 ∧ aHeader.quarantineHead < 4294967296 ∧ aHeader.quarantineLength < 4294967296 ∧ aHeader.bodyLength <
      281474976710656) := by
  decide +kernel

theorem witness_OperationsQueue :
    (2 < 4 ∧ (queuedOps 15).ctm.state ≠ .failed ∧ (queuedOps 15).opValid (anOp Cls.read (Job.lone 0)) = true ∧
      (queuedOps 15).member 2 = .active ∧ ((queuedOps 15).chan 2).waitingFor (madeOp (anOp Cls.read (Job.lone 0))).cls
      = [] ∧ (queuedOps 15).stalledAt (anOp Cls.read (Job.lone 0)).requester (madeOp (anOp Cls.read (Job.lone 0))).cls
      = none) ∧
    (2 < 4 ∧ (queuedOps 16).ctm.state ≠ .failed ∧ (queuedOps 16).opValid (anOp Cls.read (Job.lone 0)) = true ∧
      (queuedOps 16).member 2 = .active ∧ ((queuedOps 16).chan 2).waitingFor (madeOp (anOp Cls.read (Job.lone 0))).cls
      = [] ∧ (queuedOps 16).stalledAt (anOp Cls.read (Job.lone 0)).requester (madeOp (anOp Cls.read (Job.lone 0))).cls
      = none) ∧
    (2 < 4 ∧ ((queuedOps 16).chan 2).mayDispatch = true ∧ ((queuedOps 16).chan 2).queue ((queuedOps 16).chan
      2).slotClass = anOp Cls.read (Job.lone 1) :: List.replicate 15 (anOp Cls.read (Job.lone 1)) ∧ ((queuedOps
      16).chan 2).waitingFor ((queuedOps 16).chan 2).slotClass = []) ∧
    (2 < 4 ∧ (lastSlot.chan 2).mayDispatch = true ∧ (lastSlot.chan 2).queue (lastSlot.chan 2).slotClass = [] ∧
      (List.find? (fun k => !((lastSlot.chan 2).queue k).isEmpty) fallbackOrder = some Cls.scrub) ∧ (lastSlot.chan
      2).queue Cls.scrub = [anOp Cls.scrub (Job.lone 1)] ∧ (∀ (w : Stalled), w ∈ (lastSlot.chan 2).waitingFor
      Cls.scrub → w.rest = [])) ∧
    ((normal.chan 2).mayDispatch = true ∧ (∀ (k : Cls), (normal.chan 2).queue k = []) ∧ 2 < 4) := by
  and_intros <;> first | decide +kernel | (intro k; cases k <;> rfl)

theorem witness_OperationsEndOrFail :
    (2 < 4 ∧ ((busyWith (anOp Cls.read (Job.lone 1))).chan 2).current = some (anOp Cls.read (Job.lone 1)) ∧ (anOp
      Cls.read (Job.lone 1)).kind = .read ∧ (List.replicate 8 5).length = (anOp Cls.read (Job.lone 1)).len ∧
      jobAwaited (anOp Cls.read (Job.lone 1)).job = true) ∧
    (2 < 4 ∧ ((busyWith (anOp Cls.read (Job.lone 1))).chan 2).current = some (anOp Cls.read (Job.lone 1)) ∧ ((anOp
      Cls.read (Job.lone 1)).kind = .read ∨ (anOp Cls.read (Job.lone 1)).kind = .write ∨ (anOp Cls.read (Job.lone
      1)).kind = .labelRead) ∧ (anOp Cls.read (Job.lone 1)).retry = false ∧ (busyWith (anOp Cls.read (Job.lone
      1))).ctm.state ≠ .failed ∧ (Instr.operationTimeout 2 = Instr.operationTimeout 2 ∨ Instr.operationTimeout 2 =
      Instr.operationComplete 2
      { command := ((busyWith (anOp Cls.read (Job.lone 1))).chan 2).command, completion := Completion.mediaError })) ∧
    (2 < 4 ∧ ((busyWith (anOp Cls.read (Job.lone 1))).chan 2).current = some (anOp Cls.read (Job.lone 1)) ∧ ((anOp
      Cls.read (Job.lone 1)).kind = .read ∨ (anOp Cls.read (Job.lone 1)).kind = .write ∨ (anOp Cls.read (Job.lone
      1)).kind = .labelRead) ∧ (anOp Cls.read (Job.lone 1)).retry = false ∧ (busyWith (anOp Cls.read (Job.lone
      1))).ctm.state ≠ .failed ∧ (Instr.operationComplete 2 { command := 0, completion := Completion.mediaError } =
      Instr.operationTimeout 2 ∨ Instr.operationComplete 2 { command := 0, completion := Completion.mediaError } =
      Instr.operationComplete 2
      { command := ((busyWith (anOp Cls.read (Job.lone 1))).chan 2).command, completion := Completion.mediaError })) ∧
    (staleAnswer.command ≠ ((busyWith (anOp Cls.read (Job.lone 1))).chan 2).command) ∧
    (2 < 4 ∧ (busyWith (anOp Cls.read (Job.lone 1))).calm ∧ 2 ∈ (busyWith (anOp Cls.read (Job.lone 1))).positions ∧
      ((busyWith (anOp Cls.read (Job.lone 1))).chan 2).bay = some 2 ∧ (busyWith (anOp Cls.read (Job.lone
      1))).pwc.limit ≤ (busyWith (anOp Cls.read (Job.lone 1))).pwc.limitAsked) := by
  decide +kernel

/-- The idle timer of position 2 has asked for standby. -/
def restAsked (s : State) : State :=
  { s with pwc := { s.pwc with standbyAsks := s.pwc.standbyAsks.setIfInBounds 2 (some .idleTimer) } }

theorem witness_MembersRestAndSpinUp :
    (2 < 4 ∧ timerRuns.pwc.idleTimers[2]? = some true ∧ timerRuns.pwc.standbyAsks[2]? = some none) ∧
    (2 < 4 ∧ standbyAsked.pwc.standbyAsks[2]? = some (some StandbyAsk.idleTimer) ∧ standbyAsked.member 2 = .active ∧
      (standbyAsked.chan 2).current = none ∧ (standbyAsked.chan 2).allQueued = []) ∧
    (2 < 4 ∧ (restAsked (spinAsked .standby)).pwc.standbyAsks[2]? = some (some StandbyAsk.idleTimer) ∧
      ((restAsked (spinAsked .standby)).member 2 ≠ .active ∨ ((restAsked (spinAsked .standby)).chan 2).current ≠ none ∨
      ((restAsked (spinAsked .standby)).chan 2).allQueued ≠ [])) ∧
    (2 < 4 ∧ (restAsked standbyRuns).pwc.standbyAsks[2]? = some (some StandbyAsk.idleTimer) ∧
      ((restAsked standbyRuns).member 2 ≠ .active ∨ ((restAsked standbyRuns).chan 2).current ≠ none ∨
      ((restAsked standbyRuns).chan 2).allQueued ≠ [])) ∧
    (2 < 4 ∧ standbyRuns.calm ∧ (standbyRuns.chan 2).current = some standbyOp ∧ (standbyRuns.chan 2).allQueued = [] ∧
      standbyRuns.pwc.standbyOps[2]? = some (some { asker := StandbyAsk.idleTimer, second := false }) ∧
      standbyRuns.member 2 = .active) ∧
    (2 < 4 ∧ (standbyRuns.chan 2).current = some standbyOp ∧ standbyRuns.pwc.standbyOps[2]? = some (some
      { asker := StandbyAsk.idleTimer, second := false })) ∧
    (2 < 4 ∧ (spinAsked .standby).settled ∧ ((spinAsked .standby).chan 2).spinupAsked = true ∧ ((spinAsked
      .standby).member 2 = .standby ∨ (spinAsked .standby).member 2 = .off) ∧ (spinAsked .standby).pwc.spinQueue = []
      ∧ (spinAsked .standby).spinningCount < (spinAsked .standby).pwc.limit) ∧
    (2 < 4 ∧ (spinAsked .off).settled ∧ ((spinAsked .off).chan 2).spinupAsked = true ∧ ((spinAsked .off).member 2 =
      .standby ∨ (spinAsked .off).member 2 = .off) ∧ (spinAsked .off).pwc.spinQueue = [] ∧ (spinAsked
      .off).spinningCount < (spinAsked .off).pwc.limit) ∧
    (2 < 4 ∧ (spinningUp 1).settled ∧ (spinningUp 1).pwc.spinning[2]? = some (some (aSpin 1)) ∧ (aSpin 1).commanded =
      true ∧ (spinningUp 1).member 2 = .spinningUp ∧ (spinningUp 1).pwc.spinQueue = [] ∧ (Option.map (fun a =>
      a.position) (spinningUp 1).igu.adoption ≠ some 2)) ∧
    (2 < 4 ∧ adoptedSpins.settled ∧ adoptedSpins.pwc.spinning[2]? = some (some (aSpin 1)) ∧ (aSpin 1).commanded = true
      ∧ adoptedSpins.member 2 = .spinningUp ∧ adoptedSpins.pwc.spinQueue = [] ∧ adoptedSpins.igu.adoption = some
      newAdoption ∧ newAdoption.position = 2 ∧ newAdoption.labelled = false ∧ adoptedSpins.unitsNeeded ≤ 50000) ∧
    (2 < 4 ∧ (spinningUp 1).settled ∧ (spinningUp 1).pwc.spinning[2]? = some (some (aSpin 1)) ∧ (aSpin 1).attempt = 1
      ∧ (spinningUp 1).member 2 = .spinningUp ∧ (spinningUp 1).pwc.spinQueue = [] ∧ (spinningUp 1).spinningCount ≤
      (spinningUp 1).pwc.limit ∧ (spinningUp 1).pwc.limit = (spinningUp 1).pwc.limitAsked) ∧
    ((spinningUp 2).calmBut 2 ∧ (spinningUp 2).pwc.spinning[2]? = some (some (aSpin 2)) ∧ (aSpin 2).attempt ≠ 1 ∧ 2 <
      4 ∧ ((spinningUp 2).chan 2).bay = some 2) := by
  and_intros <;> decide +kernel

theorem witness_BayLines :
    (2 < 4 ∧ (((bay2 (fun b =>
      { enable := true, sense := on, presence := b.presence, window := true, powerFault := b.powerFault }) (spinningUp
      1)).bay 2).window = true) ∧ ((bay2 (fun b =>
      { enable := true, sense := on, presence := b.presence, window := true, powerFault := b.powerFault }) (spinningUp
      1)).positionOfBay 2 = some 2) ∧ ((bay2 (fun b =>
      { enable := true, sense := on, presence := b.presence, window := true, powerFault := b.powerFault }) (spinningUp
      1)).pwc.spinning[2]? = some (some (aSpin 1))) ∧ (Instr.readbackExpire 2 = Instr.readbackExpire 2 ∧ ((bay2 (fun b
      => { enable := true, sense := on, presence := b.presence, window := true, powerFault := b.powerFault })
      (spinningUp 1)).bay 2).sense.level = true ∨ Instr.readbackExpire 2 = Instr.senseChange 2 true ∧ ((bay2 (fun b =>
      { enable := true, sense := on, presence := b.presence, window := true, powerFault := b.powerFault }) (spinningUp
      1)).bay 2).sense.level = false)) ∧
    (2 < 4 ∧ (((bay2 (fun b =>
      { enable := true, sense := b.sense, presence := b.presence, window := true, powerFault := b.powerFault })
      (spinningUp 1)).bay 2).window = true) ∧ ((bay2 (fun b =>
      { enable := true, sense := b.sense, presence := b.presence, window := true, powerFault := b.powerFault })
      (spinningUp 1)).positionOfBay 2 = some 2) ∧ ((bay2 (fun b =>
      { enable := true, sense := b.sense, presence := b.presence, window := true, powerFault := b.powerFault })
      (spinningUp 1)).pwc.spinning[2]? = some (some (aSpin 1))) ∧ (Instr.senseChange 2 true = Instr.readbackExpire 2 ∧
      ((bay2 (fun b =>
      { enable := true, sense := b.sense, presence := b.presence, window := true, powerFault := b.powerFault })
      (spinningUp 1)).bay 2).sense.level = true ∨ Instr.senseChange 2 true = Instr.senseChange 2 true ∧ ((bay2 (fun b
      => { enable := true, sense := b.sense, presence := b.presence, window := true, powerFault := b.powerFault })
      (spinningUp 1)).bay 2).sense.level = false)) ∧
    (2 < 4 ∧ ((bay2 (fun b =>
      { enable := true, sense := b.sense, presence := b.presence, window := true, powerFault := b.powerFault })
      (spinningUp 1)).positionOfBay 2 = some 2) ∧ ((bay2 (fun b =>
      { enable := true, sense := b.sense, presence := b.presence, window := true, powerFault := b.powerFault })
      (spinningUp 1)).calmBut 2) ∧ (Instr.readbackExpire 2 = Instr.readbackExpire 2 ∧ ((bay2 (fun b =>
      { enable := true, sense := b.sense, presence := b.presence, window := true, powerFault := b.powerFault })
      (spinningUp 1)).bay 2).window = true ∧ ((bay2 (fun b =>
      { enable := true, sense := b.sense, presence := b.presence, window := true, powerFault := b.powerFault })
      (spinningUp 1)).bay 2).sense.level = false ∨ Instr.readbackExpire 2 = Instr.senseChange 2 false ∧ ((bay2 (fun b
      => { enable := true, sense := b.sense, presence := b.presence, window := true, powerFault := b.powerFault })
      (spinningUp 1)).bay 2).enable = true ∧ ((bay2 (fun b =>
      { enable := true, sense := b.sense, presence := b.presence, window := true, powerFault := b.powerFault })
      (spinningUp 1)).bay 2).window = false ∧ ((bay2 (fun b =>
      { enable := true, sense := b.sense, presence := b.presence, window := true, powerFault := b.powerFault })
      (spinningUp 1)).bay 2).sense.level = true)) ∧
    (2 < 4 ∧ ((bay2 (fun b =>
      { enable := true, sense := on, presence := b.presence, window := b.window, powerFault := b.powerFault })
      normal).positionOfBay 2 = some 2) ∧ ((bay2 (fun b =>
      { enable := true, sense := on, presence := b.presence, window := b.window, powerFault := b.powerFault })
      normal).calmBut 2) ∧ (Instr.senseChange 2 false = Instr.readbackExpire 2 ∧ ((bay2 (fun b =>
      { enable := true, sense := on, presence := b.presence, window := b.window, powerFault := b.powerFault })
      normal).bay 2).window = true ∧ ((bay2 (fun b =>
      { enable := true, sense := on, presence := b.presence, window := b.window, powerFault := b.powerFault })
      normal).bay 2).sense.level = false ∨ Instr.senseChange 2 false = Instr.senseChange 2 false ∧ ((bay2 (fun b =>
      { enable := true, sense := on, presence := b.presence, window := b.window, powerFault := b.powerFault })
      normal).bay 2).enable = true ∧ ((bay2 (fun b =>
      { enable := true, sense := on, presence := b.presence, window := b.window, powerFault := b.powerFault })
      normal).bay 2).window = false ∧ ((bay2 (fun b =>
      { enable := true, sense := on, presence := b.presence, window := b.window, powerFault := b.powerFault })
      normal).bay 2).sense.level = true)) ∧
    (2 < 4 ∧ ((bay2 (fun b =>
      { enable := b.enable, sense := b.sense, presence := on, window := b.window, powerFault := b.powerFault })
      normal).positionOfBay 2 = some 2) ∧ ((bay2 (fun b =>
      { enable := b.enable, sense := b.sense, presence := on, window := b.window, powerFault := b.powerFault })
      normal).calmBut 2) ∧ (((bay2 (fun b =>
      { enable := b.enable, sense := b.sense, presence := on, window := b.window, powerFault := b.powerFault })
      normal).bay 2).presence.level = true)) ∧
    (3 < 4 ∧ (normal.bay 3).presence.level = false ∧ normal.pwc.box = .run) := by
  and_intros <;> decide +kernel

theorem witness_ServiceFrameIsSet :
    (normal.ctm.state ≠ .failed ∧ 4 ≤ 4 ∧ List.map classOf (List.take (max 4 (min 32 33)) (List.replicate 32 4)) =
      List.map some (List.replicate 32 Cls.rebuild) ∧ (List.replicate 32 Cls.rebuild).length = max 4 (min 32 33)) ∧
    (normal.ctm.state ≠ .failed ∧ 3 ≤ 4 ∧ List.map classOf (List.take (max 4 (min 32 0)) [0, 1, 2, 3, 9]) = List.map
      some [Cls.read, Cls.write, Cls.verify, Cls.scrub] ∧ [Cls.read, Cls.write, Cls.verify, Cls.scrub].length = max 4
      (min 32 0)) ∧
    (normal.ctm.state ≠ .failed ∧ (4 < 5 ∨ ∃ c, c ∈ List.take (max 4 (min 32 4)) [] ∧ 4 < c)) ∧
    (normal.ctm.state ≠ .failed ∧ (4 < 4 ∨ ∃ c, c ∈ List.take (max 4 (min 32 4)) [0, 1, 2, 5] ∧ 4 < c)) := by
  decide +kernel

theorem witness_GrantsBeginAndEnd :
    (63 ≤ 63 ∧ normal.ctm.state ≠ .failed ∧ normal.pwc.time < 1 ∧ (normal.grant 63).opens = 0) ∧
    (63 ≤ 63 ∧ normal.ctm.state ≠ .failed ∧ 0 ≤ normal.pwc.time) ∧
    (0 ≤ 63 ∧ busyGrant.ctm.state ≠ .failed ∧ busyGrant.pwc.time < 1 ∧ (busyGrant.grant 0).opens ≠ 0) ∧
    (0 ≤ 63 ∧ (granted smallGrant).ctm.state ≠ .failed ∧ ((granted smallGrant).grant 0).state = .active ∧ (granted
      smallGrant).liveUnder 0 = []) ∧
    (63 ≤ 63 ∧ normal.ctm.state ≠ .failed ∧ (normal.grant 63).state = .free) ∧
    (0 ≤ 63 ∧ revokedGrant.ctm.state ≠ .failed ∧ (revokedGrant.grant 0).state = .revoked) ∧
    (0 ≤ 63 ∧ (dueGrant.grant 0).state = .active ∧ (dueGrant.grant 0).notAfter ≤ dueGrant.pwc.time ∧ (∀ (i : Nat), i <
      16 → (dueGrant.reader i).grant ≠ some 0)) ∧
    ((granted smallGrant).pwc.time < ((granted smallGrant).grant 0).notAfter) ∧
    (63 ≤ 63 ∧ (granted smallGrant).ctm.state ≠ .failed) ∧
    (0 ≤ 63 ∧ (granted smallGrant).ctm.state ≠ .failed) := by
  decide +kernel

theorem witness_ReadStreamsOpenAndStop :
    (0 ≤ 63 ∧ 1 ≤ 1 ∧ 1 ≤ 65535 ∧ (shareable 15 1).running = true ∧ ((shareable 15 1).grant 0).state = .active ∧
      (shareable 15 1).pwc.time < ((shareable 15 1).grant 0).notAfter ∧ (shareable 15 1).obj 1 = some sealedObj ∧
      sealedObj.state = .sealed ∧ sealedObj.albums &&& ((shareable 15 1).grant 0).albums ≠ 0 ∧ ((shareable 15 1).grant
      0).opens < ((shareable 15 1).grant 0).limit ∧ 15 < 16 ∧ ((shareable 15 1).reader 15).state = ReadState.free ∧ (∀
      (j : Nat), j < 15 → ((shareable 15 1).reader j).state ≠ ReadState.free) ∧ 7 < sealedObj.length) ∧
    (0 ≤ 63 ∧ 1 ≤ 1 ∧ 1 ≤ 65535 ∧ (shareable 0 1).running = true ∧ ((shareable 0 1).grant 0).state = .active ∧
      (shareable 0 1).pwc.time < ((shareable 0 1).grant 0).notAfter ∧ (shareable 0 1).obj 1 = some sealedObj ∧
      sealedObj.state = .sealed ∧ sealedObj.albums &&& ((shareable 0 1).grant 0).albums ≠ 0 ∧ ((shareable 0 1).grant
      0).opens < ((shareable 0 1).grant 0).limit ∧ 0 < 16 ∧ ((shareable 0 1).reader 0).state = ReadState.free ∧ (∀ (j
      : Nat), j < 0 → ((shareable 0 1).reader j).state ≠ ReadState.free) ∧ 0 < sealedObj.length) ∧
    (0 ≤ 63 ∧ 1 ≤ 1 ∧ 1 ≤ 65535 ∧ (shareable 15 1).running = true ∧ ((shareable 15 1).grant 0).state = .active ∧
      (shareable 15 1).pwc.time < ((shareable 15 1).grant 0).notAfter ∧ (shareable 15 1).obj 1 = some sealedObj ∧
      sealedObj.state = .sealed ∧ sealedObj.albums &&& ((shareable 15 1).grant 0).albums ≠ 0 ∧ ((shareable 15 1).grant
      0).opens < ((shareable 15 1).grant 0).limit ∧ 15 < 16 ∧ ((shareable 15 1).reader 15).state = ReadState.free ∧ (∀
      (j : Nat), j < 15 → ((shareable 15 1).reader j).state ≠ ReadState.free)) ∧
    (0 ≤ 63 ∧ 1 ≤ 1 ∧ 1 ≤ 65535 ∧ (shareable 0 2).running = true ∧ ((shareable 0 2).grant 0).state = .active ∧
      (shareable 0 2).pwc.time < ((shareable 0 2).grant 0).notAfter ∧ (shareable 0 2).obj 1 = some sealedObj ∧
      sealedObj.state = .sealed ∧ sealedObj.albums &&& ((shareable 0 2).grant 0).albums = 0) ∧
    (15 < 16 ∧ (reader15 stopping).ctm.state ≠ .failed ∧ ((reader15 stopping).reader 15).state = ReadState.seeking ∧
      ((reader15 stopping).reader 15).segRead = SegRead.reading ∧ ((reader15 stopping).reader 15).flights = [] ∧
      ((reader15 stopping).reader 15).reason = none ∧ (reader15 stopping).waitingReads (ReadWho.isChunkOf 15) = [] ∧
      (reader15 stopping).waitingReads (ReadWho.isSegOf 15) = []) ∧
    (15 < 16 ∧ normal.ctm.state ≠ .failed ∧ (normal.reader 15).state = ReadState.free) := by
  and_intros <;> decide +kernel

theorem witness_ReadersAdvance :
    (15 < 16 ∧ ((reader15 seeker).reader 15).state = ReadState.seeking ∧ ((reader15 seeker).reader 15).segRead =
      SegRead.idle ∧ ((reader15 seeker).reader 15).handleAt = some 3 ∧ (reader15 seeker).tables.locate 3 =
      IdxAnswer.found .stored fp8 2 0 ∧ ((reader15 seeker).reader 15).offset + fpLength fp8 ≤ ((reader15
      seeker).reader 15).start) ∧
    (rich.mayIssueNow 15 3 (entry8 .stored 1) ∧ issueGranted rich 0) ∧
    ((issuing (fun r => { r with start := 3 }) (some 5)).mayIssueNow 15 3 (entry8 .stored 1) ∧
      issueGranted (issuing (fun r => { r with start := 3 }) (some 5)) 0) ∧
    ((issuing (fun r => { r with stop := 6 }) (some 6)).mayIssueNow 15 3 (entry8 .stored 1) ∧
      issueGranted (issuing (fun r => { r with stop := 6 }) (some 6)) 0) ∧
    ((issuing id none).mayIssueNow 15 3 (entry8 .stored 1) ∧ issueGranted (issuing id none) 0) ∧
    ((issuing (fun r => { r with grant := some 255 }) (some 0)).mayIssueNow 15 3 (entry8 .stored 1) ∧
      issueGranted (issuing (fun r => { r with grant := some 255 }) (some 0)) 255) ∧
    (15 < 16 ∧ 0 ≤ 63 ∧ (reader15 poorRunner).mayIssueNow 15 3 (entry8 .stored 1) ∧
      ((reader15 poorRunner).reader 15).flights = waitingFlight :: [] ∧
      ((reader15 poorRunner).reader 15).grant = some 0 ∧ ((reader15 poorRunner).grant 0).state = .active ∧
      (reader15 poorRunner).pwc.time < ((reader15 poorRunner).grant 0).notAfter ∧
      ((reader15 poorRunner).grant 0).remaining = some 5 ∧
      5 < ((reader15 poorRunner).reader 15).wanted (fpLength (entry8 .stored 1).fp)) ∧
    (15 < 16 ∧ reported.reportFor (ReadWho.isChunkOf 15) = some bytesReport ∧ bytesReport.who = ReadWho.chunk
      (ReadBy.stream 15 waitingFlight.position) ∧ bytesReport.answer = ReadAnswer.bytes [1, 2, 3, 4, 5, 6, 7, 8] ∧
      (reported.reader 15).state = ReadState.running ∧ (reported.reader 15).flights = [waitingFlight] ∧
      waitingFlight.state = FlightState.reading ∧ waitingFlight.discarded = false ∧ (reported.reader 15).offered =
      none ∧ (reported.reader 15).sending = none ∧ waitingFlight.sent < waitingFlight.upto) := by
  and_intros <;> decide +kernel

theorem witness_ScrubRuns :
    (normal.ctm.state ≠ .failed) ∧
    (0 < expired.igu.period ∧ expired.pwc.box = .run ∧ expired.ctm.state.attached = true ∧ expired.igu.timer = 0 ∧
      expired.igu.step = some idleStep) ∧
    (0 < (scrubDue 2 (member2 (held8 1) .standby)).igu.period ∧ (scrubDue 2 (member2 (held8 1) .standby)).pwc.box =
      .run ∧ (scrubDue 2 (member2 (held8 1) .standby)).ctm.state.attached = true ∧ (scrubDue 2 (member2 (held8 1)
      .standby)).igu.timer = 0 ∧ (scrubDue 2 (member2 (held8 1) .standby)).igu.step = none ∧ 2 ∈ (scrubDue 2 (member2
      (held8 1) .standby)).positions ∧ (scrubDue 2 (member2 (held8 1) .standby)).member 2 = .standby ∧ (scrubDue 2
      (member2 (held8 1) .standby)).igu.adoption = none ∧ ((scrubDue 2 (member2 (held8 1) .standby)).nextScrubbable
      (scrubDue 2 (member2 (held8 1) .standby)).tables.scrubCursor = some 2 ∨ (scrubDue 2 (member2 (held8 1)
      .standby)).nextScrubbable (scrubDue 2 (member2 (held8 1) .standby)).tables.scrubCursor = none ∧ (scrubDue 2
      (member2 (held8 1) .standby)).nextScrubbable 0 = some 2)) ∧
    (0 < (scrubDue 3 (member2 (held8 1) .standby)).igu.period ∧ (scrubDue 3 (member2 (held8 1) .standby)).pwc.box =
      .run ∧ (scrubDue 3 (member2 (held8 1) .standby)).ctm.state.attached = true ∧ (scrubDue 3 (member2 (held8 1)
      .standby)).igu.timer = 0 ∧ (scrubDue 3 (member2 (held8 1) .standby)).igu.step = none ∧ 2 ∈ (scrubDue 3 (member2
      (held8 1) .standby)).positions ∧ (scrubDue 3 (member2 (held8 1) .standby)).member 2 = .standby ∧ (scrubDue 3
      (member2 (held8 1) .standby)).igu.adoption = none ∧ ((scrubDue 3 (member2 (held8 1) .standby)).nextScrubbable
      (scrubDue 3 (member2 (held8 1) .standby)).tables.scrubCursor = some 2 ∨ (scrubDue 3 (member2 (held8 1)
      .standby)).nextScrubbable (scrubDue 3 (member2 (held8 1) .standby)).tables.scrubCursor = none ∧ (scrubDue 3
      (member2 (held8 1) .standby)).nextScrubbable 0 = some 2)) ∧
    (0 < (scrubDue 9 (member2 lastSealed .standby)).igu.period ∧ (scrubDue 9 (member2 lastSealed .standby)).pwc.box =
      .run ∧ (scrubDue 9 (member2 lastSealed .standby)).ctm.state.attached = true ∧ (scrubDue 9 (member2 lastSealed
      .standby)).igu.timer = 0 ∧ (scrubDue 9 (member2 lastSealed .standby)).igu.step = none ∧ 2 ∈ (scrubDue 9 (member2
      lastSealed .standby)).positions ∧ (scrubDue 9 (member2 lastSealed .standby)).member 2 = .standby ∧ (scrubDue 9
      (member2 lastSealed .standby)).igu.adoption = none ∧ ((scrubDue 9 (member2 lastSealed .standby)).nextScrubbable
      (scrubDue 9 (member2 lastSealed .standby)).tables.scrubCursor = some 9 ∨ (scrubDue 9 (member2 lastSealed
      .standby)).nextScrubbable (scrubDue 9 (member2 lastSealed .standby)).tables.scrubCursor = none ∧ (scrubDue 9
      (member2 lastSealed .standby)).nextScrubbable 0 = some 9)) ∧
    (0 < (scrubDue 0 (held8 1)).igu.period ∧ (scrubDue 0 (held8 1)).pwc.box = .run ∧ (scrubDue 0 (held8
      1)).ctm.state.attached = true ∧ (scrubDue 0 (held8 1)).igu.timer = 0 ∧ (scrubDue 0 (held8 1)).igu.step = none ∧
      (∀ (p : Nat), p ∈ (scrubDue 0 (held8 1)).positions → (scrubDue 0 (held8 1)).member p = .active) ∧ (scrubDue 0
      (held8 1)).igu.adoption = none ∧ (scrubDue 0 (held8 1)).nextScrubbable (scrubDue 0 (held8 1)).tables.scrubCursor
      = some 2 ∧ (scrubDue 0 (held8 1)).cont 2 = some (cont2 .sealed) ∧ 2 + 1 < (scrubDue 0 (held8 1)).containerCount) ∧
    (0 < (scrubDue 0 normal).igu.period ∧ (scrubDue 0 normal).pwc.box = .run ∧ (scrubDue 0 normal).ctm.state.attached
      = true ∧ (scrubDue 0 normal).igu.timer = 0 ∧ (scrubDue 0 normal).igu.step = none ∧ (scrubDue 0
      normal).nextScrubbable (scrubDue 0 normal).tables.scrubCursor = none ∧ (scrubDue 0 normal).nextScrubbable 0 =
      none) ∧
    (idleMember.igu.step = some idleStep ∧ idleStep.reading = false ∧ idleStep.deferred = false ∧ 2 ∈
      idleMember.positions ∧ idleMember.member 2 = .standby ∧ idleMember.igu.adoption = none) ∧
    ((scrubbing (held8 1) idleStep).igu.step = some idleStep ∧ idleStep.reading = false ∧ (∀ (p : Nat), p ∈ (scrubbing
      (held8 1) idleStep).positions → (scrubbing (held8 1) idleStep).member p = .active) ∧ (scrubbing (held8 1)
      idleStep).igu.adoption = none ∧ (scrubbing (held8 1) idleStep).cont idleStep.container = some (cont2 .sealed) ∧
      (cont2 .sealed).state = .sealed) ∧
    (broken.igu.step = some brokenStep ∧ brokenStep.started = true ∧ brokenStep.outcome = none ∧ broken.unitsBack
      brokenStep.units Job.scrubRead = true ∧ broken.ctm.state ≠ .failed ∧ broken.cont brokenStep.container = some
      (cont2 .sealed) ∧ (cont2 .sealed).state = .sealed ∧ (cont2 .sealed).live ≠ 0 ∧ (cont2 .sealed).kind =
      ContKind.data ∧ broken.mec.bufferQueue = [] ∧ (∀ (p : Fin 4), unitAt (unitsAfter brokenStep.units
      (broken.returned fun j => decide (j = .scrubRead)) [] brokenStep.reread) ↑p ≠ UnitRead.out) ∧ (2 ≤ (Stripe.mk
      (broken.layout) (brokenStep.container) (unitsAfter brokenStep.units (broken.returned fun j => decide (j =
      .scrubRead)) [] brokenStep.reread)).missing.length)) ∧
    ((stripeHad [75, 63] unitA unitB).scrubInHand (stripeStep unitA unitB) readCont (stripeOf (UnitRead.bytes [75,
      63]) unitA unitB) ∧ ((stripeOf (UnitRead.bytes [75, 63]) unitA unitB).missing = [] ∧ areaGood (stripeOf
      (UnitRead.bytes [75, 63]) unitA unitB).layout (stripeOf (UnitRead.bytes [75, 63]) unitA unitB).area = true ∧
      (stripeOf (UnitRead.bytes [75, 63]) unitA unitB).parityHolds = true ∨ ∃ p, p < 4 ∧ (stripeOf (UnitRead.bytes
      [75, 63]) unitA unitB).missing = [p] ∧ unitAt (stripeOf (UnitRead.bytes [75, 63]) unitA unitB).units p =
      UnitRead.lost ∧ areaGood (stripeOf (UnitRead.bytes [75, 63]) unitA unitB).layout ((stripeOf (UnitRead.bytes [75,
      63]) unitA unitB).areaWithout p) = true) ∧ readCont.live ≠ 0 ∧ readCont.kind = ContKind.data ∧ (stripeHad [75,
      63] unitA unitB).mec.bufferQueue = []) ∧
    ((stripeHad [75, 63] UnitRead.lost unitB).scrubInHand (stripeStep UnitRead.lost unitB) readCont (stripeOf
      (UnitRead.bytes [75, 63]) UnitRead.lost unitB) ∧ ((stripeOf (UnitRead.bytes [75, 63]) UnitRead.lost
      unitB).missing = [] ∧ areaGood (stripeOf (UnitRead.bytes [75, 63]) UnitRead.lost unitB).layout (stripeOf
      (UnitRead.bytes [75, 63]) UnitRead.lost unitB).area = true ∧ (stripeOf (UnitRead.bytes [75, 63]) UnitRead.lost
      unitB).parityHolds = true ∨ ∃ p, p < 4 ∧ (stripeOf (UnitRead.bytes [75, 63]) UnitRead.lost unitB).missing = [p]
      ∧ unitAt (stripeOf (UnitRead.bytes [75, 63]) UnitRead.lost unitB).units p = UnitRead.lost ∧ areaGood (stripeOf
      (UnitRead.bytes [75, 63]) UnitRead.lost unitB).layout ((stripeOf (UnitRead.bytes [75, 63]) UnitRead.lost
      unitB).areaWithout p) = true) ∧ readCont.live ≠ 0 ∧ readCont.kind = ContKind.data ∧ (stripeHad [75, 63]
      UnitRead.lost unitB).mec.bufferQueue = []) ∧
    ((stripeHad [75, 63] unitA (UnitRead.bytes [1, 2])).scrubInHand (stripeStep unitA (UnitRead.bytes [1, 2]))
      readCont (stripeOf (UnitRead.bytes [75, 63]) unitA (UnitRead.bytes [1, 2])) ∧ ((∃ j, j < (stripeOf
      (UnitRead.bytes [75, 63]) unitA (UnitRead.bytes [1, 2])).layout.dataUnits ∧ some 1 = some j ∧ 2 = (stripeOf
      (UnitRead.bytes [75, 63]) unitA (UnitRead.bytes [1, 2])).holder j ∧ (stripeOf (UnitRead.bytes [75, 63]) unitA
      (UnitRead.bytes [1, 2])).missing = [] ∧ areaGood (stripeOf (UnitRead.bytes [75, 63]) unitA (UnitRead.bytes [1,
      2])).layout (stripeOf (UnitRead.bytes [75, 63]) unitA (UnitRead.bytes [1, 2])).area = false ∧ areaGood (stripeOf
      (UnitRead.bytes [75, 63]) unitA (UnitRead.bytes [1, 2])).layout ((stripeOf (UnitRead.bytes [75, 63]) unitA
      (UnitRead.bytes [1, 2])).areaWithout 2) = true ∧ ∀ (k : Nat), k < j → areaGood (stripeOf (UnitRead.bytes [75,
      63]) unitA (UnitRead.bytes [1, 2])).layout ((stripeOf (UnitRead.bytes [75, 63]) unitA (UnitRead.bytes [1,
      2])).areaWithout ((stripeOf (UnitRead.bytes [75, 63]) unitA (UnitRead.bytes [1, 2])).holder k)) = false) ∨ some
      1 = none ∧ 2 = parityMember (stripeOf (UnitRead.bytes [75, 63]) unitA (UnitRead.bytes [1, 2])).layout.members
      (stripeOf (UnitRead.bytes [75, 63]) unitA (UnitRead.bytes [1, 2])).container ∧ (stripeOf (UnitRead.bytes [75,
      63]) unitA (UnitRead.bytes [1, 2])).missing = [] ∧ areaGood (stripeOf (UnitRead.bytes [75, 63]) unitA
      (UnitRead.bytes [1, 2])).layout (stripeOf (UnitRead.bytes [75, 63]) unitA (UnitRead.bytes [1, 2])).area = true ∧
      (stripeOf (UnitRead.bytes [75, 63]) unitA (UnitRead.bytes [1, 2])).parityHolds = false ∨ some 1 = unitOn
      (stripeOf (UnitRead.bytes [75, 63]) unitA (UnitRead.bytes [1, 2])).layout.members (stripeOf (UnitRead.bytes [75,
      63]) unitA (UnitRead.bytes [1, 2])).container 2 ∧ (stripeOf (UnitRead.bytes [75, 63]) unitA (UnitRead.bytes [1,
      2])).missing = [2] ∧ unitAt (stripeOf (UnitRead.bytes [75, 63]) unitA (UnitRead.bytes [1, 2])).units 2 =
      UnitRead.failed ∧ areaGood (stripeOf (UnitRead.bytes [75, 63]) unitA (UnitRead.bytes [1, 2])).layout ((stripeOf
      (UnitRead.bytes [75, 63]) unitA (UnitRead.bytes [1, 2])).areaWithout 2) = true) ∧ 2 < 4 ∧ (stripeHad [75, 63]
      unitA (UnitRead.bytes [1, 2])).member 2 = .active ∧ ((stripeHad [75, 63] unitA (UnitRead.bytes [1, 2])).chan
      2).queue Cls.scrub = [] ∧ ((stripeHad [75, 63] unitA (UnitRead.bytes [1, 2])).chan 2).waitingFor Cls.scrub = []
      ∧ (stripeHad [75, 63] unitA (UnitRead.bytes [1, 2])).stalledAt Requester.igu Cls.scrub = none ∧ (stripeHad [75,
      63] unitA (UnitRead.bytes [1, 2])).arr.isSome = true ∧ (stripeStep unitA (UnitRead.bytes [1, 2])).container <
      (stripeHad [75, 63] unitA (UnitRead.bytes [1, 2])).containerCount ∧ 1 ≤ ((stripeOf (UnitRead.bytes [75, 63])
      unitA (UnitRead.bytes [1, 2])).xorOthers 2).length ∧ ((stripeOf (UnitRead.bytes [75, 63]) unitA (UnitRead.bytes
      [1, 2])).xorOthers 2).length ≤ unitSize) ∧
    ((stripeHad [1, 2] unitA unitB).scrubInHand (stripeStep unitA unitB) readCont (stripeOf (UnitRead.bytes [1, 2])
      unitA unitB) ∧ ((∃ j, j < (stripeOf (UnitRead.bytes [1, 2]) unitA unitB).layout.dataUnits ∧ noUnit = some j ∧ 0
      = (stripeOf (UnitRead.bytes [1, 2]) unitA unitB).holder j ∧ (stripeOf (UnitRead.bytes [1, 2]) unitA
      unitB).missing = [] ∧ areaGood (stripeOf (UnitRead.bytes [1, 2]) unitA unitB).layout (stripeOf (UnitRead.bytes
      [1, 2]) unitA unitB).area = false ∧ areaGood (stripeOf (UnitRead.bytes [1, 2]) unitA unitB).layout ((stripeOf
      (UnitRead.bytes [1, 2]) unitA unitB).areaWithout 0) = true ∧ ∀ (k : Nat), k < j → areaGood (stripeOf
      (UnitRead.bytes [1, 2]) unitA unitB).layout ((stripeOf (UnitRead.bytes [1, 2]) unitA unitB).areaWithout
      ((stripeOf (UnitRead.bytes [1, 2]) unitA unitB).holder k)) = false) ∨ noUnit = none ∧ 0 = parityMember (stripeOf
      (UnitRead.bytes [1, 2]) unitA unitB).layout.members (stripeOf (UnitRead.bytes [1, 2]) unitA unitB).container ∧
      (stripeOf (UnitRead.bytes [1, 2]) unitA unitB).missing = [] ∧ areaGood (stripeOf (UnitRead.bytes [1, 2]) unitA
      unitB).layout (stripeOf (UnitRead.bytes [1, 2]) unitA unitB).area = true ∧ (stripeOf (UnitRead.bytes [1, 2])
      unitA unitB).parityHolds = false ∨ noUnit = unitOn (stripeOf (UnitRead.bytes [1, 2]) unitA unitB).layout.members
      (stripeOf (UnitRead.bytes [1, 2]) unitA unitB).container 0 ∧ (stripeOf (UnitRead.bytes [1, 2]) unitA
      unitB).missing = [0] ∧ unitAt (stripeOf (UnitRead.bytes [1, 2]) unitA unitB).units 0 = UnitRead.failed ∧
      areaGood (stripeOf (UnitRead.bytes [1, 2]) unitA unitB).layout ((stripeOf (UnitRead.bytes [1, 2]) unitA
      unitB).areaWithout 0) = true) ∧ 0 < 4 ∧ (stripeHad [1, 2] unitA unitB).member 0 = .active ∧ ((stripeHad [1, 2]
      unitA unitB).chan 0).queue Cls.scrub = [] ∧ ((stripeHad [1, 2] unitA unitB).chan 0).waitingFor Cls.scrub = [] ∧
      (stripeHad [1, 2] unitA unitB).stalledAt Requester.igu Cls.scrub = none ∧ (stripeHad [1, 2] unitA
      unitB).arr.isSome = true ∧ (stripeStep unitA unitB).container < (stripeHad [1, 2] unitA unitB).containerCount ∧
      1 ≤ ((stripeOf (UnitRead.bytes [1, 2]) unitA unitB).xorOthers 0).length ∧ ((stripeOf (UnitRead.bytes [1, 2])
      unitA unitB).xorOthers 0).length ≤ unitSize) ∧
    ((stripeHad [75, 63] UnitRead.failed unitB).scrubInHand (stripeStep UnitRead.failed unitB) readCont (stripeOf
      (UnitRead.bytes [75, 63]) UnitRead.failed unitB) ∧ ((∃ j, j < (stripeOf (UnitRead.bytes [75, 63])
      UnitRead.failed unitB).layout.dataUnits ∧ some 0 = some j ∧ 1 = (stripeOf (UnitRead.bytes [75, 63])
      UnitRead.failed unitB).holder j ∧ (stripeOf (UnitRead.bytes [75, 63]) UnitRead.failed unitB).missing = [] ∧
      areaGood (stripeOf (UnitRead.bytes [75, 63]) UnitRead.failed unitB).layout (stripeOf (UnitRead.bytes [75, 63])
      UnitRead.failed unitB).area = false ∧ areaGood (stripeOf (UnitRead.bytes [75, 63]) UnitRead.failed unitB).layout
      ((stripeOf (UnitRead.bytes [75, 63]) UnitRead.failed unitB).areaWithout 1) = true ∧ ∀ (k : Nat), k < j →
      areaGood (stripeOf (UnitRead.bytes [75, 63]) UnitRead.failed unitB).layout ((stripeOf (UnitRead.bytes [75, 63])
      UnitRead.failed unitB).areaWithout ((stripeOf (UnitRead.bytes [75, 63]) UnitRead.failed unitB).holder k)) =
      false) ∨ some 0 = none ∧ 1 = parityMember (stripeOf (UnitRead.bytes [75, 63]) UnitRead.failed
      unitB).layout.members (stripeOf (UnitRead.bytes [75, 63]) UnitRead.failed unitB).container ∧ (stripeOf
      (UnitRead.bytes [75, 63]) UnitRead.failed unitB).missing = [] ∧ areaGood (stripeOf (UnitRead.bytes [75, 63])
      UnitRead.failed unitB).layout (stripeOf (UnitRead.bytes [75, 63]) UnitRead.failed unitB).area = true ∧ (stripeOf
      (UnitRead.bytes [75, 63]) UnitRead.failed unitB).parityHolds = false ∨ some 0 = unitOn (stripeOf (UnitRead.bytes
      [75, 63]) UnitRead.failed unitB).layout.members (stripeOf (UnitRead.bytes [75, 63]) UnitRead.failed
      unitB).container 1 ∧ (stripeOf (UnitRead.bytes [75, 63]) UnitRead.failed unitB).missing = [1] ∧ unitAt (stripeOf
      (UnitRead.bytes [75, 63]) UnitRead.failed unitB).units 1 = UnitRead.failed ∧ areaGood (stripeOf (UnitRead.bytes
      [75, 63]) UnitRead.failed unitB).layout ((stripeOf (UnitRead.bytes [75, 63]) UnitRead.failed unitB).areaWithout
      1) = true) ∧ 1 < 4 ∧ (stripeHad [75, 63] UnitRead.failed unitB).member 1 = .active ∧ ((stripeHad [75, 63]
      UnitRead.failed unitB).chan 1).queue Cls.scrub = [] ∧ ((stripeHad [75, 63] UnitRead.failed unitB).chan
      1).waitingFor Cls.scrub = [] ∧ (stripeHad [75, 63] UnitRead.failed unitB).stalledAt Requester.igu Cls.scrub =
      none ∧ (stripeHad [75, 63] UnitRead.failed unitB).arr.isSome = true ∧ (stripeStep UnitRead.failed
      unitB).container < (stripeHad [75, 63] UnitRead.failed unitB).containerCount ∧ 1 ≤ ((stripeOf (UnitRead.bytes
      [75, 63]) UnitRead.failed unitB).xorOthers 1).length ∧ ((stripeOf (UnitRead.bytes [75, 63]) UnitRead.failed
      unitB).xorOthers 1).length ≤ unitSize) ∧
    (repaired.igu.step = some repairing ∧ (List.find? (fun r => decide (r.op.job = Job.scrubRepair)) repaired.returns
      = some (backFrom 2 Job.scrubRepair (.ok []))) ∧ (backFrom 2 Job.scrubRepair (.ok [])).result = .ok [] ∧
      repairing.outcome = some (Finding.repaired none) ∧ repaired.ctm.state ≠ .failed ∧ repaired.cont
      repairing.container = some (cont2 .sealed) ∧ (cont2 .sealed).state = .sealed ∧ (cont2 .sealed).live ≠ 0 ∧ (cont2
      .sealed).kind = ContKind.data ∧ repaired.mec.bufferQueue = []) := by
  and_intros <;> decide +kernel

theorem witness_AdoptionAndRebuild :
    (degraded.ctm.state = .degraded ∧ degraded.pwc.box = .run ∧ 2 ≤ 3 ∧ 2 < degraded.nMembers ∧ 2 < 4 ∧
      (degraded.member 2 = .failed ∨ degraded.member 2 = .absent) ∧ (degraded.bay 2).presence.level = true ∧
      degraded.bayFor 2 2 = true ∧ degraded.igu.step = none ∧ (∀ (q : Nat), q ∈ degraded.positions → q ≠ 2 →
      degraded.member q = .active) ∧ (degraded.chan 2).queue Cls.write = [] ∧ degraded.stalledAt Requester.igu
      Cls.write = none ∧ (degraded.chan 2).waitingFor Cls.write = []) ∧
    ((List.find? (fun r => decide (r.op.job = Job.adoptLabel)) (adopting (anAdoption false false) [labelBack] (remade
      .degraded normal)).returns = some labelBack) ∧ labelBack.result = .ok [] ∧ (adopting (anAdoption false false)
      [labelBack] (remade .degraded normal)).igu.adoption = some (anAdoption false false) ∧ (anAdoption false
      false).labelled = false ∧ (anAdoption false false).position < 4 ∧ (anAdoption false false).position ∈ (adopting
      (anAdoption false false) [labelBack] (remade .degraded normal)).positions ∧ (adopting (anAdoption false false)
      [labelBack] (remade .degraded normal)).arr = some smallArray ∧ 1 ≤ smallArray.reserved ∧ (adopting (anAdoption
      false false) [labelBack] (remade .degraded normal)).ctm.state = .degraded ∧ (adopting (anAdoption false false)
      [labelBack] (remade .degraded normal)).member (anAdoption false false).position = .rebuilding ∧ (∀ (q : Nat), q
      ∈ (adopting (anAdoption false false) [labelBack] (remade .degraded normal)).positions → q ≠ (anAdoption false
      false).position → (adopting (anAdoption false false) [labelBack] (remade .degraded normal)).member q = .active)
      ∧ (adopting (anAdoption false false) [labelBack] (remade .degraded normal)).igu.step = none ∧ (adopting
      (anAdoption false false) [labelBack] (remade .degraded normal)).pwc.box = .run ∧ (adopting (anAdoption false
      false) [labelBack] (remade .degraded normal)).ckr.slot = some Slot.b ∧ 0 < 4 ∧ (adopting (anAdoption false
      false) [labelBack] (remade .degraded normal)).copySource 0 (anAdoption false false).position = some 0 ∧
      ((adopting (anAdoption false false) [labelBack] (remade .degraded normal)).chan (anAdoption false
      false).position).queue Cls.write = [] ∧ ((adopting (anAdoption false false) [labelBack] (remade .degraded
      normal)).chan (anAdoption false false).position).waitingFor Cls.write = [] ∧ ((adopting (anAdoption false false)
      [labelBack] (remade .degraded normal)).chan 0).queue Cls.rebuild = [] ∧ ((adopting (anAdoption false false)
      [labelBack] (remade .degraded normal)).chan 0).waitingFor Cls.rebuild = [] ∧ (adopting (anAdoption false false)
      [labelBack] (remade .degraded normal)).stalledAt Requester.igu Cls.write = none ∧ (adopting (anAdoption false
      false) [labelBack] (remade .degraded normal)).stalledAt Requester.ckr Cls.rebuild = none) ∧
    (copying.ckr.copy = some aCopy ∧ copying.igu.adoption = some (anAdoption true false) ∧ (anAdoption true
      false).position < 4 ∧ aCopy.writing = false ∧ (List.find? (fun r => decide (r.op.job = Job.copyRead))
      copying.returns = some copyBack) ∧ copying.copyAddresses aCopy copyBack = true ∧ copyBack.result = .ok [1] ∧
      copying.ctm.state ≠ .failed ∧ copying.member (anAdoption true false).position = .rebuilding ∧ copying.arr.isSome
      = true ∧ slotBase copying.reserved aCopy.slot + aCopy.unit ≤ 2 * copying.reserved ∧ (copying.chan (anAdoption
      true false).position).queue Cls.write = [] ∧ (copying.chan (anAdoption true false).position).waitingFor
      Cls.write = [] ∧ copying.stalledAt Requester.ckr Cls.write = none) ∧
    ((walks 8 (remade .rebuilding normal)).igu.adoption = some (anAdoption true true) ∧ (anAdoption true true).walking
      = true ∧ (anAdoption true true).closing = false ∧ (walks 8 (remade .rebuilding normal)).igu.rebuild = none ∧
      (walks 8 (remade .rebuilding normal)).ctm.state.attached = true ∧ (walks 8 (remade .rebuilding normal)).cont
      (walks 8 (remade .rebuilding normal)).igu.rebuildCursor = none ∧ (walks 8 (remade .rebuilding
      normal)).igu.rebuildCursor + 1 < (walks 8 (remade .rebuilding normal)).containerCount) ∧
    (toRebuild.igu.adoption = some (anAdoption true true) ∧ (anAdoption true true).walking = true ∧ (anAdoption true
      true).closing = false ∧ toRebuild.igu.rebuild = none ∧ toRebuild.ctm.state.attached = true ∧ toRebuild.cont
      toRebuild.igu.rebuildCursor = some oldCont ∧ oldCont.state = .sealed ∧ oldCont.seq = some 4 ∧ (anAdoption true
      true).seq = some 5 ∧ 4 < 5 ∧ toRebuild.igu.rebuildCursor < toRebuild.containerCount ∧ toRebuild.nMembers ≤
      toRebuild.mec.freeBuffers ∧ toRebuild.stalledAt Requester.igu Cls.rebuild = none ∧ (∀ (q : Nat), q ∈
      toRebuild.others (anAdoption true true).position → (toRebuild.chan q).queue Cls.rebuild = [] ∧ (toRebuild.chan
      q).waitingFor Cls.rebuild = [])) ∧
    ((rebuilding true writeBack).igu.rebuild = some (rebuildJob true) ∧ (List.find? (fun r => decide (r.op.job =
      Job.rebuildWrite)) (rebuilding true writeBack).returns = some writeBack) ∧ writeBack.result = .ok [] ∧
      (rebuildJob true).abandoned = false ∧ (rebuilding true writeBack).igu.adoption = some (anAdoption true true) ∧
      (rebuildJob true).container + 1 < (rebuilding true writeBack).containerCount ∧ (rebuilding true writeBack).cont
      (rebuildJob true).container = some (cont2 .sealed) ∧ (cont2 .sealed).live ≠ 0 ∧ (cont2 .sealed).kind =
      ContKind.data ∧ (rebuilding true writeBack).mec.bufferQueue = []) ∧
    ((rebuilding false readBack).igu.rebuild = some (rebuildJob false) ∧ (rebuildJob false).started = true ∧
      (rebuildJob false).writing = false ∧ (rebuilding false readBack).unitsBack (rebuildJob false).units
      Job.rebuildRead = true ∧ (rebuildJob false).abandoned = false ∧ (rebuilding false readBack).igu.adoption = some
      (anAdoption true true) ∧ (rebuilding false readBack).ctm.state ≠ .failed ∧ (rebuilding false readBack).cont
      (rebuildJob false).container = some (cont2 .sealed) ∧ (cont2 .sealed).live ≠ 0 ∧ (cont2 .sealed).kind =
      ContKind.data ∧ (rebuilding false readBack).mec.bufferQueue = [] ∧ (∀ (p : Fin 4), unitAt (unitsAfter
      (rebuildJob false).units ((rebuilding false readBack).returned fun x => decide (x = Job.rebuildRead)) []
      (rebuildJob false).reread) ↑p ≠ UnitRead.out) ∧ 0 < (rebuilding false readBack).layout.members ∧ 0 ≠ (anAdoption
      true true).position ∧ (unitAt (unitsAfter (rebuildJob false).units ((rebuilding false readBack).returned fun x
      => decide (x = Job.rebuildRead)) [] (rebuildJob false).reread) 0 = UnitRead.failed) ∧ (rebuildJob
      false).container + 1 < (rebuilding false readBack).containerCount) ∧
    (sourcesBack.igu.rebuild = some goodJob ∧ goodJob.started = true ∧ goodJob.writing = false ∧ sourcesBack.unitsBack
      goodJob.units Job.rebuildRead = true ∧ goodJob.abandoned = false ∧ sourcesBack.igu.adoption = some (anAdoption
      true true) ∧ (anAdoption true true).position < 4 ∧ sourcesBack.ctm.state ≠ .failed ∧ sourcesBack.member
      (anAdoption true true).position = .rebuilding ∧ sourcesBack.arr.isSome = true ∧ goodJob.container <
      sourcesBack.containerCount ∧ (∀ (p : Fin 4), unitAt (unitsAfter goodJob.units (sourcesBack.returned fun x =>
      decide (x = Job.rebuildRead)) [] goodJob.reread) ↑p ≠ UnitRead.out) ∧ (List.filter (fun q => decide (q ≠
      (anAdoption true true).position)) (Stripe.mk (sourcesBack.layout) (goodJob.container) (unitsAfter goodJob.units
      (sourcesBack.returned fun x => decide (x = Job.rebuildRead)) [] goodJob.reread)).missing = []) ∧ (1 ≤
      ((Stripe.mk (sourcesBack.layout) (goodJob.container) (unitsAfter goodJob.units (sourcesBack.returned fun x =>
      decide (x = Job.rebuildRead)) [] goodJob.reread)).xorOthers (anAdoption true true).position).length) ∧
      (((Stripe.mk (sourcesBack.layout) (goodJob.container) (unitsAfter goodJob.units (sourcesBack.returned fun x =>
      decide (x = Job.rebuildRead)) [] goodJob.reread)).xorOthers (anAdoption true true).position).length ≤ unitSize)
      ∧ (sourcesBack.chan (anAdoption true true).position).queue Cls.rebuild = [] ∧ (sourcesBack.chan (anAdoption true
      true).position).waitingFor Cls.rebuild = [] ∧ sourcesBack.stalledAt Requester.igu Cls.rebuild = none) ∧
    ((List.find? (fun r => decide (r.op.job = Job.finalLabel)) (adopting (anAdoption true true) [finalBack] (remade
      .rebuilding normal)).returns = some finalBack) ∧ finalBack.result = .ok [] ∧ (adopting (anAdoption true true)
      [finalBack] (remade .rebuilding normal)).igu.adoption = some (anAdoption true true) ∧ (anAdoption true
      true).position < 4 ∧ (adopting (anAdoption true true) [finalBack] (remade .rebuilding normal)).ctm.state =
      .rebuilding ∧ (adopting (anAdoption true true) [finalBack] (remade .rebuilding normal)).member (anAdoption true
      true).position = .rebuilding ∧ (∀ (q : Nat), q ∈ (adopting (anAdoption true true) [finalBack] (remade
      .rebuilding normal)).positions → q ≠ (anAdoption true true).position → (adopting (anAdoption true true)
      [finalBack] (remade .rebuilding normal)).member q = .active) ∧ (adopting (anAdoption true true) [finalBack]
      (remade .rebuilding normal)).igu.step = none ∧ (adopting (anAdoption true true) [finalBack] (remade .rebuilding
      normal)).pwc.box = .run) := by
  and_intros <;> decide +kernel

theorem witness_SleepEntry :
    (normal.pwc.box = .run ∧ normal.ctm.state ≠ .failed ∧ normal.ctm.state ≠ .attaching ∧ normal.mec.state = .ready ∧
      normal.ckr.op = CkrOp.none ∧ normal.streamsFree = true ∧ normal.rearranging = false ∧ normal.igu.step = none) ∧
    ((ingesting 7 openStream).pwc.box = .run ∧ (ingesting 7 openStream).ctm.state ≠ .failed ∧ (ingesting 7
      openStream).ctm.state ≠ .attaching ∧ (ingesting 7 openStream).mec.state = .ready ∧ (ingesting 7
      openStream).ckr.op = CkrOp.none ∧ (ingesting 7 openStream).streamsFree = false) ∧
    ((reader15 seeker).pwc.box = .run ∧ (reader15 seeker).ctm.state ≠ .failed ∧ (reader15 seeker).ctm.state ≠
      .attaching ∧ (reader15 seeker).mec.state = .ready ∧ (reader15 seeker).ckr.op = CkrOp.none ∧ (reader15
      seeker).streamsFree = false) ∧
    ((entering 2).atStep 2 = true ∧ (entering 2).entryDrained = true ∧ (entering 2).pwc.cause = none ∧ (entering
      2).ctm.state.attached = true) ∧
    ((entering 3).atStep 3 = true ∧ (entering 3).sealDone SealBy.sleepEntry = true ∧ (entering 3).pwc.cause = none) ∧
    ((enteringOff 4).atStep 4 = true ∧ (enteringOff 4).ckr.ckpt = none ∧ (enteringOff 4).pwc.cause = none ∧
      (enteringOff 4).pwc.sleepTag = some 7 ∧ (∀ (p : Nat), p < 4 → (enteringOff 4).member p ≠ .active ∧ (enteringOff
      4).member p ≠ .standby) ∧ (∀ (b : Nat), b < 4 → ((enteringOff 4).bay b).enable = false)) ∧
    ((entering 4).atStep 4 = true ∧ (entering 4).ckr.ckpt = none ∧ (entering 4).pwc.cause = none ∧ (∃ p, p < 4 ∧
      ((entering 4).member p = .active ∨ (entering 4).member p = .standby))) ∧
    (offAsked.atStep 5 = true ∧ 2 < 4 ∧ 1 < 4 ∧ 1 ≠ 2 ∧ offAsked.member 1 = .active ∧ offAsked.pwc.standbyAsks[2]? =
      some (some StandbyAsk.sleepEntry) ∧ offAsked.member 2 = .standby ∧ (offAsked.chan 2).bay = some 2 ∧
      offAsked.igu.step = none ∧ (offAsked.ctm.state.attached = true → offAsked.derived = offAsked.ctm.state)) ∧
    (gracing.atStep 6 = true ∧ gracing.pwc.graceTimer.isSome = true) ∧
    (fallingAsleep.mec.entryAsked = true ∧ fallingAsleep.mec.state = .ready ∧ fallingAsleep.atStep 7 = true ∧
      fallingAsleep.pwc.lateCause = none) := by
  and_intros <;> decide +kernel

theorem witness_WakesAndEvents :
    (sleeping.pwc.box = .asleep) ∧
    (sleepingAlarm.pwc.box = .asleep ∧ sleepingAlarm.pwc.alarm = some 0 ∧ (0 : Time) ≤ sleepingAlarm.pwc.time) ∧
    (sleeping.pwc.box = .asleep ∧ sleeping.pwc.filterActive = true ∧ sleeping.pwc.considers lanBytes = true ∧
      sleeping.pwc.tryPatterns (List.take (lanBytes.length - 4) lanBytes) (List.range 8) = (matched, some 7)) ∧
    (sleeping.pwc.filterActive = true ∧ sleeping.pwc.considers [] = false) ∧
    (leaving.mec.exitAsked = true ∧ leaving.mec.state = .selfRefresh ∧ leaving.pwc.box = .waking) ∧
    (normal.pwc.box = .run) ∧
    (alarmDue.pwc.box = .run ∧ alarmDue.pwc.alarm = some 0 ∧ 0 ≤ alarmDue.pwc.time) := by
  decide +kernel

theorem witness_PowerSettings :
    (normal.ctm.state ≠ .failed ∧ normal.pwc.spinQueue = [] ∧ normal.spinningCount ≤ max 1 (min 4 9)) ∧
    (normal.ctm.state ≠ .failed ∧ (List.replicate 6 1).length = 6) ∧
    (normal.ctm.state ≠ .failed ∧ 7 < 8 ∧ (List.replicate 16 1).length = 16) ∧
    (2 ≤ 2) ∧
    (2 < 3) := by
  decide +kernel

theorem witness_MemoryRuns :
    (State.reset.mec.state = .initialising ∧ (4294967296 = 536870912 ∨ 4294967296 = 1073741824 ∨ 4294967296 =
      2147483648 ∨ 4294967296 = 4294967296)) ∧
    (State.reset.mec.state = .initialising) ∧
    (up.mec.state = .ready ∧ up.mec.refreshRunning = true ∧ up.mec.owed = 0) ∧
    ((owing 8).mec.state = .ready ∧ (owing 8).mec.refreshRunning = true ∧ 1 ≤ (owing 8).mec.owed) ∧
    ((lending 8).askerWaits BufAsker.rebuild = false ∧ 0 ≤ (lending 8).mec.freeBuffers) ∧
    ((lending 128).askerWaits BufAsker.rebuild = false ∧ (lending 128).mec.freeBuffers < 1) ∧
    ((lending 8).askerWaits BufAsker.scrub = false ∧ (lending 8).mec.bufferQueue = []) ∧
    (up.inUse = false ∧ up.mec.size = some 1073741824) ∧
    (marked.inUse = false ∧ marked.mec.marker = some aMarker ∧ marked.mec.size = some 1073741824 ∧ poolFor 1073741824
      aMarker.buckets aMarker.containers = some 67108864) ∧
    (up.inUse = false ∧ up.mec.marker = none) := by
  decide +kernel

theorem witness_BurstsReachMemory :
    (up.mec.state = .ready ∧ up.mec.entryAsked = false ∧ up.mec.bursts = [] ∧ up.tables.array = none ∧ up.mec.bad = []
      ∧ up.tables.bad = [] ∧ 1073741816 + 8 ≤ up.mec.size.getD 0 ∧ lastRead.admitted up.mec.map = true) ∧
    (up.mec.state = .ready ∧ up.mec.entryAsked = false ∧ up.mec.bursts = [] ∧ up.tables.array = none ∧ up.mec.bad = []
      ∧ up.tables.bad = [] ∧ 0 % 8 = 0 ∧ (List.replicate 4096 1).length % 8 = 0 ∧ 0 + (List.replicate 4096 1).length ≤
      up.mec.size.getD 0 ∧ firstWrite.admitted up.mec.map = true) ∧
    (up.mec.state = .ready ∧ up.mec.entryAsked = false ∧ up.mec.bursts = [] ∧ up.mec.bad = [] ∧ up.tables.bad = [] ∧
      2097144 % 8 = 0 ∧ 2097144 < 2097152 ∧ 2097144 + 8 ≤ up.mec.size.getD 0) ∧
    (memFailed.mec.state = .failed) ∧
    ((State.reset.mec.state = .initialising ∨ State.reset.mec.state = .selfRefresh ∨ State.reset.mec.state = .ready ∧
      State.reset.mec.entryAsked = true)) := by
  decide +kernel

theorem witness_FormingRuns :
    (present.ctm.state = .unformed ∧ present.pwc.box = .run ∧ present.mec.state = .ready ∧ layoutOf 1 = some
      Layout.parity3 ∧ 3 = Layout.parity3.members ∧ 3 ≤ [3, 0, 1].length ∧ distinctBays (List.take 3 [3, 0, 1]) = true
      ∧ bucketCountGood 65536 = true ∧ (∀ (b : Nat), b ∈ List.take 3 [3, 0, 1] → (present.bay b).presence.level =
      true) ∧ (∀ (p : Nat), p < 4 → (present.chan p).allQueued = [])) ∧
    (present.ctm.state = .unformed ∧ present.pwc.box = .run ∧ present.mec.state = .ready ∧ layoutOf 0 = some
      Layout.mirror2 ∧ 2 = Layout.mirror2.members ∧ 2 ≤ [3, 0, 0, 9].length ∧ distinctBays (List.take 2 [3, 0, 0, 9])
      = true ∧ bucketCountGood 65536 = true ∧ (∀ (b : Nat), b ∈ List.take 2 [3, 0, 0, 9] → (present.bay
      b).presence.level = true) ∧ (∀ (p : Nat), p < 4 → (present.chan p).allQueued = [])) ∧
    (normal.ctm.state ≠ .failed ∧ (normal.ctm.state ≠ .unformed ∨ normal.pwc.box ≠ .run ∨ normal.mec.state ≠ .ready)) ∧
    (sized.ckr.form = some (aForming .drives) ∧ (aForming .drives).stage = .drives ∧ ((aForming .drives).bays.length ≤
      (sized.returned fun j => decide (j = .labelRead)).length) ∧ sized.mec.size = some 1073741824 ∧ 7581 = min
      67108864 (sized.smallestDrive (aForming .drives).layout.members - 1 - 2 * (1073741824 / 65536 - 175)) ∧ 1 ≤ 7581
      ∧ poolFor 1073741824 (aForming .drives).buckets 7581 = some 67108864) ∧
    (labelsBack.ckr.form = some (aForming .labels) ∧ (aForming .labels).stage = .labels ∧ 2 * (aForming
      .labels).bays.length ≤ (labelsBack.returned isFormJob).length ∧ (∀ (r : Returned), r ∈ labelsBack.returned
      isFormJob → r.result ≠ .error) ∧ labelsBack.arr = some mirrorArray) ∧
    (formed.ckr.ckpt = some (ckptDone .forming true) ∧ (ckptDone .forming true).why = .forming ∧ (ckptDone .forming
      true).released = true ∧ formed.headersBack (ckptDone .forming true) = true ∧ 0 < formed.headersGood ∧
      formed.ckr.form = some (aForming .slot) ∧ formed.arr = some smallArray ∧ (∀ (r : Returned), (r ∈ formed.returned
      fun j => decide (j = .ckptHeader)) → r.result ≠ .error) ∧ formed.mec.map = some
      { buckets := 65536, containers := 10, pool := 67108864 }) := by
  decide +kernel

theorem witness_CheckpointRuns :
    (normal.ctm.state.attached = true ∧ normal.pwc.box = .run ∧ normal.ckr.ckpt = none) ∧
    ((checkpointing normal (aCkpt (.request 8) .holding) []).ctm.state.attached = true ∧ (checkpointing normal (aCkpt
      (.request 8) .holding) []).pwc.box = .run ∧ (checkpointing normal (aCkpt (.request 8) .holding)
      []).ckr.ckpt.isSome = true) ∧
    ((checkpointing normal (aCkpt (.request 7) .holding) []).ckr.ckpt = some (aCkpt (.request 7) .holding) ∧ (aCkpt
      (.request 7) .holding).phase = .holding ∧ (∀ (i : Nat), i < 8 → (checkpointing normal (aCkpt (.request 7)
      .holding) []).stream i = Stream.freeRecord) ∧ (checkpointing normal (aCkpt (.request 7) .holding) []).oru.paused
      = false ∧ (checkpointing normal (aCkpt (.request 7) .holding) []).oru.finishing = false ∧ (checkpointing normal
      (aCkpt (.request 7) .holding) []).oru.walkRead = SegRead.idle ∧ (checkpointing
      normal (aCkpt (.request 7) .holding) []).tables.holds = [] ∧ (checkpointing normal (aCkpt (.request 7) .holding)
      []).ctm.recordReqs = [] ∧ (checkpointing normal (aCkpt (.request 7) .holding) []).ctm.waiting = [] ∧
      (checkpointing normal (aCkpt (.request 7) .holding) []).ctm.reloc = none) ∧
    ((checkpointing normal (aCkpt (.request 7) .sealing) []).ckr.ckpt = some (aCkpt (.request 7) .sealing) ∧ (aCkpt
      (.request 7) .sealing).phase = .sealing ∧ (checkpointing normal (aCkpt (.request 7) .sealing) []).sealDone
      SealBy.checkpoint = true ∧ (checkpointing normal (aCkpt (.request 7) .sealing) []).arr = some smallArray) ∧
    ((checkpointing normal (bodyOut 10000) [bodyBack]).ckr.ckpt = some (bodyOut 10000) ∧ (bodyOut 10000).phase =
      .copying ∧ (bodyOut 10000).out = [2] ∧ (bodyOut 10000).retake = false ∧ bodyBack.result = .ok [] ∧ (List.find?
      (fun r => decide (r.op.job = Job.ckptBody) && decide (r.position = 2)) (checkpointing normal (bodyOut 10000)
      [bodyBack]).returns = some bodyBack)) ∧
    ((checkpointing normal (bodyOut 0) [bodyBack]).ckr.ckpt = some (bodyOut 0) ∧ (bodyOut 0).phase = .copying ∧
      (bodyOut 0).out = [2] ∧ (bodyOut 0).retake = false ∧ bodyBack.result = .ok [] ∧ (List.find? (fun r => decide
      (r.op.job = Job.ckptBody) && decide (r.position = 2)) (checkpointing normal (bodyOut 0) [bodyBack]).returns =
      some bodyBack)) ∧
    ((checkpointing normal (ckptDone (.request 7) false) [headerBack]).ckr.ckpt = some (ckptDone (.request 7) false) ∧
      (ckptDone (.request 7) false).released = false ∧ (checkpointing normal (ckptDone (.request 7) false)
      [headerBack]).headersBack (ckptDone (.request 7) false) = true ∧ 0 < (checkpointing normal (ckptDone (.request
      7) false) [headerBack]).headersGood ∧ (checkpointing normal (ckptDone (.request 7) false)
      [headerBack]).ctm.deferred = []) ∧
    ((checkpointing normal (ckptDone (.request 7) true) [headerBack]).ckr.ckpt = some (ckptDone (.request 7) true) ∧
      (ckptDone (.request 7) true).why = .request 7 ∧ (ckptDone (.request 7) true).released = true ∧ (checkpointing
      normal (ckptDone (.request 7) true) [headerBack]).headersBack (ckptDone (.request 7) true) = true ∧ 0 <
      (checkpointing normal (ckptDone (.request 7) true) [headerBack]).headersGood ∧ (∀ (r : Returned), (r ∈
      (checkpointing normal (ckptDone (.request 7) true) [headerBack]).returned fun j => decide (j = .ckptHeader)) →
      r.result ≠ .error)) := by
  decide +kernel

theorem witness_AttachRuns :
    (present.ctm.state = .unformed ∧ present.pwc.box = .run ∧ present.mec.state = .ready ∧
      (∀ (p : Nat), p < 4 → (present.chan p).allQueued = [])) ∧
    (labelled.ckr.attach = some (anAttach .labels) ∧ (anAttach .labels).stage = .labels ∧ ((anAttach
      .labels).bays.length ≤ (labelled.returned fun j => decide (j = .labelRead)).length) ∧ (labelsRead
      (labelled.returned fun j => decide (j = .labelRead)) = [(3, aLabel 0), (0, aLabel 1)]) ∧ (aLabel 0).agrees
      (aLabel 1) = true ∧ (aLabel 0).layout = Layout.mirror2 ∧ (aLabel 0).position = 0 ∧ (aLabel 1).position = 1 ∧
      ((aLabel 0).incomplete = false) ∧ ((aLabel 1).incomplete = false) ∧ some (aLabel 0).memory = labelled.mec.size ∧
      labelled.mec.marker = none ∧ labelled.member 3 ≠ .failed ∧ labelled.member 0 ≠ .failed) ∧
    ((attaching present (anAttach .labels) [labelIn 3 [], labelIn 0 [1]]).ckr.attach = some (anAttach .labels) ∧
      (anAttach .labels).stage = .labels ∧ ((anAttach .labels).bays.length ≤ ((attaching present (anAttach .labels)
      [labelIn 3 [], labelIn 0 [1]]).returned fun j => decide (j = .labelRead)).length) ∧ (labelsRead ((attaching
      present (anAttach .labels) [labelIn 3 [], labelIn 0 [1]]).returned fun j => decide (j = .labelRead)) = [])) ∧
    (headed.ckr.attach = some (anAttach .headers) ∧ (anAttach .headers).stage = .headers ∧ headed.stillOut isHeaderJob
      = false ∧ (anAttach .headers).label = some (aLabel 0) ∧ (anAttach .headers).warm = false ∧ knowsHeads .headers =
      { tag := (anAttach .headers).tag, stage := (anAttach .headers).stage, bays := (anAttach .headers).bays, usable := (anAttach .headers).usable, warm := (anAttach .headers).warm, label := (anAttach .headers).label, heads := headsRead (headed.returned isHeaderJob) (aLabel 0), slot := (anAttach .headers).slot, seq := (anAttach .headers).seq, otherTried := (anAttach .headers).otherTried, sources := (anAttach .headers).sources, whole := (anAttach .headers).whole, units := (anAttach .headers).units, scanning := (anAttach .headers).scanning, rest := (anAttach .headers).rest, misses := (anAttach .headers).misses, accepted := (anAttach .headers).accepted, items := (anAttach .headers).items, applied := (anAttach .headers).applied, walking := (anAttach .headers).walking, directories := (anAttach .headers).directories, derived := (anAttach .headers).derived, figures := (anAttach .headers).figures }
      ∧ highest ((knowsHeads .headers).held [false, true]) = some (true, 6) ∧ (knowsHeads .headers).headerOf (slotOf
      (true, 6).fst) (true, 6).snd = some aHeader ∧ (knowsHeads .headers).holders (true, 6).fst (true, 6).snd = [0,
      1]) ∧
    (bodied.ckr.attach = some (knowsHeads .body) ∧ (knowsHeads .body).stage = .body ∧ bodied.stillOut isBodyJob =
      false ∧ (knowsHeads .body).label = some (aLabel 0) ∧ (knowsHeads .body).headerOf (knowsHeads .body).slot
      (knowsHeads .body).seq = some aHeader ∧ (∀ (r : Returned), r ∈ bodied.returned isBodyJob → r.result.bytes.isSome
      = true) ∧ (([] : Assoc (List Byte)) = List.foldl (fun m e => putKey m e.fst e.snd) (knowsHeads .body).units
      (List.filterMap (fun r => Option.map (fun bs => (bodyUnitOf r.op.job, bs)) r.result.bytes) (bodied.returned
      isBodyJob))) ∧ (([] : List Byte) = List.take aHeader.bodyLength (List.map (fun u => (getKey ([] : Assoc (List
      Byte)) u).getD []) (List.range (bodyUnits aHeader.bodyLength))).flatten) ∧ crc32 [] = aHeader.bodyCrc ∧
      ((bodied.mec.size.bind fun m => poolFor m (aLabel 0).buckets (aLabel 0).containers) = some aHeader.pool) ∧ (∀ (p
      : Nat), p ∈ (knowsHeads .body).usable → ((knowsHeads .body).heads.any fun x => decide (x.position = p) && decide
      (x.header.seq = (knowsHeads .body).seq)) = true) ∧ (aLabel 0).layout.members ≤ (knowsHeads .body).usable.length
      + 1 ∧ (knowsHeads .body).accepted = []) := by
  decide +kernel

theorem witness_ReplayRuns :
    ((scanning 2 [8]).ckr.attach = some (scanAtt 2 [8]) ∧ (scanAtt 2 [8]).stage = .scan ∧ (scanAtt 2 [8]).scanning =
      some 9 ∧ (((scanning 2 [8]).stillOut fun j => decide (j = .scanRead)) = false) ∧ (scanAtt 2 [8]).rest = [8] ∧
      (scanAtt 2 [8]).misses < 3 ∧ ((((Stripe.mk ((scanning 2 [8]).layout) (9) (scanUnits ((scanning 2 [8]).returned
      fun j => decide (j = .scanRead)))).scanArea).bind fun e => acceptArea (scanning 2 [8]).layout 9 (scanning 2
      [8]).ckr.q e.1) = none)) ∧
    ((scanning 3 [8]).ckr.attach = some (scanAtt 3 [8]) ∧ (scanAtt 3 [8]).stage = .scan ∧ (scanAtt 3 [8]).scanning =
      some 9 ∧ (((scanning 3 [8]).stillOut fun j => decide (j = .scanRead)) = false) ∧ (scanAtt 3 [8]).misses = 3 ∧
      (scanAtt 3 [8]).accepted = [] ∧ ((((Stripe.mk ((scanning 3 [8]).layout) (9) (scanUnits ((scanning 3
      [8]).returned fun j => decide (j = .scanRead)))).scanArea).bind fun e => acceptArea (scanning 3 [8]).layout 9
      (scanning 3 [8]).ckr.q e.1) = none)) ∧
    ((attaching (holding 1 openedObj) (applying sealItem) []).ckr.attach = some (applying sealItem) ∧ (applying
      sealItem).stage = .apply ∧ (applying sealItem).walking = none ∧ (applying sealItem).items = [ReplayItem.record 2
      0 (some (RecipeRec.closing 1 8 1 2 1 3 1))] ∧ (attaching (holding 1 openedObj) (applying sealItem) []).obj 1 =
      some openedObj ∧ openedObj.state = .opened ∧ 1 = openedObj.map.length) ∧
    ((attaching (holding 1 sealedObj) (applying albumsItem) []).ckr.attach = some (applying albumsItem) ∧ (applying
      albumsItem).stage = .apply ∧ (applying albumsItem).walking = none ∧ (applying albumsItem).items =
      [ReplayItem.record 2 0 (some (RecipeRec.albums 1 3))] ∧ (attaching (holding 1 sealedObj) (applying albumsItem)
      []).obj 1 = some sealedObj ∧ sealedObj.state = .sealed) ∧
    ((newEntries (ReplayItem.entry 9 (newEntry 2147549183 fp8))).replays (applying (ReplayItem.entry 9 (newEntry
      2147549183 fp8))) (ReplayItem.entry 9 (newEntry 2147549183 fp8)) ∧ (newEntry 2147549183 fp8).kind = 0 ∧
      (newEntry 2147549183 fp8).handle ≠ noHandle ∧ (newEntries (ReplayItem.entry 9 (newEntry 2147549183
      fp8))).tables.isHandle (newEntry 2147549183 fp8).handle = true ∧ (newEntries (ReplayItem.entry 9 (newEntry
      2147549183 fp8))).tables.lostPart (newEntry 2147549183 fp8).handle = false ∧ (newEntries (ReplayItem.entry 9
      (newEntry 2147549183 fp8))).tables.entry (newEntry 2147549183 fp8).handle = none) ∧
    ((newEntries (ReplayItem.entry 9 (newEntry 3 fp8))).replays (applying (ReplayItem.entry 9 (newEntry 3 fp8)))
      (ReplayItem.entry 9 (newEntry 3 fp8)) ∧ (newEntry 3 fp8).kind = 0 ∧ (newEntry 3 fp8).handle ≠ noHandle ∧
      (newEntries (ReplayItem.entry 9 (newEntry 3 fp8))).tables.isHandle (newEntry 3 fp8).handle = true ∧ (newEntries
      (ReplayItem.entry 9 (newEntry 3 fp8))).tables.lostPart (newEntry 3 fp8).handle = false ∧ (newEntries
      (ReplayItem.entry 9 (newEntry 3 fp8))).tables.entry (newEntry 3 fp8).handle = some entryMoving) ∧
    ((newEntries (ReplayItem.entry 9 (newEntry 3 0))).replays (applying (ReplayItem.entry 9 (newEntry 3 0)))
      (ReplayItem.entry 9 (newEntry 3 0)) ∧ (newEntry 3 0).kind = 0 ∧ (newEntry 3 0).handle ≠ noHandle ∧ (newEntries
      (ReplayItem.entry 9 (newEntry 3 0))).tables.isHandle (newEntry 3 0).handle = true ∧ (newEntries
      (ReplayItem.entry 9 (newEntry 3 0))).tables.lostPart (newEntry 3 0).handle = false ∧ (newEntries
      (ReplayItem.entry 9 (newEntry 3 0))).tables.entry (newEntry 3 0).handle = some entryMoving) ∧
    ((attaching lostIndex (applying (ReplayItem.entry 9 (newEntry 7 0))) []).replays (applying (ReplayItem.entry 9
      (newEntry 7 0))) (ReplayItem.entry 9 (newEntry 7 0)) ∧ (newEntry 7 0).kind = 0 ∧ (newEntry 7 0).handle ≠
      noHandle ∧ (attaching lostIndex (applying (ReplayItem.entry 9 (newEntry 7 0))) []).tables.isHandle (newEntry 7
      0).handle = true ∧ (attaching lostIndex (applying (ReplayItem.entry 9 (newEntry 7 0))) []).tables.lostPart
      (newEntry 7 0).handle = true) ∧
    ((newEntries (ReplayItem.entry 9 (movedEntry fp8))).replays (applying (ReplayItem.entry 9 (movedEntry fp8)))
      (ReplayItem.entry 9 (movedEntry fp8)) ∧ (movedEntry fp8).kind = 1 ∧ (movedEntry fp8).handle ≠ noHandle ∧
      (newEntries (ReplayItem.entry 9 (movedEntry fp8))).tables.lostPart (movedEntry fp8).handle = false ∧ (newEntries
      (ReplayItem.entry 9 (movedEntry fp8))).tables.entry (movedEntry fp8).handle = some entryMoving ∧ entryMoving.fp
      = (movedEntry fp8).fp ∧ entryMoving.container ≠ 9 ∧ (newEntries (ReplayItem.entry 9 (movedEntry fp8))).cont 9 =
      some cont9 ∧ (newEntries (ReplayItem.entry 9 (movedEntry fp8))).cont entryMoving.container = some cont12 ∧
      cont12.live - fpLength (movedEntry fp8).fp ≠ 0 ∧ cont12.kind = ContKind.data) ∧
    ((newEntries (ReplayItem.entry 9 (movedEntry 0))).replays (applying (ReplayItem.entry 9 (movedEntry 0)))
      (ReplayItem.entry 9 (movedEntry 0)) ∧ (movedEntry 0).kind = 1 ∧ (movedEntry 0).handle ≠ noHandle ∧ ((newEntries
      (ReplayItem.entry 9 (movedEntry 0))).tables.lostPart (movedEntry 0).handle = true ∨ Option.any (fun x => decide
      (x.fp = (movedEntry 0).fp)) ((newEntries (ReplayItem.entry 9 (movedEntry 0))).tables.entry (movedEntry
      0).handle) = false)) ∧
    ((replayOn .opened [{ container := 2, offset := 0 }] segItem).replays (applying segItem) (ReplayItem.record 9 24
      (some (RecipeRec.segment 1 1 [3, 3]))) ∧ 1 ≠ 0 ∧ ((replayOn .opened [{ container := 2, offset := 0 }] segItem).obj
      1 = some (replayObj .opened [{ container := 2, offset := 0 }]) ∨ (replayOn .opened
      [{ container := 2, offset := 0 }] segItem).obj 1 = none ∧ replayObj .opened [{ container := 2, offset := 0 }] =
      { kind := 2, owner := 0, state := .opened, length := 0, chunks := 0, albums := 0, created := 0, sealedAt := 0, map := [], stream := none, walk := none, tail := none, recorded := true })
      ∧ (replayObj .opened [{ container := 2, offset := 0 }]).state = .opened ∧ 1 = (replayObj .opened
      [{ container := 2, offset := 0 }]).map.length ∧ (replayOn .opened [{ container := 2, offset := 0 }]
      segItem).cont 9 = some cont9 ∧ (∀ (h : Nat), h ∈ [3, 3] → (replayOn .opened
      [{ container := 2, offset := 0 }] segItem).tables.lostPart h = false ∧ Option.any (fun e => decide (e.refcount +
      [3, 3].count h ≤ 65535)) ((replayOn .opened [{ container := 2, offset := 0 }] segItem).tables.entry h) = true)) ∧
    ((replayOn .opened [{ container := 2, offset := 0 }] firstItem).replays (applying firstItem) (ReplayItem.record 9
      24 (some (RecipeRec.segment 65535 0 noHandles))) ∧ 65535 ≠ 0 ∧ ((replayOn .opened
      [{ container := 2, offset := 0 }] firstItem).obj 65535 = some Obj.replayed ∨ (replayOn .opened
      [{ container := 2, offset := 0 }] firstItem).obj 65535 = none ∧ Obj.replayed =
      { kind := 2, owner := 0, state := .opened, length := 0, chunks := 0, albums := 0, created := 0, sealedAt := 0, map := [], stream := none, walk := none, tail := none, recorded := true })
      ∧ Obj.replayed.state = .opened ∧ 0 = Obj.replayed.map.length ∧ (replayOn .opened
      [{ container := 2, offset := 0 }] firstItem).cont 9 = some cont9 ∧ (∀ (h : Nat), h ∈ noHandles
      → (replayOn .opened [{ container := 2, offset := 0 }] firstItem).tables.lostPart h = false ∧ Option.any (fun e
      => decide (e.refcount + noHandles.count h ≤ 65535)) ((replayOn .opened [{ container := 2, offset := 0 }]
      firstItem).tables.entry h) = true)) ∧
    ((replayOn .lost [] releaseItem).replays (applying releaseItem) (ReplayItem.record 9 24 (some (RecipeRec.release
      1))) ∧ (replayOn .lost [] releaseItem).obj 1 = some (replayObj .lost []) ∧ (∀ (i : Nat), i < 8 → ((replayOn
      .lost [] releaseItem).stream i).state ≠ .aborting) ∧ ((replayObj .lost []).state = .lost ∨ ((replayObj .lost
      []).state = .releasing ∧ (replayObj .lost []).walkEnded = true)) ∧ (replayObj .lost []).map = []) ∧
    ((releasingOn .ended []).replays (applying releaseItem) (ReplayItem.record 9 24 (some (RecipeRec.release 1))) ∧
      (releasingOn .ended []).obj 1 = some (releasingObj .ended []) ∧ (∀ (i : Nat), i < 8 → ((releasingOn .ended
      []).stream i).state ≠ .aborting) ∧ ((releasingObj .ended []).state = .lost ∨ ((releasingObj .ended []).state =
      .releasing ∧ (releasingObj .ended []).walkEnded = true)) ∧ (releasingObj .ended []).map = []) ∧
    ((releasingOn .segments [{ container := 2, offset := 0 }]).replays (applying releaseItem) (ReplayItem.record 9 24
      (some (RecipeRec.release 1))) ∧ (releasingOn .segments [{ container := 2, offset := 0 }]).obj 1 = some
      (releasingObj .segments [{ container := 2, offset := 0 }]) ∧ (∀ (i : Nat), i < 8 → ((releasingOn .segments
      [{ container := 2, offset := 0 }]).stream i).state ≠ .aborting) ∧ (releasingObj .segments
      [{ container := 2, offset := 0 }]).state = .releasing ∧ (releasingObj .segments
      [{ container := 2, offset := 0 }]).walkEnded = false) ∧
    ((replayOn .releasePending [{ container := 2, offset := 0 }] releaseItem).replays (applying releaseItem)
      (ReplayItem.record 9 24 (some (RecipeRec.release 1))) ∧ (replayOn .releasePending
      [{ container := 2, offset := 0 }] releaseItem).obj 1 = some (replayObj .releasePending
      [{ container := 2, offset := 0 }]) ∧ (∀ (i : Nat), i < 8 → ((replayOn .releasePending
      [{ container := 2, offset := 0 }] releaseItem).stream i).state ≠ .aborting) ∧ ((replayObj .releasePending
      [{ container := 2, offset := 0 }]).state = .sealed ∨ (replayObj .releasePending
      [{ container := 2, offset := 0 }]).state = .opened ∨ (replayObj .releasePending
      [{ container := 2, offset := 0 }]).state = .releasePending)) ∧
    ((attaching walked (anAttach .walks) []).ckr.attach = some (anAttach .walks) ∧ (anAttach .walks).stage = .walks ∧
      (attaching walked (anAttach .walks) []).walksDone = true ∧ (anAttach .walks).applied = [] ∧ (attaching walked
      (anAttach .walks) []).tables.containers = [(2, cont2 .draining)] ∧ (cont2 .draining).kind = ContKind.data ∧
      (cont2 .draining).live ≠ 0) ∧
    ((attaching walked dirAttach []).ckr.attach = some dirAttach ∧ dirAttach.stage = .walks ∧ (attaching walked
      dirAttach []).walksDone = true ∧ dirAttach.dataApplied = [2]) ∧
    (closing.ckr.ckpt = some (ckptDone .closing true) ∧ (ckptDone .closing true).why = .closing ∧ (ckptDone .closing
      true).released = true ∧ closing.headersBack (ckptDone .closing true) = true ∧ 0 < closing.headersGood ∧
      closing.ckr.attach = some (anAttach .closing) ∧ closing.ctm.waiting = [] ∧ (∀ (r : Returned), (r ∈
      closing.returned fun j => decide (j = .ckptHeader)) → r.result ≠ .error)) := by
  and_intros <;> decide +kernel

theorem witness_StepKeepsSettings : SettingsLegal wQueue ∧ step wQueue = .next (after .timeTick { wQueue with pending := [] }) := by
  refine ⟨?_, rfl⟩
  constructor <;> decide +kernel

/-! ## Table records read back as they are packed (R27, R73; log entry 8) -/

/-- R91: the source of a relocation that the array's failure abandoned does not go FREE with its last byte. -/
theorem test_abandoned_source_stays :
    let s := (relocating .chunk).relocAbandoned.setCont 2 (some { cont2 .draining with live := 0 })
    (s.testFree 2).cont 2 = some { cont2 .draining with live := 0 } := by decide +kernel
/-- R163, R166: with the last spin-up gone at an attach that fails, S in force falls to the limit last requested. -/
theorem test_limit_falls :
    let s := (member2 normal .spinningUp).onPwc fun w => { w with limit := 2, limitAsked := 1 }
    (s.pwc.limit, s.unform.pwc.limit) = (2, 1) := by decide +kernel
/-- R12: a RESOLVED record whose hold is still to be confirmed is none of the four VERIFYING, and a lookup is issued beside three. -/
theorem test_three_verifying_look_up :
    let v := { recVerify with work := .reading }
    let q := [{ v with no := 0 }, { v with no := 1 }, { v with no := 2 }, { v with no := 3, stage := .resolved, work := .confirm },
      { rec8 .waitingLookup .idle with no := 4 }]
    ((after (.lookupIssue 7) (ingesting 7 { openStream with received := 40, chunked := 40, queue := q, nextNo := 5 })).stream
      7).queue.map (fun r => r.work) = [.reading, .reading, .reading, .confirm, .lookupSent] := by decide +kernel
/-- R182: a header read that waits for its buffers when the array fails has the container's kind taken as DATA; the sum of 0 then
takes it through DRAINING to FREE. -/
theorem test_recovery_in_failed_array :
    let j := { chunkJob with who := .recover 2, handle := none, check := .area, phase := .waiting, buffered := none }
    let s := held8 1
    let s := { s with ctm := { s.ctm with recovering := [(2, false)], reads := [(5, j)] },
                      tables := { s.tables with entries := [] } }
    (s.ctmArrayFailed.ctm.recovering, s.ctmArrayFailed.ctm.reports, s.ctmArrayFailed.ctm.reads,
      ((after (.sumOfLengths 2) s.ctmArrayFailed).cont 2).isNone) = ([(2, true)], [], [], true) := by decide +kernel
/-- R190, R95 (its table leads from ABSENT to OFF alone): a stale drive stays ABSENT when the standby command that it was carrying
ends. -/
theorem test_stale_standby_ends :
    let busy := { activeChan 1 with current := some standbyOp }
    let s := { normal with chans := normal.chans.set 1 busy }
    ((s.dropPositions [1]).member 1, (after (.standbyOperationEnd 1 true) (s.dropPositions [1])).member 1) =
      (.absent, .absent) := by decide +kernel

theorem test_packed_entry_read_back :
    let e : IdxEntry := { state := .damaged, fp := 281474976710655, container := 67108863, offset := 258047, refcount := 65535,
                          move := some 6 }
    e.packed.length ≤ 32 ∧ unpackedEntry e.packed = some e := by decide +kernel

theorem test_packed_container_read_back :
    let r : Container := { state := .opened, kind := .recipe, seq := none, live := 258047, segRefs := 255, entries := 255,
                           fill := 258047, reads := 200, scarred := true }
    r.packed.length = 16 ∧ Container.unpacked r.packed = some r := by decide +kernel

/-! ## A data area that checks

Its CRC is not computed here: an area that holds the CRC of itself with a zero field checks, whatever its bytes are. -/

theorem areaGood_of_field (l : Layout) (pre post : List Byte) (h : pre.length = areaCrcAt l) :
    areaGood l (pre ++ (leBytes 4 (crc32 (pre ++ (List.replicate 4 0 ++ post))).toNat ++ post)) = true := by
  generalize hc : crc32 (pre ++ (List.replicate 4 0 ++ post)) = c
  have hl : (leBytes 4 c.toNat).length = 4 := rfl
  have hv : leValue (leBytes 4 c.toNat) = c.toNat := by
    have := c.isLt
    simp only [leBytes, leValue, BitVec.toNat_ofNat]
    omega
  have hs : splice (pre ++ (leBytes 4 c.toNat ++ post)) (areaCrcAt l) (List.replicate 4 0) =
      pre ++ (List.replicate 4 0 ++ post) := by
    rw [← h, splice, List.take_left, List.length_replicate, List.drop_append, List.drop_append,
      List.drop_eq_nil_of_le (by omega)]
    simp [leBytes]
  rw [areaGood, areaCrc, hs, hc, ← h, List.drop_left, List.take_left' hl, hv]
  simp

def areaFields : List Byte := fieldBytes [⟨2, 0⟩, ⟨6, 5⟩, ⟨4, 0⟩]
def areaFront : List Byte := List.replicate 61440 0 ++ areaFields
def areaBack : List Byte := List.replicate 4080 0
def areaTail : List Byte := leBytes 4 (crc32 (areaFront ++ (List.replicate 4 0 ++ areaBack))).toNat ++ areaBack
/-- The data area of an empty DATA container with seal sequence 5, in MIRROR2. -/
def sealedBytes : List Byte := areaFront ++ areaTail
/-- A scan whose reads have brought the given bytes from both members. -/
def unitIn (bs : List Byte) (p : Nat) : Returned :=
  { position := p, op := readOp .read 9 0 unitSize .ckr .scanRead, result := .ok bs }
def scanBack (bs : List Byte) : State := attaching mirrored (scanAtt 2 [8]) [unitIn bs 0, unitIn bs 1]
def scanned9 (bs : List Byte) : Stripe :=
  { layout := (scanBack bs).layout, container := 9, units := scanUnits ((scanBack bs).returned fun j => j = .scanRead) }

theorem scanArea_of_good (bs : List Byte) (h : areaGood .mirror2 bs = true) :
    (scanned9 bs).scanArea = some (bs, none) := by
  have hm : (scanned9 bs).missing = [] := rfl
  have hl : (scanned9 bs).layout = .mirror2 := rfl
  have hj : (List.range Layout.mirror2.dataUnits) = [0] := rfl
  have hh : (scanned9 bs).holder 0 = 1 := by
    rw [Stripe.holder, hl]
    show dataMember 2 9 0 = 1
    decide
  have hu : unitAt (scanned9 bs).units 1 = .bytes bs := rfl
  have ha : (scanned9 bs).area = bs := by
    rw [Stripe.area, Stripe.areaWith, hl, hj, List.map_singleton, if_neg (by decide), hh, hu]
    exact List.append_nil bs
  simp only [Stripe.scanArea, hm, hl, ha, h, if_true]

theorem header_of_fields (area tail : List Byte) (h : area.drop Layout.mirror2.chunkSpace = areaFields ++ tail) :
    parseHeader (area.drop Layout.mirror2.chunkSpace) = some (.data, 5, 0) := by
  have hf : areaFields = [0, 0, 5, 0, 0, 0, 0, 0, 0, 0, 0, 0] := by decide
  rw [h, hf]
  rfl

theorem accepts_fields (area tail : List Byte) (h : area.drop Layout.mirror2.chunkSpace = areaFields ++ tail) :
    (acceptArea .mirror2 9 0 area).isSome = true := by
  have hp := header_of_fields area tail h
  unfold acceptArea
  generalize area.drop Layout.mirror2.chunkSpace = dir at hp ⊢
  simp [hp]

/-- A header whose sequence is not above Q is not accepted (R192). -/
theorem passes_fields (area tail : List Byte) (h : area.drop Layout.mirror2.chunkSpace = areaFields ++ tail) :
    acceptArea .mirror2 9 5 area = none := by
  have hp := header_of_fields area tail h
  unfold acceptArea
  generalize area.drop Layout.mirror2.chunkSpace = dir at hp ⊢
  simp [hp]

theorem sealedBytes_fields : sealedBytes.drop Layout.mirror2.chunkSpace = areaFields ++ areaTail := by
  rw [sealedBytes, areaFront, List.append_assoc]
  exact List.drop_left' (List.length_replicate ..)

theorem sealedBytes_check : (scanned9 sealedBytes).scanArea = some (sealedBytes, none) := by
  have hf : areaFront.length = areaCrcAt .mirror2 := by
    rw [areaFront, List.length_append, List.length_replicate]
    rfl
  exact scanArea_of_good _ (areaGood_of_field .mirror2 areaFront areaBack hf)

theorem scan_passes (bs : List Byte) (h : (scanned9 bs).scanArea = some (bs, none)) (ha : acceptArea .mirror2 9 5 bs = none) :
    let s := (scanBack bs).onCkr fun k => { k with q := 5 }
    ((Stripe.scanArea
      { layout := s.layout, container := 9, units := scanUnits (s.returned fun j => j = .scanRead) }).bind fun e =>
        acceptArea s.layout 9 s.ckr.q e.1) = none := by
  show ((scanned9 bs).scanArea.bind fun e => acceptArea .mirror2 9 5 e.1) = none
  rw [h]
  exact ha

/-- The area checks, and Q has reached its sequence. -/
theorem witness_ReplayRuns_passes :
    let s := (scanBack sealedBytes).onCkr fun k => { k with q := 5 }
    s.ckr.attach = some (scanAtt 2 [8]) ∧ (scanAtt 2 [8]).stage = .scan ∧ (scanAtt 2 [8]).scanning = some 9 ∧
    s.stillOut (fun j => j = .scanRead) = false ∧ (scanAtt 2 [8]).rest = [8] ∧ (scanAtt 2 [8]).misses < 3 ∧
    ((Stripe.scanArea
      { layout := s.layout, container := 9, units := scanUnits (s.returned fun j => j = .scanRead) }).bind fun e =>
        acceptArea s.layout 9 s.ckr.q e.1) = none := by
  exact ⟨rfl, rfl, rfl, rfl, rfl, by decide,
    scan_passes _ sealedBytes_check (passes_fields _ _ sealedBytes_fields)⟩

theorem witness_ReplayRuns_accepts : ∃ x,
    (scanBack sealedBytes).ckr.attach = some (scanAtt 2 [8]) ∧ (scanAtt 2 [8]).stage = .scan ∧
    (scanAtt 2 [8]).scanning = some 9 ∧ (scanBack sealedBytes).stillOut (fun j => j = .scanRead) = false ∧
    (scanAtt 2 [8]).rest = [8] ∧ (scanned9 sealedBytes).scanArea = some (sealedBytes, none) ∧
    acceptArea (scanBack sealedBytes).layout 9 (scanBack sealedBytes).ckr.q sealedBytes = some x := by
  obtain ⟨x, hx⟩ := Option.isSome_iff_exists.mp (accepts_fields _ _ sealedBytes_fields)
  exact ⟨x, rfl, rfl, rfl, rfl, rfl, sealedBytes_check, hx⟩

end Sys2Proof.Tests
end

/-! # Proofs: the chunk index -/

namespace Sys2Proof.Machine

/-! ## LOCATION (R44) -/

section Locate

variable {t : Tables} {h : Nat} {e : IdxEntry}

/-- A handle reads as no entry in the two cases that R44 answers alike: no handle at all, and an EMPTY entry. -/
theorem Tables.entry_eq_none_iff : t.entry h = none ↔ t.isHandle h = false ∨ getKey t.entries h = none := by
  unfold Tables.entry
  cases t.isHandle h <;> simp

theorem Tables.locate_of_lostPart (lost : t.lostPart h = true) : t.locate h = .dataLost none := by
  simp [Tables.locate, lost]

theorem Tables.locate_of_entry_none (kept : t.lostPart h = false) (empty : t.entry h = none) :
    t.locate h = .noEntry := by
  simp [Tables.locate, kept, empty]

theorem Tables.locate_of_damaged (kept : t.lostPart h = false) (held : t.entry h = some e)
    (damaged : e.state = .damaged) : t.locate h = .dataLost (some e.fp) := by
  simp [Tables.locate, kept, held, damaged]

theorem Tables.locate_of_not_damaged (kept : t.lostPart h = false) (held : t.entry h = some e)
    (intact : e.state ≠ .damaged) : t.locate h = .found e.state e.fp e.container e.offset := by
  simp [Tables.locate, kept, held, intact]

end Locate

/-- LOCATION sets IDX's answer and changes nothing else. -/
theorem exec_location (s : State) (h : Nat) :
    exec (.location h) s = .next { s with idx := { s.idx with answer := s.tables.locate h } } := rfl

/-- A LOCATION completes with the answer that the tables give. -/
theorem exec_location_of_locate {s : State} {h : Nat} {a : IdxAnswer} (located : s.tables.locate h = a) :
    exec (.location h) s = .next { s with idx := { s.idx with answer := a } } := by
  rw [exec_location, located]

/-- Settles O30, one answer of R44 for each clause. The index being in force is not used: the retained tables are answered
from in the same way (log entry 83). -/
theorem locationAnswers : Obligations.LocationAnswers := by
  intro s h _
  refine ⟨?lostPart, ?damaged, ?found, ?noEntry⟩
  case lostPart =>
    intro lost
    exact exec_location_of_locate (Tables.locate_of_lostPart lost)
  case damaged =>
    intro e kept held damaged
    exact exec_location_of_locate (Tables.locate_of_damaged kept held damaged)
  case found =>
    intro e kept held intact
    exact exec_location_of_locate (Tables.locate_of_not_damaged kept held intact)
  case noEntry =>
    intro kept empty
    exact exec_location_of_locate (Tables.locate_of_entry_none kept (Tables.entry_eq_none_iff.mpr empty))

end Sys2Proof.Machine

/-! # Proofs: the parity of a stripe -/

namespace Sys2Proof.Machine

/-! ## The byte-wise XOR of runs (R72)

Runs of one length form a group under `xorBytes` in which every run is its own inverse. -/

section Xor

variable {n : Nat}

theorem xorBytes_comm (a b : List Byte) : xorBytes a b = xorBytes b a :=
  List.zipWith_comm_of_comm BitVec.xor_comm

theorem xorBytes_assoc (a b c : List Byte) : xorBytes (xorBytes a b) c = xorBytes a (xorBytes b c) := by
  induction a generalizing b c with
  | nil => rfl
  | cons x xs ih =>
    cases b with
    | nil => rfl
    | cons y ys =>
      cases c with
      | nil => rfl
      | cons z zs => exact List.cons_eq_cons.mpr ⟨BitVec.xor_assoc x y z, ih ys zs⟩

@[simp] theorem length_xorBytes (a b : List Byte) : (xorBytes a b).length = min a.length b.length :=
  List.length_zipWith

theorem xorBytes_self (a : List Byte) : xorBytes a a = List.replicate a.length 0 := by
  refine List.ext_getElem ?_ fun i _ _ => ?_
  · rw [length_xorBytes, Nat.min_self, List.length_replicate]
  · simp only [xorBytes, List.getElem_zipWith, List.getElem_replicate]
    exact BitVec.xor_self

theorem xorBytes_zeros {a : List Byte} (ha : a.length = n) : xorBytes a (List.replicate n 0) = a := by
  refine List.ext_getElem ?_ fun i _ _ => ?_
  · rw [length_xorBytes, List.length_replicate, ha, Nat.min_self]
  · simp only [xorBytes, List.getElem_zipWith, List.getElem_replicate]
    exact BitVec.xor_zero

/-- The XOR of two runs taken once more with the first run gives the second. -/
theorem xorBytes_cancel_left {a b : List Byte} (ha : a.length = n) (hb : b.length = n) :
    xorBytes a (xorBytes a b) = b := by
  rw [← xorBytes_assoc, xorBytes_self, ha, xorBytes_comm, xorBytes_zeros hb]

theorem xorAll_cons (r : List Byte) (rs : List (List Byte)) :
    xorAll n (r :: rs) = xorBytes r (xorAll n rs) := by
  have assoc : Std.Associative xorBytes := ⟨xorBytes_assoc⟩
  rw [xorAll, xorAll, List.foldl_cons, xorBytes_comm, List.foldl_assoc]

theorem xorAll_concat (rs : List (List Byte)) (r : List Byte) :
    xorAll n (rs ++ [r]) = xorBytes (xorAll n rs) r := by
  rw [xorAll, xorAll, List.foldl_append, List.foldl_cons, List.foldl_nil]

theorem length_xorAll {rs : List (List Byte)} (hrs : ∀ r ∈ rs, r.length = n) : (xorAll n rs).length = n := by
  induction rs with
  | nil => exact List.length_replicate
  | cons r rs ih =>
    obtain ⟨hr, hrs⟩ := List.forall_mem_cons.mp hrs
    rw [xorAll_cons, length_xorBytes, hr, ih hrs, Nat.min_self]

/-- One run taken out of several: its XOR with the XOR of the others is the XOR of all. -/
theorem xorBytes_getElem_xorAll_eraseIdx {rs : List (List Byte)} {k : Nat} (hk : k < rs.length) :
    xorBytes rs[k] (xorAll n (rs.eraseIdx k)) = xorAll n rs := by
  induction rs generalizing k with
  | nil => exact absurd hk (Nat.not_lt_zero k)
  | cons r rs ih =>
    cases k with
    | zero => exact (xorAll_cons r rs).symm
    | succ k =>
      rw [List.getElem_cons_succ, List.eraseIdx_cons_succ, xorAll_cons, xorAll_cons, ← xorBytes_assoc,
        xorBytes_comm _ r, xorBytes_assoc, ih]

/-- Of runs whose XOR is zero, each is the XOR of the others. -/
theorem getElem_eq_xorAll_eraseIdx {rs : List (List Byte)} (hrs : ∀ r ∈ rs, r.length = n)
    (zero : xorAll n rs = List.replicate n 0) {k : Nat} (hk : k < rs.length) :
    rs[k] = xorAll n (rs.eraseIdx k) := by
  have hr : rs[k].length = n := hrs _ (List.getElem_mem hk)
  have ho : (xorAll n (rs.eraseIdx k)).length = n :=
    length_xorAll fun r hr => hrs r (List.mem_of_mem_eraseIdx hr)
  have split : xorBytes rs[k] (xorAll n (rs.eraseIdx k)) = List.replicate n 0 := by
    rw [xorBytes_getElem_xorAll_eraseIdx hk, zero]
  calc rs[k] = xorBytes rs[k] (List.replicate n 0) := (xorBytes_zeros hr).symm
    _ = xorBytes rs[k] (xorBytes rs[k] (xorAll n (rs.eraseIdx k))) := by rw [split]
    _ = xorAll n (rs.eraseIdx k) := xorBytes_cancel_left hr ho

end Xor

/-! ## The units of a stripe (R68, R70, R72) -/

/-- The data units of a stripe, cut from its data area. -/
def dataUnitsOf (l : Layout) (area : List Byte) : List (List Byte) :=
  (List.range l.dataUnits).map fun j => (area.drop (j * unitSize)).take unitSize

theorem stripeUnits_eq (l : Layout) (area : List Byte) :
    stripeUnits l area = dataUnitsOf l area ++ [xorAll unitSize (dataUnitsOf l area)] := rfl

theorem Layout.dataUnits_add_one (l : Layout) : l.dataUnits + 1 = l.members := by
  cases l <;> rfl

@[simp] theorem length_stripeUnits (l : Layout) (area : List Byte) : (stripeUnits l area).length = l.members := by
  rw [stripeUnits_eq, dataUnitsOf, List.length_append, List.length_map, List.length_range, List.length_singleton,
    l.dataUnits_add_one]

section Units

variable {l : Layout} {area : List Byte}

theorem length_of_mem_dataUnitsOf (full : area.length = l.dataUnits * unitSize) :
    ∀ u ∈ dataUnitsOf l area, u.length = unitSize := by
  intro u hu
  obtain ⟨j, hj, rfl⟩ := List.mem_map.mp hu
  have fits : (j + 1) * unitSize ≤ l.dataUnits * unitSize :=
    Nat.mul_le_mul_right _ (List.mem_range.mp hj)
  rw [List.length_take, List.length_drop, full]
  rw [Nat.succ_mul] at fits
  omega

theorem length_of_mem_stripeUnits (full : area.length = l.dataUnits * unitSize) :
    ∀ u ∈ stripeUnits l area, u.length = unitSize := by
  have data := length_of_mem_dataUnitsOf full
  intro u hu
  rw [stripeUnits_eq, List.mem_append, List.mem_singleton] at hu
  obtain inData | rfl := hu
  · exact data u inData
  · exact length_xorAll data

/-- The parity unit cancels the data units. -/
theorem xorAll_stripeUnits (full : area.length = l.dataUnits * unitSize) :
    xorAll unitSize (stripeUnits l area) = List.replicate unitSize 0 := by
  rw [stripeUnits_eq, xorAll_concat, xorBytes_self, length_xorAll (length_of_mem_dataUnitsOf full)]

end Units

/-- Settles O40: the units of a stripe, the parity unit among them, have XOR zero, so each is the XOR of the others. -/
theorem parityRelation : Obligations.ParityRelation := by
  intro l area full k hk
  have inUnits : k < (stripeUnits l area).length := by rwa [length_stripeUnits]
  rw [List.getElem?_eq_getElem inUnits,
    getElem_eq_xorAll_eraseIdx (length_of_mem_stripeUnits full) (xorAll_stripeUnits full) inUnits]

end Sys2Proof.Machine

namespace Sys2Proof.Machine

/-! ## Requests answered in the step that takes them -/

/-- An owner's answer where LNK's record is that of a request handed over (R199, R200). -/
theorem State.answer_of_handedOver {t : State} {l : Lnk} {c : Instr} (h : t.lnk = l.handedOver c) (tag kind : Nat)
    (st : Status) (fs : List Field) :
    t.answer tag kind st fs = { t with lnk := l.answered c (ownerReply tag kind st fs) } := by
  rw [State.answer_eq, h]
  rfl

theorem State.taken_eq (s : State) (c : Instr) : s.taken c = { s with lnk := s.lnk.handedOver c } := rfl

/-- A request that is taken and answered at once leaves LNK's record as `Lnk.answered` says. -/
theorem State.taken_answer (s : State) (c : Instr) (tag kind : Nat) (st : Status) (fs : List Field) :
    (s.taken c).answer tag kind st fs = { s with lnk := s.lnk.answered c (ownerReply tag kind st fs) } :=
  State.answer_of_handedOver rfl ..

theorem State.taken_refuse (s : State) (c : Instr) (tag kind : Nat) (st : Status) :
    (s.taken c).refuse tag kind st = { s with lnk := s.lnk.answered c (ownerReply tag kind st []) } :=
  State.taken_answer ..

@[simp] theorem State.statusOf_taken (s : State) (c : Instr) (n : Nat) : (s.taken c).statusOf n = s.statusOf n := by
  unfold State.statusOf
  rcases n with _|_|_|_|_|_|_|_|_|_|_|n <;> rfl

theorem State.statusOf_of_le (s : State) {n : Nat} (h : n ≤ 10) : ∃ fs, s.statusOf n = some fs := by
  unfold State.statusOf
  rcases n with _|_|_|_|_|_|_|_|_|_|_|n
  all_goals first | exact ⟨_, rfl⟩ | omega

theorem State.statusOf_of_gt (s : State) {n : Nat} (h : 10 < n) : s.statusOf n = none := by
  unfold State.statusOf
  rcases n with _|_|_|_|_|_|_|_|_|_|_|n
  all_goals first | rfl | omega

/-! ## The machine as a whole -/

/-- Settles O1, by the definition of a step on a queue that is not empty. -/
theorem stepRunsFrontCommand : Obligations.StepRunsFrontCommand := by
  intro c rest s h
  unfold step
  rw [h]

/-- Settles O6, by evaluating both invariants on the reset state. -/
theorem resetHoldsInvariants : Obligations.ResetHoldsInvariants := by
  refine ⟨rfl, ?_⟩
  constructor <;> decide

/-- Settles O17: every section up to 10 has figures, and no other number has. -/
theorem getStatusAnswers : Obligations.GetStatusAnswers := by
  refine ⟨fun s tag n hn => ?_, fun s tag n hn => ?_⟩
  · obtain ⟨fs, hfs⟩ := s.statusOf_of_le hn
    refine ⟨fs, hfs, ?_⟩
    change Host.Outcome.next ((s.taken _).getStatus tag n) = _
    rw [State.getStatus, State.statusOf_taken, hfs]
    exact congrArg _ (State.taken_answer ..)
  · change Host.Outcome.next ((s.taken _).getStatus tag n) = _
    rw [State.getStatus, State.statusOf_taken, s.statusOf_of_gt hn]
    exact congrArg _ (State.taken_refuse ..)

theorem Lnk.resetRecord_notices (start : List Field) (n : Fin 37) :
    ((Lnk.resetRecord start).notices[n].isSome = true) ↔ n.val = 0 := by
  simp [Lnk.resetRecord, Vector.getElem_set]
  grind

/-- Settles O12: the reset values by evaluation, the two resets by their definitions. -/
theorem resetsLeave : Obligations.ResetsLeave := by
  refine ⟨?_, fun s => rfl, fun s => ⟨_, rfl, ?_⟩⟩
  · decide
  · refine ⟨rfl, rfl, rfl, rfl, rfl, rfl, rfl, rfl, ?_, rfl, rfl, rfl, rfl, rfl, rfl, rfl, rfl, rfl, rfl, rfl, ?_, rfl⟩
    · simp [Mec.warm]
    · exact Lnk.resetRecord_notices _

theorem State.spinTest_of_idle (s : State) (n : Nat) (h : s.pwc.spinQueue = []) : s.spinTest n = s := by
  cases n <;> simp [State.spinTest, h]

/-- With no spin-up waiting, the new spin-up limit is in force at once when no more members than it are spinning up. -/
theorem State.spinChanged_askLimit (s : State) (idles : Vector Nat 4) (g v : Nat) (hq : s.pwc.spinQueue = [])
    (hc : s.spinningCount ≤ v) :
    (s.onPwc fun w => (w.policy idles g).askLimit v).spinChanged =
      s.onPwc fun w => { w.policy idles g with limit := v, limitAsked := v } := by
  have hfalls : (s.onPwc fun w => (w.policy idles g).askLimit v).limitFalls =
      s.onPwc fun w => { w.policy idles g with limit := v, limitAsked := v } := by
    have hcount : (s.onPwc fun w => (w.policy idles g).askLimit v).spinningCount = s.spinningCount := rfl
    unfold State.limitFalls
    rw [hcount]
    by_cases hv : s.pwc.limit < v
    · rw [if_neg (by simp [State.onPwc, Pwc.askLimit, Pwc.policy, hv])]
      simp [State.onPwc, Pwc.askLimit, Pwc.policy, hv]
    · by_cases he : v = s.pwc.limit
      · rw [if_neg (by simp [State.onPwc, Pwc.askLimit, Pwc.policy, hv]; omega)]
        simp [State.onPwc, Pwc.askLimit, Pwc.policy, he]
      · rw [if_pos (by simp [State.onPwc, Pwc.askLimit, Pwc.policy, hv]; omega)]
        rfl
  rw [State.spinChanged, hfalls, State.spinTest_of_idle _ _ (by exact hq)]

theorem clamp_eq (lo hi v : Nat) : clamp lo hi v = max lo (min hi v) := rfl

theorem padTo_of_length {n : Nat} {bs : List Byte} (h : bs.length = n) : padTo n bs = bs := by
  unfold padTo
  rw [h, Nat.sub_self]
  simp [← h]

theorem WakePattern.put_eq {bytes : List Byte} (h : bytes.length = 16) (off len : Nat) (mask : BitVec 16) (iv : Nat) :
    WakePattern.put 1 off len bytes mask iv =
      { enabled := true, offset := min 127 off, length := max 1 (min 16 len), bytes := bytes,
        mask := mask, interval := min 255 iv, lastWake := none } := by
  rw [WakePattern.put, padTo_of_length h]; rfl

theorem State.setPowerPolicy_eq {s : State} (c : Instr) (tag a b d e l g : Nat) (hs : s.ctm.state ≠ .failed)
    (hq : s.pwc.spinQueue = []) (hc : s.spinningCount ≤ clamp 1 4 l) :
    (s.taken c).setPowerPolicy tag a b d e l g = { s with
      pwc := { s.pwc.policy #v[min 255 a, min 255 b, min 255 d, min 255 e] (clamp 1 255 g) with
        limit := clamp 1 4 l, limitAsked := clamp 1 4 l }
      lnk := s.lnk.answered c (ownerReply tag kindSetPowerPolicy .ok
        [⟨2, min 255 a⟩, ⟨2, min 255 b⟩, ⟨2, min 255 d⟩, ⟨2, min 255 e⟩, ⟨1, clamp 1 4 l⟩, ⟨2, clamp 1 255 g⟩]) } := by
  have hc' : (s.taken c).spinningCount ≤ clamp 1 4 l := hc
  rw [State.setPowerPolicy, if_neg (by exact hs)]
  dsimp only
  rw [State.spinChanged_askLimit (s.taken c) _ _ _ (by exact hq) hc', State.answer_of_handedOver rfl]
  rfl

theorem State.setStation_eq {s : State} (c : Instr) (tag : Nat) {ad : List Byte} (hs : s.ctm.state ≠ .failed)
    (hl : ad.length = 6) : (s.taken c).setStation tag ad 1 = { s with
      pwc := { s.pwc with station := ad, broadcast := true },
      lnk := s.lnk.answered c (ownerReply tag kindSetStation .ok []) } := by
  rw [State.setStation, if_neg (by exact hs), padTo_of_length hl, State.answer_of_handedOver rfl]
  rfl

theorem State.setWakePattern_eq {s : State} (c : Instr) {n : Nat} (tag e off len : Nat) (bytes : List Byte)
    (mask : BitVec 16) (iv : Nat) (hs : s.ctm.state ≠ .failed) (hn : n < 8) :
    (s.taken c).setWakePattern tag n e off len bytes mask iv = { s with
      pwc := { s.pwc with patterns := s.pwc.patterns.setIfInBounds n (WakePattern.put e off len bytes mask iv) },
      lnk := s.lnk.answered c (ownerReply tag kindSetWakePattern .ok
        ((WakePattern.put e off len bytes mask iv).fields n)) } := by
  rw [State.setWakePattern, if_neg (by exact hs), if_neg (by omega)]
  exact State.answer_of_handedOver rfl ..

/-- SET_LAMPS with the code of a mode applies it; the bay lamps are driven from the first other mode on (R115). -/
theorem State.setLamps_eq (s : State) (c : Instr) (tag : Nat) (m : LampMode) :
    (s.taken c).setLamps tag m.code = { s with
      pwc := { s.pwc with lampMode := m, bayLampsDriven := s.pwc.bayLampsDriven || decide (m ≠ .normal) },
      lnk := s.lnk.answered c (ownerReply tag kindSetLamps .ok [⟨1, m.code⟩]) } := by
  cases m <;> exact State.answer_of_handedOver rfl ..

theorem LampMode.exists_code {n : Nat} (h : n ≤ 2) : ∃ m : LampMode, m.code = n := by
  obtain rfl | rfl | rfl : n = 0 ∨ n = 1 ∨ n = 2 := by omega
  · exact ⟨.normal, rfl⟩
  · exact ⟨.test, rfl⟩
  · exact ⟨.dark, rfl⟩

/-- Settles O54: each setting's request by its own equation. -/
theorem powerSettings : Obligations.PowerSettings := by
  refine ⟨fun s tag a b c d l g hs hq hc => ?_, fun s tag ad hs hl => ?_, fun s tag n off len bytes mask iv hs hn hb => ?_,
    fun s tag mode hm => ?_, fun s tag mode hm => ?_⟩
  · exact ⟨_, congrArg Host.Outcome.next (State.setPowerPolicy_eq _ _ a b c d l g hs hq hc), rfl, rfl, rfl, rfl, rfl, rfl⟩
  · exact congrArg Host.Outcome.next (State.setStation_eq _ tag hs hl)
  · refine ⟨_, congrArg Host.Outcome.next (State.setWakePattern_eq _ tag 1 off len bytes mask iv hs hn), ?_, fun m hm => ?_, rfl⟩
    · simp [hn, WakePattern.put_eq hb]
    · simp [Ne.symm hm]
  · obtain ⟨m, rfl⟩ := LampMode.exists_code hm
    refine ⟨_, congrArg Host.Outcome.next (State.setLamps_eq s _ tag m), rfl, fun h => ?_, rfl, rfl⟩
    cases m <;> simp_all [LampMode.code]
  · obtain ⟨n, rfl⟩ : ∃ n, mode = n + 3 := ⟨mode - 3, by omega⟩
    exact congrArg Host.Outcome.next (State.taken_refuse ..)
end Sys2Proof.Machine

/-! # Proofs: what commands leave as it is

The settings, the time, the grants, the frames, the array's identity, the memory and the index entries are the parts of the state
that statements about every command speak of. `State.standing` gathers them, and each operation of the model has one lemma that
says what it leaves of them. -/

namespace Sys2Proof.Machine

/-- The settings of PWC that only SET_POWER_POLICY, SET_STATION and SET_LAMPS change (R113, R166, R168). -/
structure PowerSettings where
  idleTimes : Vector Nat 4
  grace : Nat
  limitAsked : Nat
  station : List Byte
  broadcast : Bool
  lampMode : LampMode

/-- What a grant admits, and how much of its allowance remains (R116). -/
structure GrantTerms where
  albums : Albums
  notAfter : Time
  limit : Nat
  installed : Option Nat
  remaining : Option Nat

/-- The part of the state that statements about every command speak of and that only a few commands change. -/
structure Core where
  pending : List Instr
  power : PowerSettings
  time : Time
  patterns : Vector WakePattern 8
  period : Nat
  timer : Nat
  order : Nat
  frames : Vector (List Cls × Nat) 4
  terms : Vector GrantTerms 64
  owed : Nat
  identity : Option (Layout × Nat × Nat × Nat)

/-- The parts of the state that statements about every command speak of: beside the core, the spin-up limit in force, the index
entries and the memory, each of which a whole family of operations changes. -/
structure Standing where
  core : Core
  limit : Nat
  entries : Assoc IdxEntry
  mem : List Host.Cell

/-- The service frame of a channel, with the position in it (R94). -/
abbrev Channel.framing (c : Channel) : List Cls × Nat := (c.frame, c.position)

/-- The terms of a grant (R116). -/
abbrev Grant.terms (g : Grant) : GrantTerms :=
  { albums := g.albums, notAfter := g.notAfter, limit := g.limit, installed := g.installed, remaining := g.remaining }

/-- What no change of the array record touches (R68). -/
abbrev ArrayRec.identity (a : ArrayRec) : Layout × Nat × Nat × Nat := (a.layout, a.number, a.reserved, a.containers)

/-- PWC's settings. -/
abbrev Pwc.settings (w : Pwc) : PowerSettings :=
  { idleTimes := w.idleTimes, grace := w.grace, limitAsked := w.limitAsked, station := w.station,
    broadcast := w.broadcast, lampMode := w.lampMode }

/-- What only a few commands change of a state. -/
def State.core (s : State) : Core :=
  { pending := s.pending, power := s.pwc.settings, time := s.pwc.time, patterns := s.pwc.patterns,
    period := s.igu.period, timer := s.igu.timer, order := s.ing.k, frames := s.chans.map Channel.framing,
    terms := s.rds.grants.map Grant.terms, owed := s.mec.owed, identity := s.tables.array.map ArrayRec.identity }

/-- The parts of a state that statements about every command speak of. -/
def State.standing (s : State) : Standing :=
  { core := s.core, limit := s.pwc.limit, entries := s.tables.entries, mem := s.mem }

namespace State

variable (s : State)

@[simp] theorem standing_ite (c : Prop) [Decidable c] (s t : State) :
    (if c then s else t).standing = if c then s.standing else t.standing := apply_ite State.standing c s t

@[simp] theorem core_ite (c : Prop) [Decidable c] (a b : Standing) :
    (if c then a else b).core = if c then a.core else b.core := apply_ite Standing.core c a b
@[simp] theorem limit_ite (c : Prop) [Decidable c] (a b : Standing) :
    (if c then a else b).limit = if c then a.limit else b.limit := apply_ite Standing.limit c a b
@[simp] theorem entries_ite (c : Prop) [Decidable c] (a b : Standing) :
    (if c then a else b).entries = if c then a.entries else b.entries := apply_ite Standing.entries c a b
@[simp] theorem mem_ite (c : Prop) [Decidable c] (a b : Standing) :
    (if c then a else b).mem = if c then a.mem else b.mem := apply_ite Standing.mem c a b

@[simp] theorem setStream_standing (i : Nat) (v : Stream) : (s.setStream i v).standing = s.standing := by
  unfold State.setStream; rfl
@[simp] theorem modStream_standing (i : Nat) (f : Stream → Stream) : (s.modStream i f).standing = s.standing := by
  unfold State.modStream State.setStream; rfl
@[simp] theorem setReader_standing (i : Nat) (v : ReadStream) : (s.setReader i v).standing = s.standing := by
  unfold State.setReader; rfl
@[simp] theorem modReader_standing (i : Nat) (f : ReadStream → ReadStream) : (s.modReader i f).standing = s.standing := by
  unfold State.modReader State.setReader; rfl
@[simp] theorem setBay_standing (b : Nat) (v : Bay) : (s.setBay b v).standing = s.standing := by
  unfold State.setBay; rfl
@[simp] theorem setObj_standing (o : Nat) (v : Option Obj) : (s.setObj o v).standing = s.standing := by
  unfold State.setObj; rfl
@[simp] theorem setCont_standing (c : Nat) (v : Option Container) : (s.setCont c v).standing = s.standing := by
  unfold State.setCont; rfl
@[simp] theorem onLnk_standing (f : Lnk → Lnk) : (s.onLnk f).standing = s.standing := by
  unfold State.onLnk; rfl
@[simp] theorem onOru_standing (f : Oru → Oru) : (s.onOru f).standing = s.standing := by
  unfold State.onOru; rfl
@[simp] theorem onCtm_standing (f : Ctm → Ctm) : (s.onCtm f).standing = s.standing := by
  unfold State.onCtm; rfl
@[simp] theorem onCkr_standing (f : Ckr → Ckr) : (s.onCkr f).standing = s.standing := by
  unfold State.onCkr; rfl

@[simp] theorem onPwc_standing {s : State} {f : Pwc → Pwc} (h : ∀ w, (f w).idleTimes = w.idleTimes ∧
    (f w).grace = w.grace ∧ (f w).limitAsked = w.limitAsked ∧ (f w).station = w.station ∧
    (f w).broadcast = w.broadcast ∧ (f w).lampMode = w.lampMode ∧ (f w).time = w.time ∧
    (f w).patterns = w.patterns ∧ (f w).limit = w.limit) : (s.onPwc f).standing = s.standing := by
  simp [State.onPwc, State.standing, State.core, h]

@[simp] theorem onIgu_standing {s : State} {f : Igu → Igu} (h : ∀ g, (f g).period = g.period ∧ (f g).timer = g.timer) :
    (s.onIgu f).standing = s.standing := by
  simp [State.onIgu, State.standing, State.core, h]

@[simp] theorem onMec_standing {s : State} {f : Mec → Mec} (h : ∀ m, (f m).owed = m.owed) :
    (s.onMec f).standing = s.standing := by
  simp [State.onMec, State.standing, State.core, h]

@[simp] theorem onTables_standing {s : State} {f : Tables → Tables}
    (h : ∀ t, (f t).entries = t.entries ∧ (f t).array = t.array) : (s.onTables f).standing = s.standing := by
  simp [State.onTables, State.standing, State.core, h]

@[simp] theorem modChan_standing {s : State} {p : Nat} {f : Channel → Channel}
    (h : ∀ c, (f c).frame = c.frame ∧ (f c).position = c.position) : (s.modChan p f).standing = s.standing := by
  have : (s.chans.setIfInBounds p (f (s.chan p))).map Channel.framing = s.chans.map Channel.framing := by
    refine Vector.ext fun i hi => ?_
    simp only [Vector.getElem_map, Vector.getElem_setIfInBounds]
    split
    · rename_i hp; subst hp
      simp [Channel.framing, h, State.chan, hi]
    · rfl
  simp [State.modChan, State.setChan, State.standing, State.core, this]

@[simp] theorem setGrant_standing {s : State} {g : Nat} {v : Grant} (h₁ : v.albums = (s.grant g).albums)
    (h₂ : v.notAfter = (s.grant g).notAfter) (h₃ : v.limit = (s.grant g).limit)
    (h₄ : v.installed = (s.grant g).installed) (h₅ : v.remaining = (s.grant g).remaining) :
    (s.setGrant g v).standing = s.standing := by
  have : (s.rds.grants.setIfInBounds g v).map Grant.terms = s.rds.grants.map Grant.terms := by
    refine Vector.ext fun i hi => ?_
    simp only [Vector.getElem_map, Vector.getElem_setIfInBounds]
    split
    · rename_i hp; subst hp
      simp [Grant.terms, h₁, h₂, h₃, h₄, h₅, State.grant, hi]
    · rfl
  simp [State.setGrant, State.standing, State.core, this]

@[simp] theorem each_standing {s : State} {ns : List Nat} {f : State → Nat → State}
    (h : ∀ s n, (f s n).standing = s.standing) : (s.each ns f).standing = s.standing := by
  unfold State.each
  induction ns generalizing s with
  | nil => rfl
  | cons n ns ih => rw [List.foldl_cons, ih, h]

@[simp] theorem foldl_standing {α : Type} {s : State} {as : List α} {f : State → α → State}
    (h : ∀ s a, (f s a).standing = s.standing) : (as.foldl f s).standing = s.standing := by
  induction as generalizing s with
  | nil => rfl
  | cons a as ih => rw [List.foldl_cons, ih, h]

end State

@[simp] theorem State.onArray_standing {s : State} {f : ArrayRec → ArrayRec} (h : ∀ a, (f a).layout = a.layout ∧
    (f a).number = a.number ∧ (f a).reserved = a.reserved ∧ (f a).containers = a.containers) :
    (s.onArray f).standing = s.standing := by
  simp [State.onArray, State.onTables, State.standing, State.core, Function.comp_def, ArrayRec.identity, h]

@[simp] theorem State.onTables_but_entries {s : State} {f : Tables → Tables} (h : ∀ t, (f t).array = t.array ∧ (f t).buckets = t.buckets) :
    (s.onTables f).standing.core = s.standing.core ∧ (s.onTables f).standing.limit = s.standing.limit ∧
      (s.onTables f).standing.mem = s.standing.mem := by
  simp [State.onTables, State.standing, State.core, h]

@[simp] theorem State.onPwc_but_limit {s : State} {f : Pwc → Pwc} (h : ∀ w, (f w).idleTimes = w.idleTimes ∧
    (f w).grace = w.grace ∧ (f w).limitAsked = w.limitAsked ∧ (f w).station = w.station ∧
    (f w).broadcast = w.broadcast ∧ (f w).lampMode = w.lampMode ∧ (f w).time = w.time ∧ (f w).patterns = w.patterns) :
    (s.onPwc f).standing.core = s.standing.core ∧ (s.onPwc f).standing.entries = s.standing.entries ∧
      (s.onPwc f).standing.mem = s.standing.mem := by
  simp [State.onPwc, State.standing, State.core, h]

@[simp] theorem State.withIdx_standing (s : State) (x : Idx) : State.standing { s with idx := x } = s.standing := by
  unfold State.standing; rfl
@[simp] theorem State.withReturns_standing (s : State) (x : List Returned) :
    State.standing { s with returns := x } = s.standing := by
  unfold State.standing; rfl

@[simp] theorem State.withStreams_standing (s : State) (x : Vector Stream 8) :
    State.standing { s with ing := { s.ing with streams := x } } = s.standing := by
  unfold State.standing; rfl

@[simp] theorem State.withInUse_standing (s : State) (x : Bool) : State.standing { s with inUse := x } = s.standing := by
  unfold State.standing; rfl
@[simp] theorem State.withUse_standing (s : State) (x : Bool) (rs : List Returned) :
    State.standing { s with inUse := x, returns := rs } = s.standing := by
  unfold State.standing; rfl

@[simp] theorem State.onPwc_quieted_standing (s : State) : (s.onPwc Pwc.quieted).standing = s.standing := by
  unfold State.onPwc; rfl
@[simp] theorem State.onPwc_dropped_standing (s : State) (p : Nat) :
    (s.onPwc fun w => (w.spinDropped p).standbyDropped p).standing = s.standing := by
  unfold State.onPwc; rfl

theorem State.onPwc_ite (s : State) (c : Pwc → Prop) [∀ w, Decidable (c w)] (f g : Pwc → Pwc) :
    (s.onPwc fun w => if c w then f w else g w) = if c s.pwc then s.onPwc f else s.onPwc g := by
  unfold State.onPwc
  split <;> simp_all

/-- A run of operations that each keep a figure of the state keeps it. -/
theorem State.foldl_keeps {α β : Type} (g : State → β) {s : State} {as : List α} {f : State → α → State}
    (h : ∀ s a, g (f s a) = g s) : g (as.foldl f s) = g s := by
  induction as generalizing s with
  | nil => rfl
  | cons a as ih => rw [List.foldl_cons, ih, h]

@[simp] theorem State.foldl_core {α : Type} {s : State} {as : List α} {f : State → α → State}
    (h : ∀ s a, (f s a).standing.core = s.standing.core) : (as.foldl f s).standing.core = s.standing.core :=
  State.foldl_keeps (fun s => s.standing.core) h

@[simp] theorem State.foldl_limit {α : Type} {s : State} {as : List α} {f : State → α → State}
    (h : ∀ s a, (f s a).standing.limit = s.standing.limit) : (as.foldl f s).standing.limit = s.standing.limit :=
  State.foldl_keeps (fun s => s.standing.limit) h

@[simp] theorem State.foldl_entries {α : Type} {s : State} {as : List α} {f : State → α → State}
    (h : ∀ s a, (f s a).standing.entries = s.standing.entries) :
    (as.foldl f s).standing.entries = s.standing.entries :=
  State.foldl_keeps (fun s => s.standing.entries) h

@[simp] theorem State.foldl_mem {α : Type} {s : State} {as : List α} {f : State → α → State}
    (h : ∀ s a, (f s a).standing.mem = s.standing.mem) : (as.foldl f s).standing.mem = s.standing.mem :=
  State.foldl_keeps (fun s => s.standing.mem) h

@[simp] theorem State.each_core {s : State} {ns : List Nat} {f : State → Nat → State}
    (h : ∀ s n, (f s n).standing.core = s.standing.core) : (s.each ns f).standing.core = s.standing.core :=
  State.foldl_keeps (fun s => s.standing.core) h

@[simp] theorem State.each_limit {s : State} {ns : List Nat} {f : State → Nat → State}
    (h : ∀ s n, (f s n).standing.limit = s.standing.limit) : (s.each ns f).standing.limit = s.standing.limit :=
  State.foldl_keeps (fun s => s.standing.limit) h

@[simp] theorem State.each_entries {s : State} {ns : List Nat} {f : State → Nat → State}
    (h : ∀ s n, (f s n).standing.entries = s.standing.entries) :
    (s.each ns f).standing.entries = s.standing.entries :=
  State.foldl_keeps (fun s => s.standing.entries) h

@[simp] theorem State.each_mem {s : State} {ns : List Nat} {f : State → Nat → State}
    (h : ∀ s n, (f s n).standing.mem = s.standing.mem) : (s.each ns f).standing.mem = s.standing.mem :=
  State.foldl_keeps (fun s => s.standing.mem) h

section Chains

variable (t : Tables)

@[simp] theorem Tables.joinChain_array (h : Nat) (f : Fp) : (t.joinChain h f).array = t.array := by
  unfold Tables.joinChain; split <;> rfl
@[simp] theorem Tables.leaveChain_array (h : Nat) (f : Fp) : (t.leaveChain h f).array = t.array := by
  unfold Tables.leaveChain; split <;> rfl
@[simp] theorem Tables.joinChain_buckets (h : Nat) (f : Fp) : (t.joinChain h f).buckets = t.buckets := by
  unfold Tables.joinChain; split <;> rfl
@[simp] theorem Tables.leaveChain_buckets (h : Nat) (f : Fp) : (t.leaveChain h f).buckets = t.buckets := by
  unfold Tables.leaveChain; split <;> rfl
@[simp] theorem Tables.joinChain_entries (h : Nat) (f : Fp) : (t.joinChain h f).entries = t.entries := by
  unfold Tables.joinChain; split <;> rfl
@[simp] theorem Tables.leaveChain_entries (h : Nat) (f : Fp) : (t.leaveChain h f).entries = t.entries := by
  unfold Tables.leaveChain; split <;> rfl
@[simp] theorem Tables.loseBucket_array (b : Nat) : (t.loseBucket b).array = t.array := by
  unfold Tables.loseBucket; rfl
@[simp] theorem Tables.loseBucket_buckets (b : Nat) : (t.loseBucket b).buckets = t.buckets := by
  unfold Tables.loseBucket; rfl
@[simp] theorem Tables.loseBucket_entries (b : Nat) : (t.loseBucket b).entries = t.entries := by
  unfold Tables.loseBucket; rfl

end Chains

section Framing

variable (c : Channel)

@[simp] theorem Channel.setQueue_frame (k : Cls) (q : List Op) : (c.setQueue k q).frame = c.frame := by
  unfold Channel.setQueue; rfl
@[simp] theorem Channel.setQueue_position (k : Cls) (q : List Op) : (c.setQueue k q).position = c.position := by
  unfold Channel.setQueue; rfl
@[simp] theorem Channel.setWaiting_frame (k : Cls) (q : List Stalled) : (c.setWaiting k q).frame = c.frame := by
  unfold Channel.setWaiting; rfl
@[simp] theorem Channel.setWaiting_position (k : Cls) (q : List Stalled) : (c.setWaiting k q).position = c.position := by
  unfold Channel.setWaiting; rfl
@[simp] theorem Channel.enqueue_frame (o : Op) : (c.enqueue o).frame = c.frame := by
  unfold Channel.enqueue; split <;> simp
@[simp] theorem Channel.enqueue_position (o : Op) : (c.enqueue o).position = c.position := by
  unfold Channel.enqueue; split <;> simp
@[simp] theorem Channel.emptied_frame : c.emptied.frame = c.frame := by unfold Channel.emptied; rfl
@[simp] theorem Channel.emptied_position : c.emptied.position = c.position := by unfold Channel.emptied; rfl
@[simp] theorem Channel.unbound_frame (p : Nat) : (c.unbound p).frame = c.frame := by unfold Channel.unbound; rfl
@[simp] theorem Channel.unbound_position (p : Nat) : (c.unbound p).position = c.position := by
  unfold Channel.unbound; rfl
@[simp] theorem Channel.mapOps_frame (p : Nat) (f : Nat → Op → Op) : (c.mapOps p f).frame = c.frame := by
  unfold Channel.mapOps; rfl
@[simp] theorem Channel.mapOps_position (p : Nat) (f : Nat → Op → Op) : (c.mapOps p f).position = c.position := by
  unfold Channel.mapOps; rfl

@[simp] theorem Channel.bound_frame (b : Option Nat) (m : Member) : (c.bound b m).frame = c.frame := by
  unfold Channel.bound; rfl
@[simp] theorem Channel.bound_position (b : Option Nat) (m : Member) : (c.bound b m).position = c.position := by
  unfold Channel.bound; rfl
@[simp] theorem Channel.standbyAbandoned_frame : c.standbyAbandoned.frame = c.frame := by
  unfold Channel.standbyAbandoned; split <;> rfl
@[simp] theorem Channel.standbyAbandoned_position : c.standbyAbandoned.position = c.position := by
  unfold Channel.standbyAbandoned; split <;> rfl

end Framing

@[simp] theorem Igu.counted_period (g : Igu) (c : Nat) (f : Finding) : (g.counted c f).period = g.period := by
  cases f <;> rfl
@[simp] theorem Igu.counted_timer (g : Igu) (c : Nat) (f : Finding) : (g.counted c f).timer = g.timer := by
  cases f <;> rfl

section Exceptions

variable (s : State)

theorem State.setGrant_standing_eq (g : Nat) (v : Grant) : (s.setGrant g v).standing =
    { s.standing with core := { s.standing.core with terms := s.standing.core.terms.setIfInBounds g v.terms } } := by
  simp [State.setGrant, State.standing, State.core]

theorem State.modChan_standing_eq (p : Nat) (f : Channel → Channel) : (s.modChan p f).standing =
    { s.standing with
      core := { s.standing.core with frames := s.standing.core.frames.setIfInBounds p (f (s.chan p)).framing } } := by
  simp [State.modChan, State.setChan, State.standing, State.core]

/-- What putting an array in force leaves of the core: the scrub timer is loaded, and the chunk order is at most the layout's
greatest one (R4, R136, R212). -/
def Core.Upped (a b : Core) : Prop :=
  b = a ∨ ∃ m, 13 ≤ m ∧ b = { a with timer := a.period, order := min a.order m }

theorem Core.Upped.refl (a : Core) : Core.Upped a a := .inl rfl

end Exceptions

/-- A change of a channel that keeps its framing keeps the frames. -/
theorem State.frames_set_of_framing (s : State) (p : Nat) {v : Channel} (h : v.framing = (s.chan p).framing) :
    s.standing.core.frames.setIfInBounds p v.framing = s.standing.core.frames := by
  refine Vector.ext fun i hi => ?_
  rw [Vector.getElem_setIfInBounds]
  split
  · rename_i hp; subst hp
    simp [h, State.standing, State.core, State.chan, hi]
  · rfl

theorem frameOf_length {f : Nat} {classes : List Nat} {cs : List Cls} (h : frameOf f classes = some cs) :
    cs.length = f := by
  unfold frameOf at h
  dsimp only at h
  split at h
  · cases h; assumption
  · cases h

/-- The service frames after one frame has been put on some of the channels. -/
theorem State.each_setFrame (s : State) (cs : List Cls) (ps : List Nat) :
    ∃ fs, (s.each ps fun s p => s.modChan p fun c => { c with frame := cs, position := 0 }).standing =
        { s.standing with core := { s.standing.core with frames := fs } } ∧
      ∀ p : Fin 4, fs[p] = s.standing.core.frames[p] ∨ fs[p] = (cs, 0) := by
  unfold State.each
  induction ps generalizing s with
  | nil => exact ⟨_, rfl, fun _ => .inl rfl⟩
  | cons q ps ih =>
    obtain ⟨fs, hfs, hmem⟩ := ih (s.modChan q fun c => { c with frame := cs, position := 0 })
    refine ⟨fs, by rw [List.foldl_cons, hfs, State.modChan_standing_eq], fun p => ?_⟩
    refine (hmem p).elim (fun h => ?_) .inr
    rw [h, State.modChan_standing_eq]
    simp only [Fin.getElem_fin, Vector.getElem_setIfInBounds]
    split
    · exact .inr rfl
    · exact .inl rfl

@[simp] theorem State.onPwc_standing_entries (s : State) (f : Pwc → Pwc) :
    (s.onPwc f).standing.entries = s.standing.entries := by
  unfold State.onPwc; rfl
@[simp] theorem State.onPwc_standing_mem (s : State) (f : Pwc → Pwc) : (s.onPwc f).standing.mem = s.standing.mem := by
  unfold State.onPwc; rfl
@[simp] theorem State.onPwc_standing_limit {s : State} {f : Pwc → Pwc} (h : ∀ w, (f w).limit = w.limit) :
    (s.onPwc f).standing.limit = s.standing.limit := by
  simp [State.onPwc, State.standing, h]

@[simp] theorem Mec.setHeld_owed (m : Mec) (a : BufAsker) (n : Nat) : (m.setHeld a n).owed = m.owed := by
  unfold Mec.setHeld; rfl

@[simp] theorem Mec.serveBuffers_owed (fuel : Nat) (m : Mec) (served : List BufAsker) :
    (Mec.serveBuffers fuel m served).1.owed = m.owed := by
  induction fuel generalizing m served with
  | zero => rfl
  | succ n ih =>
    unfold Mec.serveBuffers
    repeat (split <;> try simp [ih])

end Sys2Proof.Machine

/-! # Proofs: what each operation leaves of what stands -/

namespace Sys2Proof.Machine
@[simp] theorem State.modCont_standing (s : State) (c : Nat) (f : Container → Container) :
    (s.modCont c f).standing = s.standing := by
  unfold State.modCont; split <;> simp

@[simp] theorem State.notice_standing (s : State) (slot : Nat) (fields : List Field) :
    (s.notice slot fields).standing = s.standing := by
  simp [State.notice]

@[simp] theorem State.noticeLink_standing (s : State) : s.noticeLink.standing = s.standing := by
  simp [State.noticeLink]

@[simp] theorem State.answer_standing (s : State) (tag kind : Nat) (status : Status) (fields : List Field) :
    (s.answer tag kind status fields).standing = s.standing := by
  simp [State.answer]

@[simp] theorem State.refuse_standing (s : State) (tag kind : Nat) (status : Status) :
    (s.refuse tag kind status).standing = s.standing := by
  simp [State.refuse]

@[simp] theorem State.taken_standing (s : State) (c : Instr) : (s.taken c).standing = s.standing := by
  simp [State.taken]

@[simp] theorem State.rewords_standing (s : State) (touch : Nat → Bool) :
    (s.rewords touch).standing.core = s.standing.core ∧ (s.rewords touch).standing.limit = s.standing.limit ∧
    (s.rewords touch).standing.entries = s.standing.entries := by
  unfold State.rewords; and_intros <;> rfl

@[simp] theorem State.writeMem_standing (s : State) (a : Nat) (bs : List Byte) :
    (s.writeMem a bs).standing.core = s.standing.core ∧ (s.writeMem a bs).standing.limit = s.standing.limit ∧
    (s.writeMem a bs).standing.entries = s.standing.entries := by
  unfold State.writeMem; and_intros <;> rfl

@[simp] theorem State.zeroMem_standing (s : State) (a n : Nat) :
    (s.zeroMem a n).standing.core = s.standing.core ∧ (s.zeroMem a n).standing.limit = s.standing.limit ∧
    (s.zeroMem a n).standing.entries = s.standing.entries := by
  unfold State.zeroMem; and_intros <;> rfl

@[simp] theorem State.reportTakenOf_standing (s : State) (rs : List Region) :
    (s.reportTakenOf rs).standing = s.standing := by
  unfold State.reportTakenOf State.onMec; dsimp only; split <;> rfl

@[simp] theorem State.reportTaken_standing (s : State) (r : Region) : (s.reportTaken r).standing = s.standing := by
  simp [State.reportTaken]

@[simp] theorem State.wordRewritten_standing (s : State) (rs : List Region) :
    (s.wordRewritten rs).standing = s.standing := by
  unfold State.wordRewritten; split <;> simp

@[simp] theorem State.bufferError_standing (s : State) (again : Bool) : (s.bufferError again).standing = s.standing := by
  unfold State.bufferError State.onMec; dsimp only; split <;> rfl

@[simp] theorem State.idleUpdate_standing (s : State) (p : Nat) : (s.idleUpdate p).standing = s.standing := by
  simp [State.idleUpdate]

@[simp] theorem State.giveBack_standing (s : State) (p : Nat) (o : Op) (r : OpResult) :
    (s.giveBack p o r).standing = s.standing := by
  simp [State.giveBack]

@[simp] theorem State.giveBackAll_standing (s : State) (p : Nat) (os : List Op) (r : OpResult) :
    (s.giveBackAll p os r).standing = s.standing := by
  simp [State.giveBackAll]

@[simp] theorem State.enqueue_standing (s : State) (p : Nat) (o : Op) : (s.enqueue p o).standing = s.standing := by
  simp [State.enqueue]

@[simp] theorem State.holdBack_standing (s : State) (q p : Nat) (o : Op) : (s.holdBack q p o).standing = s.standing := by
  simp [State.holdBack]

@[simp] theorem State.arrive_standing (s : State) (p : Nat) (o : Op) : (s.arrive p o).standing = s.standing := by
  unfold State.arrive; simp; split <;> simp

@[simp] theorem State.submit_standing (s : State) (p : Nat) (o : Op) : (s.submit p o).standing = s.standing := by
  unfold State.submit; simp; split <;> simp

@[simp] theorem State.submitAll_standing (s : State) (os : List (Nat × Op)) : (s.submitAll os).standing = s.standing := by
  simp [State.submitAll]

@[simp] theorem State.joinWaiters_standing (p : Nat) (k : Cls) (fuel : Nat) (s : State) :
    (State.joinWaiters p k fuel s).standing = s.standing := by
  induction fuel generalizing s with
  | zero => rfl
  | succ n ih =>
    unfold State.joinWaiters
    split
    · split
      · rw [ih]; simp
      · rfl
    · rfl

@[simp] theorem State.dropReturned_standing (s : State) (f : Job → Bool) : (s.dropReturned f).standing = s.standing := by
  simp [State.dropReturned]

/-- A dispatch moves the position of the channel's frame on by one, or nothing of the core (R101). -/
theorem State.dispatch_core (s : State) (p : Nat) : (s.dispatch p).standing.core = s.standing.core ∨
    ∃ n, (s.dispatch p).standing.core = { s.standing.core with
      frames := s.standing.core.frames.setIfInBounds p ((s.chan p).frame, n % (s.chan p).frame.length) } := by
  have hjoin : (s.dispatch p).standing = (s.modChan p Channel.dispatch).standing := by
    unfold State.dispatch
    dsimp only
    split <;> simp
  rw [hjoin, State.modChan_standing_eq]
  by_cases h : (s.chan p).dispatch.framing = (s.chan p).framing
  · left
    rw [State.frames_set_of_framing s p h]
  · right
    revert h
    unfold Channel.dispatch
    split
    · simp
    · split
      · simp
      · exact fun _ => ⟨_, rfl⟩

@[simp] theorem State.dispatch_standing (s : State) (p : Nat) : (s.dispatch p).standing.limit = s.standing.limit ∧
    (s.dispatch p).standing.entries = s.standing.entries ∧ (s.dispatch p).standing.mem = s.standing.mem := by
  unfold State.dispatch
  dsimp only
  split <;> simp [State.modChan_standing_eq]

@[simp] theorem State.testFree_standing (s : State) (c : Nat) : (s.testFree c).standing = s.standing := by
  unfold State.testFree; split <;> simp

@[simp] theorem State.liveRaise_standing (s : State) (c n : Nat) : (s.liveRaise c n).standing = s.standing := by
  simp [State.liveRaise]

@[simp] theorem State.liveLower_standing (s : State) (c n : Nat) : (s.liveLower c n).standing = s.standing := by
  simp [State.liveLower]

@[simp] theorem State.segRefRaise_standing (s : State) (c : Nat) : (s.segRefRaise c).standing = s.standing := by
  simp [State.segRefRaise]

@[simp] theorem State.segRefLower_standing (s : State) (c : Nat) : (s.segRefLower c).standing = s.standing := by
  simp [State.segRefLower]

@[simp] theorem State.readRaise_standing (s : State) (c : Nat) : (s.readRaise c).standing = s.standing := by
  simp [State.readRaise]

@[simp] theorem State.readLower_standing (s : State) (c : Nat) : (s.readLower c).standing = s.standing := by
  simp [State.readLower]

@[simp] theorem State.idxAnswer_standing (s : State) (a : IdxAnswer) : (s.idxAnswer a).standing = s.standing := by
  simp [State.idxAnswer]

@[simp] theorem State.idxLookup_standing (s : State) (f : Fp) (i : Nat) :
    (s.idxLookup f i).standing.core = s.standing.core ∧ (s.idxLookup f i).standing.limit = s.standing.limit ∧
    (s.idxLookup f i).standing.mem = s.standing.mem := by
  simp only [State.idxLookup]; repeat (split <;> try simp)

@[simp] theorem State.idxInsert_standing (s : State) (f : Fp) (c off : Nat) :
    (s.idxInsert f c off).standing.core = s.standing.core ∧ (s.idxInsert f c off).standing.limit = s.standing.limit ∧
    (s.idxInsert f c off).standing.mem = s.standing.mem := by
  unfold State.idxInsert; split <;> simp

@[simp] theorem State.removeEntry_standing (s : State) (h : Nat) (e : IdxEntry) :
    (s.removeEntry h e).standing.core = s.standing.core ∧ (s.removeEntry h e).standing.limit = s.standing.limit ∧
    (s.removeEntry h e).standing.mem = s.standing.mem := by
  simp [State.removeEntry]

@[simp] theorem State.idxLower_standing (s : State) (h : Nat) :
    (s.idxLower h).standing.core = s.standing.core ∧ (s.idxLower h).standing.limit = s.standing.limit ∧
    (s.idxLower h).standing.mem = s.standing.mem := by
  unfold State.idxLower; simp; split <;> simp

@[simp] theorem State.idxConfirm_standing (s : State) (h i : Nat) : (s.idxConfirm h i).standing = s.standing := by
  simp [State.idxConfirm]

@[simp] theorem State.idxDrop_standing (s : State) (h i : Nat) (r : HoldReason) :
    (s.idxDrop h i r).standing.core = s.standing.core ∧ (s.idxDrop h i r).standing.limit = s.standing.limit ∧
    (s.idxDrop h i r).standing.mem = s.standing.mem := by
  simp [State.idxDrop]

@[simp] theorem State.idxRaise_standing (s : State) (h : Nat) :
    (s.idxRaise h).standing.core = s.standing.core ∧ (s.idxRaise h).standing.limit = s.standing.limit ∧
    (s.idxRaise h).standing.mem = s.standing.mem := by
  unfold State.idxRaise; simp; split <;> simp

@[simp] theorem State.idxCreate_standing (s : State) (h : Nat) (f : Fp) (c off : Nat) :
    (s.idxCreate h f c off).standing.core = s.standing.core ∧ (s.idxCreate h f c off).standing.limit = s.standing.limit ∧
    (s.idxCreate h f c off).standing.mem = s.standing.mem := by
  unfold State.idxCreate; simp; split <;> simp

@[simp] theorem State.idxRemoveIf_standing (s : State) (h : Nat) :
    (s.idxRemoveIf h).standing.core = s.standing.core ∧ (s.idxRemoveIf h).standing.limit = s.standing.limit ∧
    (s.idxRemoveIf h).standing.mem = s.standing.mem := by
  unfold State.idxRemoveIf; simp; split <;> simp

@[simp] theorem State.idxStored_standing (s : State) (h : Nat) (f : Fp) (c off : Nat) :
    (s.idxStored h f c off).standing.core = s.standing.core ∧ (s.idxStored h f c off).standing.limit = s.standing.limit ∧
    (s.idxStored h f c off).standing.mem = s.standing.mem := by
  simp only [State.idxStored]; repeat (split <;> try simp)

@[simp] theorem State.idxDamage_standing (s : State) (h : Nat) (f : Fp) :
    (s.idxDamage h f).standing.core = s.standing.core ∧ (s.idxDamage h f).standing.limit = s.standing.limit ∧
    (s.idxDamage h f).standing.mem = s.standing.mem := by
  unfold State.idxDamage; simp; split <;> simp

@[simp] theorem State.idxSetMove_standing (s : State) (h : Nat) (f : Fp) (source dest : Nat) :
    (s.idxSetMove h f source dest).standing.core = s.standing.core ∧
    (s.idxSetMove h f source dest).standing.limit = s.standing.limit ∧
    (s.idxSetMove h f source dest).standing.mem = s.standing.mem := by
  unfold State.idxSetMove; simp; split <;> simp

@[simp] theorem State.idxSwitch_standing (s : State) (h : Nat) (f : Fp) (source dest off : Nat) :
    (s.idxSwitch h f source dest off).standing.core = s.standing.core ∧
    (s.idxSwitch h f source dest off).standing.limit = s.standing.limit ∧
    (s.idxSwitch h f source dest off).standing.mem = s.standing.mem := by
  unfold State.idxSwitch; simp; split <;> simp

@[simp] theorem State.idxLocate_standing (s : State) (h : Nat) : (s.idxLocate h).standing = s.standing := by
  simp [State.idxLocate]

@[simp] theorem State.idxWordError_standing (s : State) (fuel : IndexWord) :
    (s.idxWordError fuel).standing.core = s.standing.core ∧ (s.idxWordError fuel).standing.limit = s.standing.limit ∧
    (s.idxWordError fuel).standing.mem = s.standing.mem := by
  simp only [State.idxWordError]; repeat (split <;> try simp)

@[simp] theorem State.setReaders_standing (s : State) (o n : Nat) : (s.setReaders o n).standing = s.standing := by
  simp [State.setReaders]

@[simp] theorem State.readerRaise_standing (s : State) (o : Nat) : (s.readerRaise o).standing = s.standing := by
  simp [State.readerRaise]

@[simp] theorem State.joinRelease_standing (s : State) (o : Nat) : (s.joinRelease o).standing = s.standing := by
  simp [State.joinRelease]

@[simp] theorem State.beginRelease_standing (s : State) (o : Nat) (tail : Option (List Nat)) :
    (s.beginRelease o tail).standing = s.standing := by
  unfold State.beginRelease; split <;> simp

@[simp] theorem State.askRelease_standing (s : State) (o : Nat) : (s.askRelease o).standing = s.standing := by
  simp [State.askRelease]

@[simp] theorem State.readerLower_standing (s : State) (o : Nat) : (s.readerLower o).standing = s.standing := by
  simp only [State.readerLower]; repeat (split <;> try simp)

@[simp] theorem State.noticeIngestEnd_standing (s : State) (i : Nat) (e : EndOutcome) :
    (s.noticeIngestEnd i e).standing = s.standing := by
  simp [State.noticeIngestEnd]

@[simp] theorem State.withdrawPlacements_standing (s : State) (i : Nat) :
    (s.withdrawPlacements i).standing = s.standing := by
  simp [State.withdrawPlacements]

@[simp] theorem State.streamFault_standing (s : State) (i : Nat) (cause : FaultCause) :
    (s.streamFault i cause).standing = s.standing := by
  unfold State.streamFault; simp; split <;> simp

@[simp] theorem State.freeStream_standing (s : State) (i : Nat) : (s.freeStream i).standing = s.standing := by
  simp [State.freeStream]

@[simp] theorem State.abortEnds_standing (s : State) (i : Nat) : (s.abortEnds i).standing = s.standing := by
  unfold State.abortEnds; dsimp only; split <;> simp

@[simp] theorem State.abortSettle_standing (s : State) (i : Nat) : (s.abortSettle i).standing = s.standing := by
  simp only [State.abortSettle]; repeat (split <;> try simp_all)

@[simp] theorem State.finishRelease_standing (s : State) (o : Nat) : (s.finishRelease o).standing = s.standing := by
  unfold State.finishRelease
  dsimp only
  repeat (split <;> try simp)

@[simp] theorem State.noticeArray_standing (s : State) (c : ArrayCause) : (s.noticeArray c).standing = s.standing := by
  simp [State.noticeArray]

@[simp] theorem State.setBuffer_standing (s : State) (k : Nat) (b : Option StripeBuf) :
    (s.setBuffer k b).standing = s.standing := by
  simp [State.setBuffer]

@[simp] theorem State.returnFree_standing (s : State) (c : Nat) : (s.returnFree c).standing = s.standing := by
  simp [State.returnFree]

@[simp] theorem State.releaseQuarantine_standing (s : State) : s.releaseQuarantine.standing = s.standing := by
  simp [State.releaseQuarantine]

@[simp] theorem State.zeroStripes_standing (s : State) (c : Nat) (a : ArrayRec) :
    (s.zeroStripes c a).standing = s.standing := by
  simp [State.zeroStripes]

@[simp] theorem State.needCheckpoint_standing (s : State) : s.needCheckpoint.standing = s.standing := by
  simp [State.needCheckpoint]

@[simp] theorem State.openContainer_standing (s : State) (k : ContKind) :
    (s.openContainer k).1.standing.core = s.standing.core ∧ (s.openContainer k).1.standing.limit = s.standing.limit ∧
    (s.openContainer k).1.standing.entries = s.standing.entries := by
  simp only [State.openContainer]; repeat (split <;> try simp)

@[simp] theorem State.finishStripe_standing (s : State) (b : Nat) (k : ContKind) (seq : Nat) (l : Layout) :
    (s.finishStripe b k seq l).1.standing.core = s.standing.core ∧
    (s.finishStripe b k seq l).1.standing.limit = s.standing.limit ∧
    (s.finishStripe b k seq l).1.standing.entries = s.standing.entries := by
  simp [State.finishStripe]

@[simp] theorem State.issueWrite_standing (s : State) (c b : Nat) (k : ContKind) (seq : Nat) (l : Layout) :
    (s.issueWrite c b k seq l).standing.core = s.standing.core ∧
    (s.issueWrite c b k seq l).standing.limit = s.standing.limit ∧
    (s.issueWrite c b k seq l).standing.entries = s.standing.entries := by
  simp [State.issueWrite]

@[simp] theorem State.lateCopy_standing (s : State) (c b : Nat) :
    (s.lateCopy c b).standing.core = s.standing.core ∧ (s.lateCopy c b).standing.limit = s.standing.limit ∧
    (s.lateCopy c b).standing.entries = s.standing.entries := by
  unfold State.lateCopy; split <;> simp

@[simp] theorem State.sealContainer_standing (s : State) (c : Nat) :
    (s.sealContainer c).standing.core = s.standing.core ∧ (s.sealContainer c).standing.limit = s.standing.limit ∧
    (s.sealContainer c).standing.entries = s.standing.entries := by
  unfold State.sealContainer
  split <;> simp

@[simp] theorem State.returnEmpty_standing (s : State) (c : Nat) : (s.returnEmpty c).standing = s.standing := by
  unfold State.returnEmpty; split <;> simp

@[simp] theorem State.forceSeal_standing (s : State) (k : ContKind) :
    (s.forceSeal k).1.standing.core = s.standing.core ∧ (s.forceSeal k).1.standing.limit = s.standing.limit ∧
    (s.forceSeal k).1.standing.entries = s.standing.entries := by
  simp only [State.forceSeal]; repeat (split <;> try simp)

@[simp] theorem State.roomFor_standing (s : State) (k : ContKind) (len : Nat) :
    (s.roomFor k len).1.standing.core = s.standing.core ∧ (s.roomFor k len).1.standing.limit = s.standing.limit ∧
    (s.roomFor k len).1.standing.entries = s.standing.entries := by
  simp only [State.roomFor]; repeat (split <;> try simp)

@[simp] theorem State.take_standing (s : State) (c len : Nat) (content : Nat → Place) :
    (s.take c len content).1.standing = s.standing := by
  unfold State.take; split <;> simp

@[simp] theorem State.placeChunk_standing (s : State) (len : Nat) :
    (s.placeChunk len).1.standing.core = s.standing.core ∧ (s.placeChunk len).1.standing.limit = s.standing.limit ∧
    (s.placeChunk len).1.standing.entries = s.standing.entries := by
  have h := s.roomFor_standing .data len
  unfold State.placeChunk
  split <;> simp_all

@[simp] theorem State.placeRecord_standing (s : State) (r : RecipeRec) :
    (s.placeRecord r).1.standing.core = s.standing.core ∧ (s.placeRecord r).1.standing.limit = s.standing.limit ∧
    (s.placeRecord r).1.standing.entries = s.standing.entries := by
  have h := s.roomFor_standing .recipe r.size
  unfold State.placeRecord
  split
  · dsimp only
    split <;> simp_all
  · simp_all
  · simp_all

@[simp] theorem State.copyChunk_standing (s : State) (c off place : Nat) (moved : Bool) (h : Nat) (f : Fp)
    (bytes : List Byte) :
    (s.copyChunk c off place moved h f bytes).standing.core = s.standing.core ∧
    (s.copyChunk c off place moved h f bytes).standing.limit = s.standing.limit ∧
    (s.copyChunk c off place moved h f bytes).standing.entries = s.standing.entries := by
  simp only [State.copyChunk]; repeat (split <;> try simp)

@[simp] theorem State.takeBuffers_standing (s : State) (a : BufAsker) (n : Nat) :
    (s.takeBuffers a n).1.standing = s.standing := by
  unfold State.takeBuffers; split <;> rfl

@[simp] theorem State.setReadJob_standing (s : State) (id : Nat) (j : Option ReadJob) :
    (s.setReadJob id j).standing = s.standing := by
  simp [State.setReadJob]

@[simp] theorem State.reportReconstructing_standing (s : State) (j : ReadJob) :
    (s.reportReconstructing j).standing = s.standing := by
  unfold State.reportReconstructing; split <;> simp

@[simp] theorem State.countDegraded_standing (s : State) (n : Nat) : (s.countDegraded n).standing = s.standing := by
  simp [State.countDegraded]

@[simp] theorem State.submitParts_standing (s : State) (j : ReadJob) (ks : List Nat) :
    (s.submitParts j ks).standing = s.standing := by
  simp [State.submitParts]

@[simp] theorem State.readFrom_standing (s : State) (j : ReadJob) (from_ : Nat) :
    (s.readFrom j from_).standing = s.standing := by
  simp [State.readFrom]

@[simp] theorem State.startRead_standing (s : State) (id : Nat) : (s.startRead id).standing = s.standing := by
  simp only [State.startRead]; repeat (split <;> try simp)

@[simp] theorem State.startScrubReads_standing (s : State) : s.startScrubReads.standing = s.standing := by
  unfold State.startScrubReads; split <;> simp

@[simp] theorem State.startRebuildReads_standing (s : State) : s.startRebuildReads.standing = s.standing := by
  unfold State.startRebuildReads; split <;> simp

@[simp] theorem State.startAsker_standing (s : State) (a : BufAsker) : (s.startAsker a).standing = s.standing := by
  unfold State.startAsker; simp; split <;> simp

@[simp] theorem State.returnBuffers_standing (s : State) (a : BufAsker) (n : Nat) :
    (s.returnBuffers a n).standing = s.standing := by
  have hmec (m : Mec) (h : m.owed = s.mec.owed) : State.standing { s with mec := m } = s.standing := by
    simp [State.standing, State.core, h]
  unfold State.returnBuffers
  simp [hmec]

@[simp] theorem State.askBuffers_standing (s : State) (a : BufAsker) (n : Nat) :
    (s.askBuffers a n).standing = s.standing := by
  have h := s.takeBuffers_standing a n
  unfold State.askBuffers
  split <;> simp_all

@[simp] theorem State.beginRead_standing (s : State) (id need : Nat) (again : Bool) (who : ReadWho) (handle : Option Nat)
    (cls : Cls) (c off len : Nat) (check : ReadCheck) :
    (s.beginRead id need again who handle cls c off len check).standing = s.standing := by
  simp [State.beginRead]

@[simp] theorem State.newRead_standing (s : State) (who : ReadWho) (handle : Option Nat) (cls : Cls) (c off len : Nat)
    (check : ReadCheck) :
    (s.newRead who handle cls c off len check).standing = s.standing := by
  simp [State.newRead]

@[simp] theorem State.recoveredAsData_standing (s : State) (c : Nat) : (s.recoveredAsData c).standing = s.standing := by
  simp [State.recoveredAsData]

@[simp] theorem State.answerRead_standing (s : State) (j : ReadJob) (a : ReadAnswer) :
    (s.answerRead j a).standing = s.standing := by
  simp [State.answerRead]

@[simp] theorem State.bufferDone_standing (s : State) (id : Nat) : (s.bufferDone id).standing = s.standing := by
  simp [State.bufferDone]

@[simp] theorem State.queueRepair_standing (s : State) (c unit start : Nat) (data : List Byte) :
    (s.queueRepair c unit start data).standing = s.standing := by
  simp [State.queueRepair]

@[simp] theorem State.readLost_standing (s : State) (j : ReadJob) (asRead : Option (List Byte)) :
    (s.readLost j asRead).standing.core = s.standing.core ∧ (s.readLost j asRead).standing.limit = s.standing.limit ∧
    (s.readLost j asRead).standing.mem = s.standing.mem := by
  unfold State.readLost; split <;> simp

@[simp] theorem State.reconFrom_standing (s : State) (j : ReadJob) (fuel : Nat) (k2 : Nat) :
    (s.reconFrom j fuel k2).standing.core = s.standing.core ∧ (s.reconFrom j fuel k2).standing.limit = s.standing.limit ∧
    (s.reconFrom j fuel k2).standing.mem = s.standing.mem := by
  induction fuel generalizing k2 with
  | zero => simp [State.reconFrom]
  | succ n ih =>
    unfold State.reconFrom
    split
    · simp
    · split <;> simp [ih]

@[simp] theorem State.repairErrors_standing (s : State) (j : ReadJob) : (s.repairErrors j).standing = s.standing := by
  simp [State.repairErrors]

@[simp] theorem State.readOn_standing (s : State) (j : ReadJob) : (s.readOn j).standing = s.standing := by
  simp [State.readOn]

@[simp] theorem State.checkRead_standing (s : State) (j : ReadJob) (bs : List Byte) :
    (s.checkRead j bs).standing.core = s.standing.core ∧ (s.checkRead j bs).standing.limit = s.standing.limit ∧
    (s.checkRead j bs).standing.mem = s.standing.mem := by
  simp [State.checkRead]

@[simp] theorem State.rereadOrLose_standing (s : State) (j : ReadJob) : (s.rereadOrLose j).standing = s.standing := by
  simp [State.rereadOrLose]

@[simp] theorem State.advanceRead_standing (s : State) (j : ReadJob) (bad : Bool) :
    (s.advanceRead j bad).standing.core = s.standing.core ∧ (s.advanceRead j bad).standing.limit = s.standing.limit ∧
    (s.advanceRead j bad).standing.mem = s.standing.mem := by
  simp only [State.advanceRead]; repeat (split <;> try simp)

@[simp] theorem State.dropReport_standing (s : State) (r : ReadReport) : (s.dropReport r).standing = s.standing := by
  simp [State.dropReport]

@[simp] theorem State.withdrawAsker_standing (s : State) (a : BufAsker) (n : Nat) :
    (s.withdrawAsker a n).standing = s.standing := by
  simp [State.withdrawAsker]

@[simp] theorem State.withdrawRead_standing (s : State) (j : ReadJob) : (s.withdrawRead j).standing = s.standing := by
  simp [State.withdrawRead]

@[simp] theorem State.wait_standing (s : State) (w : Waiter) : (s.wait w).standing = s.standing := by
  simp [State.wait]

@[simp] theorem State.joinsWait_standing (s : State) (k : ContKind) : (s.joinsWait k).standing = s.standing := by
  simp [State.joinsWait]

@[simp] theorem State.segmentCopied_standing (s : State) (i c off : Nat) :
    (s.segmentCopied i c off).standing = s.standing := by
  unfold State.segmentCopied; dsimp only; split <;> simp

@[simp] theorem State.recordCopied_standing (s : State) (req : RecordReq) (c off : Nat) :
    (s.recordCopied req c off).standing = s.standing := by
  simp only [State.recordCopied]; repeat (split <;> try simp)

@[simp] theorem State.recordFull_standing (s : State) (req : RecordReq) : (s.recordFull req).standing = s.standing := by
  unfold State.recordFull; split <;> simp

@[simp] theorem State.tryRecord_standing (s : State) (req : RecordReq) :
    (s.tryRecord req).standing.core = s.standing.core ∧ (s.tryRecord req).standing.limit = s.standing.limit ∧
    (s.tryRecord req).standing.entries = s.standing.entries := by
  unfold State.tryRecord
  split
  · simp
  · rename_i r _
    have h := s.placeRecord_standing r
    split <;> simp_all

@[simp] theorem State.placedAt_standing (s : State) (who : PlaceFor) (c off place : Nat) :
    (s.placedAt who c off place).standing = s.standing := by
  unfold State.placedAt; split <;> simp

@[simp] theorem State.placeWaits_standing (s : State) (who : PlaceFor) : (s.placeWaits who).standing = s.standing := by
  unfold State.placeWaits; split <;> simp

@[simp] theorem State.relocBufferBack_standing (s : State) (r : Reloc) : (s.relocBufferBack r).standing = s.standing := by
  unfold State.relocBufferBack; split <;> simp

@[simp] theorem State.placeFull_standing (s : State) (who : PlaceFor) : (s.placeFull who).standing = s.standing := by
  simp only [State.placeFull]; repeat (split <;> try simp)

@[simp] theorem State.tryChunk_standing (s : State) (who : PlaceFor) :
    (s.tryChunk who).standing.core = s.standing.core ∧ (s.tryChunk who).standing.limit = s.standing.limit ∧
    (s.tryChunk who).standing.entries = s.standing.entries := by
  unfold State.tryChunk
  split
  · simp
  · rename_i len _
    have h := s.placeChunk_standing len
    split <;> simp_all

@[simp] theorem State.tryWaiter_standing (s : State) (w : Waiter) :
    (s.tryWaiter w).standing.core = s.standing.core ∧ (s.tryWaiter w).standing.limit = s.standing.limit ∧
    (s.tryWaiter w).standing.entries = s.standing.entries := by
  unfold State.tryWaiter; simp; split <;> simp

@[simp] theorem State.retryWaiting_standing (s : State) :
    s.retryWaiting.standing.core = s.standing.core ∧ s.retryWaiting.standing.limit = s.standing.limit ∧
    s.retryWaiting.standing.entries = s.standing.entries := by
  simp [State.retryWaiting]

@[simp] theorem State.noticeStreamEnd_standing (s : State) (i : Nat) : (s.noticeStreamEnd i).standing = s.standing := by
  simp [State.noticeStreamEnd]

@[simp] theorem State.readerFree_standing (s : State) (i : Nat) : (s.readerFree i).standing = s.standing := by
  unfold State.readerFree; dsimp only; repeat (split <;> try simp); all_goals try rfl

@[simp] theorem State.readerSettle_standing (s : State) (i : Nat) : (s.readerSettle i).standing = s.standing := by
  simp [State.readerSettle]

@[simp] theorem State.flightBuffersBack_standing (s : State) (fs : List Flight) :
    (s.flightBuffersBack fs).standing = s.standing := by
  unfold State.flightBuffersBack
  refine State.foldl_standing fun s f => ?_
  split <;> simp

@[simp] theorem State.withdrawReads_standing (s : State) (i : Nat) : (s.withdrawReads i).standing = s.standing := by
  simp [State.withdrawReads]

@[simp] theorem State.enterEnding_standing (s : State) (i : Nat) (e : EndReason) :
    (s.enterEnding i e).standing = s.standing := by
  simp [State.enterEnding]

@[simp] theorem State.readerLost_standing (s : State) (i off : Nat) : (s.readerLost i off).standing = s.standing := by
  simp [State.readerLost]

@[simp] theorem State.seekEnds_standing (s : State) (i : Nat) (e : Option EndReason) :
    (s.seekEnds i e).standing = s.standing := by
  simp [State.seekEnds]

@[simp] theorem State.expireGrant_standing (s : State) (g : Nat) : (s.expireGrant g).standing = s.standing := by
  simp [State.expireGrant]

@[simp] theorem State.compareGrant_standing (s : State) (g : Nat) : (s.compareGrant g).standing = s.standing := by
  simp [State.compareGrant]

@[simp] theorem State.compareGrants_standing (s : State) : s.compareGrants.standing = s.standing := by
  simp [State.compareGrants]

@[simp] theorem State.wakeStart_standing (s : State) (k : CauseKind) : (s.wakeStart k).standing = s.standing := by
  unfold State.wakeStart
  rfl

@[simp] theorem State.noticeWake_standing (s : State) : s.noticeWake.standing = s.standing := by
  unfold State.noticeWake; split <;> simp

@[simp] theorem State.backToRun_standing (s : State) :
    s.backToRun.standing.core = s.standing.core ∧ s.backToRun.standing.limit = s.standing.limit ∧
    s.backToRun.standing.entries = s.standing.entries := by
  simp [State.backToRun]

@[simp] theorem State.abandonEntry_standing (s : State) :
    s.abandonEntry.standing.core = s.standing.core ∧ s.abandonEntry.standing.limit = s.standing.limit ∧
    s.abandonEntry.standing.entries = s.standing.entries := by
  unfold State.abandonEntry; split <;> simp

@[simp] theorem State.wakeCause_standing (s : State) (k : CauseKind) :
    (s.wakeCause k).standing.core = s.standing.core ∧ (s.wakeCause k).standing.limit = s.standing.limit ∧
    (s.wakeCause k).standing.entries = s.standing.entries := by
  unfold State.wakeCause
  split
  · simp
  · dsimp only
    split
    · simp [State.onPwc_ite]
    · split <;> simp [State.onPwc_ite]
  · simp
  · simp

@[simp] theorem State.wakingEnd_standing (s : State) :
    s.wakingEnd.standing.core = s.standing.core ∧ s.wakingEnd.standing.limit = s.standing.limit ∧
    s.wakingEnd.standing.entries = s.standing.entries := by
  simp [State.wakingEnd]

@[simp] theorem State.beginStep6_standing (s : State) : s.beginStep6.standing = s.standing := by
  unfold State.beginStep6; split <;> simp

@[simp] theorem State.checkStep5_standing (s : State) :
    s.checkStep5.standing.core = s.standing.core ∧ s.checkStep5.standing.limit = s.standing.limit ∧
    s.checkStep5.standing.entries = s.standing.entries := by
  simp [State.checkStep5]

@[simp] theorem State.beginStep5_standing (s : State) :
    s.beginStep5.standing.core = s.standing.core ∧ s.beginStep5.standing.limit = s.standing.limit ∧
    s.beginStep5.standing.entries = s.standing.entries := by
  simp [State.beginStep5]

@[simp] theorem State.stepDone_standing {s : State} {goOn : State → State}
    (h : ∀ s, (goOn s).standing.core = s.standing.core ∧ (goOn s).standing.limit = s.standing.limit ∧
      (goOn s).standing.entries = s.standing.entries) :
    (s.stepDone goOn).standing.core = s.standing.core ∧ (s.stepDone goOn).standing.limit = s.standing.limit ∧
      (s.stepDone goOn).standing.entries = s.standing.entries := by
  unfold State.stepDone
  split <;> simp [h]

@[simp] theorem State.bayOff_standing (s : State) (b : Nat) : (s.bayOff b).standing = s.standing := by
  simp [State.bayOff]

@[simp] theorem State.memberBayOff_standing (s : State) (p : Nat) : (s.memberBayOff p).standing = s.standing := by
  unfold State.memberBayOff; split <;> simp

@[simp] theorem State.noticeMember_standing (s : State) (p : Nat) : (s.noticeMember p).standing = s.standing := by
  simp [State.noticeMember]

@[simp] theorem State.setMember_standing (s : State) (p : Nat) (m : MemberState) :
    (s.setMember p m).standing = s.standing := by
  simp [State.setMember]

@[simp] theorem State.limitFalls_standing (s : State) :
    s.limitFalls.standing.core = s.standing.core ∧ s.limitFalls.standing.entries = s.standing.entries ∧
    s.limitFalls.standing.mem = s.standing.mem := by
  simp [State.limitFalls]

@[simp] theorem State.spinStart_standing (s : State) (e : SpinEntry) : (s.spinStart e).standing = s.standing := by
  unfold State.spinStart; simp; split <;> simp

@[simp] theorem State.spinTest_standing (s : State) (fuel : Nat) : (s.spinTest fuel).standing = s.standing := by
  induction fuel generalizing s with
  | zero => rfl
  | succ n ih =>
    unfold State.spinTest
    split
    · rfl
    · split <;> simp [ih]

@[simp] theorem State.spinChanged_standing (s : State) :
    s.spinChanged.standing.core = s.standing.core ∧ s.spinChanged.standing.entries = s.standing.entries ∧
    s.spinChanged.standing.mem = s.standing.mem := by
  simp [State.spinChanged]

@[simp] theorem State.scrubTest_standing (s : State) : s.scrubTest.standing = s.standing := by
  unfold State.scrubTest; split <;> simp

@[simp] theorem State.scrubWithdraw_standing (s : State) : s.scrubWithdraw.standing = s.standing := by
  unfold State.scrubWithdraw; split <;> simp

@[simp] theorem State.channelsFailed_standing (s : State) : s.channelsFailed.standing = s.standing := by
  simp [State.channelsFailed]

@[simp] theorem State.ingestArrayFailed_standing (s : State) : s.ingestArrayFailed.standing = s.standing := by
  unfold State.ingestArrayFailed
  refine State.each_standing fun s i => ?_
  dsimp only
  split
  · split <;> simp
  · simp

@[simp] theorem State.walkFinishes_standing (s : State) : s.walkFinishes.standing = s.standing := by
  simp [State.walkFinishes]

@[simp] theorem State.releasesArrayFailed_standing (s : State) : s.releasesArrayFailed.standing = s.standing := by
  simp [State.releasesArrayFailed]

@[simp] theorem State.relocAbandoned_standing (s : State) : s.relocAbandoned.standing = s.standing := by
  unfold State.relocAbandoned; split <;> simp

@[simp] theorem State.ctmArrayFailed_standing (s : State) : s.ctmArrayFailed.standing = s.standing := by
  unfold State.ctmArrayFailed
  refine (State.foldl_standing fun s j => ?given).trans ?before
  case given => dsimp only; split <;> simp
  case before =>
    simp only [State.relocAbandoned_standing]
    refine (State.onMec_standing fun _ => rfl).trans ((State.onCtm_standing _ _).trans ?_)
    refine State.foldl_standing fun s r => ?_
    split <;> simp

@[simp] theorem State.iguArrayFailed_standing (s : State) : s.iguArrayFailed.standing = s.standing := by
  simp only [State.iguArrayFailed]; repeat (split <;> try simp)

@[simp] theorem State.answerCheckpoint_standing (s : State) (tag : Nat) (c : Ckpt) :
    (s.answerCheckpoint tag c).standing = s.standing := by
  simp [State.answerCheckpoint]

@[simp] theorem State.ckrArrayFailed_standing (s : State) : s.ckrArrayFailed.standing = s.standing := by
  simp only [State.ckrArrayFailed]; repeat (split <;> try simp)

@[simp] theorem State.entryArrayFailed_standing (s : State) :
    s.entryArrayFailed.standing.core = s.standing.core ∧ s.entryArrayFailed.standing.limit = s.standing.limit ∧
    s.entryArrayFailed.standing.entries = s.standing.entries := by
  simp [State.entryArrayFailed]

@[simp] theorem State.enterFailed_standing (s : State) :
    s.enterFailed.standing.core = s.standing.core ∧ s.enterFailed.standing.limit = s.standing.limit ∧
    s.enterFailed.standing.entries = s.standing.entries := by
  simp [State.enterFailed]

@[simp] theorem State.derive_standing (s : State) :
    s.derive.standing.core = s.standing.core ∧ s.derive.standing.limit = s.standing.limit ∧
    s.derive.standing.entries = s.standing.entries := by
  simp [State.derive]

@[simp] theorem State.unform_standing (s : State) :
    s.unform.standing.core = s.standing.core ∧ s.unform.standing.entries = s.standing.entries ∧
    s.unform.standing.mem = s.standing.mem := by
  simp [State.unform]

@[simp] theorem State.formFail_standing (s : State) (position : Nat) :
    (s.formFail position).standing.core = s.standing.core ∧ (s.formFail position).standing.entries = s.standing.entries ∧
    (s.formFail position).standing.mem = s.standing.mem := by
  unfold State.formFail; split <;> simp

@[simp] theorem State.attachFail_standing (s : State) :
    s.attachFail.standing.core = s.standing.core ∧ s.attachFail.standing.entries = s.standing.entries ∧
    s.attachFail.standing.mem = s.standing.mem := by
  unfold State.attachFail; split <;> simp

@[simp] theorem State.setupLoses_standing (s : State) (p : Nat) :
    (s.setupLoses p).standing.core = s.standing.core ∧ (s.setupLoses p).standing.entries = s.standing.entries ∧
    (s.setupLoses p).standing.mem = s.standing.mem := by
  unfold State.setupLoses; split <;> simp

@[simp] theorem State.adoptionAbort_standing (s : State) (p : Nat) (cause : FailCause) :
    (s.adoptionAbort p cause).standing = s.standing := by
  simp only [State.adoptionAbort]; repeat (split <;> try simp)

@[simp] theorem State.memberReported_standing (s : State) :
    s.memberReported.standing.core = s.standing.core ∧ s.memberReported.standing.limit = s.standing.limit ∧
    s.memberReported.standing.entries = s.standing.entries := by
  simp [State.memberReported]

@[simp] theorem State.memberChange_standing (s : State) (p : Nat) (m : MemberState) :
    (s.memberChange p m).standing.core = s.standing.core ∧ (s.memberChange p m).standing.limit = s.standing.limit ∧
    (s.memberChange p m).standing.entries = s.standing.entries := by
  simp [State.memberChange]

@[simp] theorem State.failMember_standing (s : State) (p : Nat) (cause : FailCause) :
    (s.failMember p cause).standing.core = s.standing.core ∧
    (s.failMember p cause).standing.entries = s.standing.entries := by
  unfold State.failMember
  split
  · simp
  · dsimp only
    split
    · split <;> simp
    · simp

@[simp] theorem State.openIngest_standing (s : State) (tag kind owner : Nat) (albums : Albums) :
    (s.openIngest tag kind owner albums).standing = s.standing := by
  simp only [State.openIngest]; repeat (split <;> try simp)

@[simp] theorem State.ingestReply_standing (s : State) (tag i : Nat) (st : Status) :
    (s.ingestReply tag i st).standing = s.standing := by
  simp [State.ingestReply]

@[simp] theorem State.writeRing_standing (s : State) (i o : Nat) (bs : List Byte) :
    (s.writeRing i o bs).standing.core = s.standing.core ∧ (s.writeRing i o bs).standing.limit = s.standing.limit ∧
    (s.writeRing i o bs).standing.entries = s.standing.entries := by
  unfold State.writeRing; and_intros <;> rfl

@[simp] theorem State.ingestData_standing (s : State) (tag i offset : Nat) (data : List Byte) :
    (s.ingestData tag i offset data).standing.core = s.standing.core ∧
    (s.ingestData tag i offset data).standing.limit = s.standing.limit ∧
    (s.ingestData tag i offset data).standing.entries = s.standing.entries := by
  simp [State.ingestData]

@[simp] theorem State.closeIngest_standing (s : State) (tag i : Nat) : (s.closeIngest tag i).standing = s.standing := by
  simp [State.closeIngest]

@[simp] theorem State.withdrawVerifies_standing (s : State) (i : Nat) : (s.withdrawVerifies i).standing = s.standing := by
  simp [State.withdrawVerifies]

@[simp] theorem State.abortIngest_standing (s : State) (tag i : Nat) :
    (s.abortIngest tag i).standing.core = s.standing.core ∧ (s.abortIngest tag i).standing.limit = s.standing.limit ∧
    (s.abortIngest tag i).standing.mem = s.standing.mem := by
  unfold State.abortIngest; simp; split <;> simp

theorem State.setChunking_standing (s : State) (tag k : Nat) : (s.setChunking tag k).standing = s.standing ∨
    ∃ n, 10 ≤ n ∧ n ≤ 14 ∧ (s.setChunking tag k).standing =
      { s.standing with core := { s.standing.core with order := n } } := by
  unfold State.setChunking
  dsimp only
  split
  · left; simp
  · right
    refine ⟨clamp 10 s.maxOrder k, by unfold clamp; omega, ?_, ?_⟩
    · unfold clamp State.maxOrder; split <;> omega
    · rw [State.answer_standing]; rfl

@[simp] theorem State.verified_standing (s : State) (i no : Nat) (o : VerifyOutcome) :
    (s.verified i no o).standing = s.standing := by
  simp [State.verified]

@[simp] theorem State.lookedUp_standing (s : State) (i : Nat) (r : ChunkRec) :
    (s.lookedUp i r).standing.core = s.standing.core ∧ (s.lookedUp i r).standing.limit = s.standing.limit ∧
    (s.lookedUp i r).standing.mem = s.standing.mem := by
  simp only [State.lookedUp]; repeat (split <;> try simp)

@[simp] theorem State.inserted_standing (s : State) (i : Nat) (r : ChunkRec) (c off place : Nat) :
    (s.inserted i r c off place).standing.core = s.standing.core ∧
    (s.inserted i r c off place).standing.limit = s.standing.limit ∧
    (s.inserted i r c off place).standing.mem = s.standing.mem := by
  unfold State.inserted; dsimp only; split <;> simp

@[simp] theorem State.startWriteOut_standing (s : State) (i : Nat) : (s.startWriteOut i).standing = s.standing := by
  simp [State.startWriteOut]

@[simp] theorem State.leaveOne_standing (s : State) (i : Nat) (r : ChunkRec) (h : Nat) :
    (s.leaveOne i r h).standing = s.standing := by
  unfold State.leaveOne; dsimp only; split <;> simp

@[simp] theorem State.leaveLoop_standing (s : State) (i : Nat) (fuel : Nat) :
    (s.leaveLoop i fuel).standing = s.standing := by
  induction fuel generalizing s with
  | zero => rfl
  | succ n ih =>
    unfold State.leaveLoop
    dsimp only
    repeat (split <;> try simp [ih])

@[simp] theorem State.holdDropped_standing (s : State) (i : Nat) (r : ChunkRec) :
    (s.holdDropped i r).standing = s.standing := by
  simp [State.holdDropped]

@[simp] theorem State.idxReplayMove_standing (s : State) (h : Nat) (f : Fp) (c off : Nat) :
    (s.idxReplayMove h f c off).standing.core = s.standing.core ∧
    (s.idxReplayMove h f c off).standing.limit = s.standing.limit ∧
    (s.idxReplayMove h f c off).standing.mem = s.standing.mem := by
  unfold State.idxReplayMove; simp; split <;> simp

@[simp] theorem State.getObject_standing (s : State) (tag id mode : Nat) :
    (s.getObject tag id mode).standing = s.standing := by
  unfold State.getObject; split <;> simp

@[simp] theorem State.setAlbums_standing (s : State) (tag o : Nat) (albums : Albums) :
    (s.setAlbums tag o albums).standing = s.standing := by
  unfold State.setAlbums; simp; split <;> simp

@[simp] theorem State.releaseObject_standing (s : State) (tag o : Nat) :
    (s.releaseObject tag o).standing = s.standing := by
  unfold State.releaseObject; simp; split <;> simp

@[simp] theorem State.setWalk_standing (s : State) (o : Nat) (w : Walk) : (s.setWalk o w).standing = s.standing := by
  unfold State.setWalk; split <;> simp

@[simp] theorem State.replayWalked_standing (s : State) (a : Attach) (o : Nat) :
    (s.replayWalked a o).standing = s.standing := by
  simp [State.replayWalked]

@[simp] theorem State.afterWalk_standing (s : State) (o : Nat) (recorded : Bool) :
    (s.afterWalk o recorded).standing = s.standing := by
  simp [State.afterWalk]

@[simp] theorem State.walkEnd_standing (s : State) (o : Nat) (r : Obj) (w : Walk) :
    (s.walkEnd o r w).standing = s.standing := by
  unfold State.walkEnd; dsimp only; split <;> simp

@[simp] theorem State.walkStep_standing (s : State) (o : Nat) (r : Obj) (w : Walk) :
    (s.walkStep o r w).standing.core = s.standing.core ∧ (s.walkStep o r w).standing.limit = s.standing.limit ∧
    (s.walkStep o r w).standing.mem = s.standing.mem := by
  simp only [State.walkStep]; repeat (split <;> try simp)

@[simp] theorem State.walkAnswered_standing (s : State) (o ord : Nat) (a : SegAnswer) :
    (s.walkAnswered o ord a).standing = s.standing := by
  simp only [State.walkAnswered]; repeat (split <;> try simp)

@[simp] theorem State.readerAnswered_standing (s : State) (i ord : Nat) (a : SegAnswer) :
    (s.readerAnswered i ord a).standing = s.standing := by
  unfold State.readerAnswered; dsimp only; split <;> simp

@[simp] theorem State.segmentAnswered_standing (s : State) (asker : SegAsker) (o ord : Nat) (a : SegAnswer) :
    (s.segmentAnswered asker o ord a).standing = s.standing := by
  unfold State.segmentAnswered; split <;> simp

@[simp] theorem State.segmentReading_standing (s : State) (fuel : SegAsker) :
    (s.segmentReading fuel).standing = s.standing := by
  unfold State.segmentReading; split <;> simp

@[simp] theorem State.walkLost_standing (s : State) (o : Nat) (r : Obj) : (s.walkLost o r).standing = s.standing := by
  unfold State.walkLost; dsimp only; split <;> simp

@[simp] theorem State.objectLost_standing (s : State) (o : Nat) (r : Obj) : (s.objectLost o r).standing = s.standing := by
  simp only [State.objectLost]; repeat (split <;> try simp)

@[simp] theorem State.failWriters_standing (s : State) (rs : List Returned) :
    (s.failWriters rs).standing.core = s.standing.core ∧ (s.failWriters rs).standing.entries = s.standing.entries := by
  simp [State.failWriters]

@[simp] theorem State.sealWaits_standing (s : State) (by_ : SealBy) (cs : List Nat) :
    (s.sealWaits by_ cs).standing = s.standing := by
  simp [State.sealWaits]

@[simp] theorem State.sealBoth_standing (s : State) :
    (s.sealBoth).1.standing.core = s.standing.core ∧ (s.sealBoth).1.standing.limit = s.standing.limit ∧
    (s.sealBoth).1.standing.entries = s.standing.entries := by
  simp [State.sealBoth]

@[simp] theorem State.forcedSeal_standing (s : State) (by_ : SealBy) :
    (s.forcedSeal by_).standing.core = s.standing.core ∧ (s.forcedSeal by_).standing.limit = s.standing.limit ∧
    (s.forcedSeal by_).standing.entries = s.standing.entries := by
  simp only [State.forcedSeal]; repeat (split <;> try simp)

@[simp] theorem State.settlePlace_standing (s : State) (c : Nat) (fuel : Place) :
    (s.settlePlace c fuel).standing.core = s.standing.core ∧ (s.settlePlace c fuel).standing.limit = s.standing.limit ∧
    (s.settlePlace c fuel).standing.mem = s.standing.mem := by
  simp only [State.settlePlace]; repeat (split <;> try simp)

@[simp] theorem State.objectSealed_standing (s : State) (i length : Nat) :
    (s.objectSealed i length).standing = s.standing := by
  simp only [State.objectSealed]; repeat (split <;> try simp)

@[simp] theorem State.reportPlace_standing (s : State) (c : Nat) (fuel : Place) :
    (s.reportPlace c fuel).standing = s.standing := by
  simp only [State.reportPlace]; repeat (split <;> try simp)

@[simp] theorem State.sealJobsWritten_standing (s : State) (c : Nat) : (s.sealJobsWritten c).standing = s.standing := by
  simp [State.sealJobsWritten]

@[simp] theorem State.containerWritten_standing (s : State) (w : StripeWrite) :
    (s.containerWritten w).standing.core = s.standing.core ∧ (s.containerWritten w).standing.limit = s.standing.limit ∧
    (s.containerWritten w).standing.mem = s.standing.mem := by
  unfold State.containerWritten; dsimp only; split <;> simp

@[simp] theorem State.reportChunk_standing (s : State) (who : ReadBy) (a : ReadAnswer) :
    (s.reportChunk who a).standing = s.standing := by
  simp [State.reportChunk]

@[simp] theorem State.readChunkAt_standing (s : State) (req : ChunkReq) (c off : Nat) :
    (s.readChunkAt req c off).standing = s.standing := by
  unfold State.readChunkAt; split <;> simp

@[simp] theorem State.recordWords_standing (s : State) (c : Nat) : (s.recordWords c).standing = s.standing := by
  simp [State.recordWords]

@[simp] theorem State.outOfService_standing (s : State) (c : Nat) (k : ContKind) (live refs : Nat) :
    (s.outOfService c k live refs).standing = s.standing := by
  simp only [State.outOfService]; repeat (split <;> try simp)

@[simp] theorem State.recoverRead_standing (s : State) : s.recoverRead.standing = s.standing := by
  simp only [State.recoverRead]; repeat (split <;> try simp)

@[simp] theorem State.relocate_standing (s : State) (tag c : Nat) : (s.relocate tag c).standing = s.standing := by
  unfold State.relocate; simp; split <;> simp

@[simp] theorem State.setReloc_standing (s : State) (r : Reloc) : (s.setReloc r).standing = s.standing := by
  simp [State.setReloc]

@[simp] theorem State.relocDirectoryRead_standing (s : State) (r : Reloc) :
    (s.relocDirectoryRead r).standing = s.standing := by
  simp only [State.relocDirectoryRead]; repeat (split <;> try simp)

@[simp] theorem State.relocWalked_standing (s : State) (r : Reloc) : (s.relocWalked r).standing = s.standing := by
  simp [State.relocWalked]

@[simp] theorem State.relocScan_standing (s : State) (r : Reloc) : (s.relocScan r).standing = s.standing := by
  unfold State.relocScan; split <;> simp

@[simp] theorem State.relocChunkRead_standing (s : State) (r : Reloc) : (s.relocChunkRead r).standing = s.standing := by
  simp only [State.relocChunkRead]; repeat (split <;> try simp)

@[simp] theorem State.relocCopied_standing (s : State) (r : Reloc) (bs : List Byte) (c off place : Nat) :
    (s.relocCopied r bs c off place).standing.core = s.standing.core ∧
    (s.relocCopied r bs c off place).standing.limit = s.standing.limit := by
  unfold State.relocCopied; split <;> simp

@[simp] theorem State.relocCopy_standing (s : State) (r : Reloc) (bs : List Byte) (c off place : Nat) :
    (s.relocCopy r bs c off place).standing.core = s.standing.core ∧
    (s.relocCopy r bs c off place).standing.limit = s.standing.limit := by
  simp [State.relocCopy]

@[simp] theorem State.recordLost_standing (s : State) (c : Nat) : (s.recordLost c).standing = s.standing := by
  simp [State.recordLost]

@[simp] theorem State.rebuildLists_standing (s : State) : s.rebuildLists.standing = s.standing := by
  simp [State.rebuildLists]

@[simp] theorem State.countError_standing (s : State) (p : Nat) :
    (s.countError p).standing.core = s.standing.core ∧ (s.countError p).standing.entries = s.standing.entries := by
  simp [State.countError]

@[simp] theorem State.countRetry_standing (s : State) (p : Nat) : (s.countRetry p).standing = s.standing := by
  simp [State.countRetry]

@[simp] theorem State.retryOp_standing (s : State) (p : Nat) (o : Op) : (s.retryOp p o).standing = s.standing := by
  simp [State.retryOp]

@[simp] theorem State.opFailed_standing (s : State) (p : Nat) (o : Op) :
    (s.opFailed p o).standing.core = s.standing.core ∧ (s.opFailed p o).standing.entries = s.standing.entries := by
  simp [State.opFailed]

@[simp] theorem State.timerIdle_standing (s : State) (p : Nat) : (s.timerIdle p).standing = s.standing := by
  simp [State.timerIdle]

@[simp] theorem State.standbyOver_standing (s : State) (p : Nat) : (s.standbyOver p).standing = s.standing := by
  simp [State.standbyOver]

@[simp] theorem State.resendHeld_standing (s : State) (p : Nat) : (s.resendHeld p).standing = s.standing := by
  simp [State.resendHeld]

@[simp] theorem State.memberOff_standing (s : State) (p : Nat) :
    (s.memberOff p).standing.core = s.standing.core ∧ (s.memberOff p).standing.limit = s.standing.limit ∧
    (s.memberOff p).standing.entries = s.standing.entries := by
  simp [State.memberOff]

@[simp] theorem State.standbyAnswered_standing (s : State) (p : Nat) (a : StandbyAsk) :
    (s.standbyAnswered p a).standing.core = s.standing.core ∧ (s.standbyAnswered p a).standing.limit = s.standing.limit ∧
    (s.standbyAnswered p a).standing.entries = s.standing.entries := by
  unfold State.standbyAnswered; split <;> simp

@[simp] theorem State.standbyEnd_standing (s : State) (p : Nat) (success : Bool) :
    (s.standbyEnd p success).standing.core = s.standing.core ∧
    (s.standbyEnd p success).standing.entries = s.standing.entries := by
  simp [State.standbyEnd]

@[simp] theorem State.opEnds_standing (s : State) (p : Nat) (r : Completion) :
    (s.opEnds p r).standing.core = s.standing.core ∧ (s.opEnds p r).standing.entries = s.standing.entries := by
  simp only [State.opEnds]; repeat (split <;> try simp)

@[simp] theorem State.standbyRequested_standing (s : State) (p : Nat) (a : StandbyAsk) :
    (s.standbyRequested p a).standing.core = s.standing.core ∧
    (s.standbyRequested p a).standing.limit = s.standing.limit ∧
    (s.standbyRequested p a).standing.entries = s.standing.entries := by
  simp only [State.standbyRequested]; repeat (split <;> try simp)

@[simp] theorem State.withdrawLabel_standing (s : State) : s.withdrawLabel.standing = s.standing := by
  simp [State.withdrawLabel]

@[simp] theorem State.becomesReady_standing (s : State) (p : Nat) (m : MemberState) :
    (s.becomesReady p m).standing.core = s.standing.core ∧
    (s.becomesReady p m).standing.entries = s.standing.entries := by
  simp [State.becomesReady]

@[simp] theorem State.switchOnConfirmed_standing (s : State) (b : Nat) :
    (s.switchOnConfirmed b).standing = s.standing := by
  unfold State.switchOnConfirmed; dsimp only; split <;> simp

@[simp] theorem State.bayFault_standing (s : State) (b : Nat) :
    (s.bayFault b).standing.core = s.standing.core ∧ (s.bayFault b).standing.entries = s.standing.entries := by
  unfold State.bayFault; dsimp only; split <;> simp

/-- SET_SERVICE_FRAME leaves each channel's frame as it is or puts the new one there, at its first slot (R100). -/
theorem State.setServiceFrame_core (s : State) (tag selector f : Nat) (classes : List Nat) :
    ∃ fs cs, (s.setServiceFrame tag selector f classes).standing = { s.standing with
        core := { s.standing.core with frames := fs } } ∧
      (∀ p : Fin 4, fs[p] = s.standing.core.frames[p] ∨ fs[p] = (cs, 0)) ∧ 4 ≤ cs.length ∧ cs.length ≤ 32 := by
  unfold State.setServiceFrame
  split
  · exact ⟨s.standing.core.frames, List.replicate 4 .read, by simp, fun _ => .inl rfl, by simp⟩
  split
  · exact ⟨s.standing.core.frames, List.replicate 4 .read, by simp, fun _ => .inl rfl, by simp⟩
  dsimp only
  split
  · exact ⟨s.standing.core.frames, List.replicate 4 .read, by simp, fun _ => .inl rfl, by simp⟩
  rename_i cs hcs
  obtain ⟨fs, hfs, hmem⟩ := s.each_setFrame cs (if selector = 4 then List.range 4 else [selector])
  refine ⟨fs, cs, by rw [State.answer_standing, hfs], hmem, ?_⟩
  rw [frameOf_length hcs]
  unfold clamp
  omega

theorem State.putGrant_standing (s : State) (tag g : Nat) (albums : Albums) (notAfter : Time) (allowance : Option Nat)
    (limit : Nat) : (s.putGrant tag g albums notAfter allowance limit).standing = s.standing ∨
    (s.putGrant tag g albums notAfter allowance limit).standing = { s.standing with
      core := { s.standing.core with
        terms := s.standing.core.terms.setIfInBounds g (Grant.put albums notAfter allowance limit).terms } } := by
  unfold State.putGrant
  repeat' split
  case isFalse.isFalse.isFalse.isFalse => right; rw [State.answer_standing, State.setGrant_standing_eq]
  all_goals left; simp

@[simp] theorem State.revokeGrant_standing (s : State) (tag g : Nat) : (s.revokeGrant tag g).standing = s.standing := by
  unfold State.revokeGrant; simp; split <;> simp

@[simp] theorem State.getGrant_standing (s : State) (tag g : Nat) : (s.getGrant tag g).standing = s.standing := by
  simp [State.getGrant]

@[simp] theorem State.openRead_standing (s : State) (tag o g start count : Nat) :
    (s.openRead tag o g start count).standing = s.standing := by
  simp only [State.openRead]; repeat (split <;> try simp)

@[simp] theorem State.stopRead_standing (s : State) (tag i : Nat) : (s.stopRead tag i).standing = s.standing := by
  simp [State.stopRead]

@[simp] theorem State.askSegment_standing (s : State) (i : Nat) : (s.askSegment i).standing = s.standing := by
  simp [State.askSegment]

@[simp] theorem State.sendChunk_standing (s : State) (i h : Nat) (f : Fp) :
    (s.sendChunk i h f).standing = s.standing := by
  simp [State.sendChunk]

/-- An issue charges the grant's limited allowance, or leaves all that stands as it is (R127). -/
theorem State.issueAt_standing (s : State) (i g h : Nat) : (s.issueAt i g h).standing = s.standing ∨
    ∃ left n, (s.grant g).remaining = some left ∧ n ≤ left ∧ (s.issueAt i g h).standing = { s.standing with
      core := { s.standing.core with
        terms := s.standing.core.terms.setIfInBounds g { Grant.terms (s.grant g) with remaining := some n } } } := by
  unfold State.issueAt
  dsimp only
  split
  · split
    · rename_i t ht
      rw [State.sendChunk_standing]
      unfold State.charge at ht
      split at ht
      · cases ht; exact .inl rfl
      · split at ht
        · cases ht; exact .inl rfl
        · rename_i left hleft
          split at ht
          · cases ht
          · cases ht
            exact .inr ⟨left, _, hleft, Nat.sub_le .., by rw [State.setGrant_standing_eq]⟩
    · left; simp
  · left; simp

@[simp] theorem State.dropFlight_standing (s : State) (i : Nat) (f : Flight) :
    (s.dropFlight i f).standing = s.standing := by
  simp [State.dropFlight]

@[simp] theorem State.setFlight_standing (s : State) (i : Nat) (f : Flight) :
    (s.setFlight i f).standing = s.standing := by
  simp [State.setFlight]

@[simp] theorem State.flightReported_standing (s : State) (i : Nat) (f : Flight) (rep : ReadReport) :
    (s.flightReported i f rep).standing = s.standing := by
  unfold State.flightReported; split <;> simp

@[simp] theorem State.messageSent_standing (s : State) (i past len : Nat) :
    (s.messageSent i past len).standing = s.standing := by
  simp only [State.messageSent]; repeat (split <;> try simp)

@[simp] theorem State.messageBad_standing (s : State) (i : Nat) (f : Flight) :
    (s.messageBad i f).standing = s.standing := by
  simp [State.messageBad]

@[simp] theorem State.noticeScrub_standing (s : State) : s.noticeScrub.standing = s.standing := by
  simp [State.noticeScrub]

@[simp] theorem State.passUp_standing (s : State) : s.passUp.standing = s.standing := by
  simp [State.passUp]

@[simp] theorem State.queueStep_standing (s : State) (c : Nat) (wrapped : Bool) :
    (s.queueStep c wrapped).standing = s.standing := by
  simp [State.queueStep]

@[simp] theorem State.scrubSearch_standing (s : State) : s.scrubSearch.standing = s.standing := by
  simp only [State.scrubSearch]; repeat (split <;> try simp)

@[simp] theorem State.markHere_standing (s : State) (c : Nat) (e : DirEntry) :
    (s.markHere c e).standing.core = s.standing.core ∧ (s.markHere c e).standing.limit = s.standing.limit ∧
    (s.markHere c e).standing.mem = s.standing.mem := by
  unfold State.markHere; split <;> simp

@[simp] theorem State.checkEntry_standing (s : State) (c : Nat) (k : ContKind) (area : List Byte) (gone : List Nat)
    (e : DirEntry) :
    (s.checkEntry c k area gone e).standing.core = s.standing.core ∧
    (s.checkEntry c k area gone e).standing.limit = s.standing.limit ∧
    (s.checkEntry c k area gone e).standing.mem = s.standing.mem := by
  unfold State.checkEntry; simp; split <;> simp

@[simp] theorem State.checkContainer_standing (s : State) (c : Nat) (area : List Byte) (gone : List Nat) :
    (s.checkContainer c area gone).standing.core = s.standing.core ∧
    (s.checkContainer c area gone).standing.limit = s.standing.limit ∧
    (s.checkContainer c area gone).standing.mem = s.standing.mem := by
  unfold State.checkContainer; split <;> simp

@[simp] theorem State.bufferErrors_standing (s : State) (bad reread : List Nat) :
    (s.bufferErrors bad reread).standing = s.standing := by
  simp [State.bufferErrors]

@[simp] theorem State.scrubEnd_standing (s : State) (c : Nat) (f : Finding) : (s.scrubEnd c f).standing = s.standing := by
  simp [State.scrubEnd]

@[simp] theorem State.scrubDiscard_standing (s : State) (c : Nat) : (s.scrubDiscard c).standing = s.standing := by
  simp [State.scrubDiscard]

@[simp] theorem State.writeLabel_standing (s : State) (p : Nat) (who : Requester) (j : Job) (l : Label) :
    (s.writeLabel p who j l).standing = s.standing := by
  simp [State.writeLabel]

@[simp] theorem State.walkStarts_standing (s : State) : s.walkStarts.standing = s.standing := by
  simp only [State.walkStarts]; repeat (split <;> try simp)

@[simp] theorem State.copyUnit_standing (s : State) (c : SlotCopy) (start target : Nat) :
    (s.copyUnit c start target).standing = s.standing := by
  unfold State.copyUnit; split <;> simp

@[simp] theorem State.startCopy_standing (s : State) (target : Nat) : (s.startCopy target).standing = s.standing := by
  unfold State.startCopy; split <;> simp

@[simp] theorem State.copyReadBack_standing (s : State) (c : SlotCopy) (target : Nat) (r : Returned) :
    (s.copyReadBack c target r).standing = s.standing := by
  unfold State.copyReadBack; split <;> simp

@[simp] theorem State.copyWriteBack_standing (s : State) (c : SlotCopy) (target : Nat) (r : Returned) :
    (s.copyWriteBack c target r).standing.core = s.standing.core ∧
    (s.copyWriteBack c target r).standing.entries = s.standing.entries := by
  simp [State.copyWriteBack]

theorem State.setScrub_standing (s : State) (tag period : Nat) : (s.setScrub tag period).standing = s.standing ∨
    ∃ p ≤ 65535, (s.setScrub tag period).standing =
      { s.standing with core := { s.standing.core with period := p, timer := p } } := by
  unfold State.setScrub
  split
  · left; simp
  · exact .inr ⟨min 65535 period, by omega, by rw [State.answer_standing]; rfl⟩

@[simp] theorem State.scrubEvaluate_standing (s : State) (st : ScrubStep) :
    (s.scrubEvaluate st).standing.core = s.standing.core ∧ (s.scrubEvaluate st).standing.limit = s.standing.limit ∧
    (s.scrubEvaluate st).standing.mem = s.standing.mem := by
  simp only [State.scrubEvaluate]; repeat (split <;> try simp)

@[simp] theorem State.adopt_standing (s : State) (tag b p : Nat) :
    (s.adopt tag b p).standing.core = s.standing.core ∧ (s.adopt tag b p).standing.limit = s.standing.limit ∧
    (s.adopt tag b p).standing.entries = s.standing.entries := by
  simp [State.adopt]

@[simp] theorem State.adoptMember_standing (s : State) (tag b p : Nat) :
    (s.adoptMember tag b p).standing.core = s.standing.core ∧ (s.adoptMember tag b p).standing.limit = s.standing.limit ∧
    (s.adoptMember tag b p).standing.entries = s.standing.entries := by
  simp [State.adoptMember]

@[simp] theorem State.labelWritten_standing (s : State) (a : Adoption) :
    (s.labelWritten a).standing.core = s.standing.core ∧ (s.labelWritten a).standing.limit = s.standing.limit ∧
    (s.labelWritten a).standing.entries = s.standing.entries := by
  simp [State.labelWritten]

@[simp] theorem State.cursorUp_standing (s : State) (a : Adoption) (c : Nat) :
    (s.cursorUp a c).standing = s.standing := by
  simp [State.cursorUp]

@[simp] theorem State.rebuildBegin_standing (s : State) (c : Nat) : (s.rebuildBegin c).standing = s.standing := by
  simp [State.rebuildBegin]

@[simp] theorem State.walkContainer_standing (s : State) (a : Adoption) (c : Nat) :
    (s.walkContainer a c).standing = s.standing := by
  simp only [State.walkContainer]; repeat (split <;> try simp)

@[simp] theorem State.rebuildEnd_standing (s : State) (c : Nat) (walks : Bool) :
    (s.rebuildEnd c walks).standing = s.standing := by
  unfold State.rebuildEnd; dsimp only; split <;> simp

@[simp] theorem State.rebuildDamaged_standing (s : State) (c : Nat) (area : List Byte) (gone : List Nat) :
    (s.rebuildDamaged c area gone).standing.core = s.standing.core ∧
    (s.rebuildDamaged c area gone).standing.limit = s.standing.limit ∧
    (s.rebuildDamaged c area gone).standing.mem = s.standing.mem := by
  simp [State.rebuildDamaged]

@[simp] theorem State.rebuildEvaluate_standing (s : State) (r : RebuildJob) (p : Nat) :
    (s.rebuildEvaluate r p).standing.core = s.standing.core ∧ (s.rebuildEvaluate r p).standing.limit = s.standing.limit ∧
    (s.rebuildEvaluate r p).standing.mem = s.standing.mem := by
  unfold State.rebuildEvaluate; dsimp only; split <;> simp

@[simp] theorem State.startCheckpoint_standing (s : State) (why : CkptWhy) :
    (s.startCheckpoint why).standing = s.standing := by
  simp [State.startCheckpoint]

@[simp] theorem State.writePartial_standing (s : State) (i : Nat) :
    (s.writePartial i).standing.core = s.standing.core ∧ (s.writePartial i).standing.limit = s.standing.limit ∧
    (s.writePartial i).standing.entries = s.standing.entries := by
  simp [State.writePartial]

@[simp] theorem State.pauseWalks_standing (s : State) : s.pauseWalks.standing = s.standing := by
  simp [State.pauseWalks]

@[simp] theorem State.askCkptSeal_standing (s : State) (c : Ckpt) : (s.askCkptSeal c).standing = s.standing := by
  simp [State.askCkptSeal]

@[simp] theorem State.writePiece_standing (s : State) (c : Ckpt) : (s.writePiece c).standing = s.standing := by
  simp [State.writePiece]

@[simp] theorem State.startCopying_standing (s : State) (c : Ckpt) : (s.startCopying c).standing = s.standing := by
  simp [State.startCopying]

@[simp] theorem State.writeHeader_standing (s : State) (c : Ckpt) (p : Nat) :
    (s.writeHeader c p).standing = s.standing := by
  simp [State.writeHeader]

@[simp] theorem State.pieceBack_standing (s : State) (c : Ckpt) (p : Nat) (ok : Bool) :
    (s.pieceBack c p ok).standing = s.standing := by
  simp [State.pieceBack]

theorem State.arrayUp_core (s : State) (st : ArrayState) :
    Core.Upped s.standing.core (s.arrayUp st).standing.core := by
  obtain ⟨m, hm, h⟩ : ∃ m, 13 ≤ m ∧ (s.arrayUp st).standing.core =
      { s.standing.core with timer := s.standing.core.period, order := min s.standing.core.order m } := by
    have hn : ((s.onCtm fun m => { m with state := st }).noticeArray .state).standing.core = s.standing.core := by simp
    refine ⟨((s.onCtm fun m => { m with state := st }).noticeArray .state).maxOrder, ?_, ?_⟩
    · unfold State.maxOrder; split <;> omega
    · rw [← hn]; rfl
  exact .inr ⟨m, hm, h⟩

@[simp] theorem State.arrayUp_standing (s : State) (st : ArrayState) : (s.arrayUp st).standing.limit = s.standing.limit ∧
    (s.arrayUp st).standing.entries = s.standing.entries ∧ (s.arrayUp st).standing.mem = s.standing.mem := by
  have hn : ((s.onCtm fun m => { m with state := st }).noticeArray .state).standing = s.standing := by simp
  rw [← hn]
  exact ⟨rfl, rfl, rfl⟩

theorem State.formEnd_core (s : State) : Core.Upped s.standing.core s.formEnd.standing.core := by
  unfold State.formEnd
  split
  · exact .refl _
  · have h := State.arrayUp_core (s.onCkr fun k => { k with op := .none, form := none }) .normal
    simpa using h

@[simp] theorem State.formEnd_standing (s : State) : s.formEnd.standing.limit = s.standing.limit ∧
    s.formEnd.standing.entries = s.standing.entries ∧ s.formEnd.standing.mem = s.standing.mem := by
  unfold State.formEnd
  split <;> simp

theorem State.attachEnd_core (s : State) : Core.Upped s.standing.core s.attachEnd.standing.core := by
  unfold State.attachEnd
  split
  · exact .refl _
  · rename_i a _
    have h := State.arrayUp_core (s.onCkr fun k => { k with op := .none, attach := none, figures := a.figures }) a.derived
    simpa using h

@[simp] theorem State.attachEnd_standing (s : State) : s.attachEnd.standing.limit = s.standing.limit ∧
    s.attachEnd.standing.entries = s.standing.entries := by
  unfold State.attachEnd
  split <;> simp

@[simp] theorem State.resume_standing (s : State) : s.resume.standing = s.standing := by
  simp [State.resume]

theorem State.ckptSucceeds_core (s : State) (c : Ckpt) : Core.Upped s.standing.core (s.ckptSucceeds c).standing.core := by
  have hbase (k : Ckr → Ckr) : (((if c.released then s else s.releaseQuarantine).onCkr k).resume).standing.core =
      s.standing.core := by simp
  unfold State.ckptSucceeds
  dsimp only
  split
  · simp [Core.Upped.refl]
  · simp [Core.Upped.refl]
  · rw [← hbase]; exact State.formEnd_core _
  · rw [← hbase]; exact State.attachEnd_core _

@[simp] theorem State.ckptSucceeds_standing (s : State) (c : Ckpt) :
    (s.ckptSucceeds c).standing.limit = s.standing.limit ∧
    (s.ckptSucceeds c).standing.entries = s.standing.entries := by
  unfold State.ckptSucceeds
  dsimp only
  split <;> simp

@[simp] theorem State.ckptFails_standing (s : State) (c : Ckpt) :
    (s.ckptFails c).standing.core = s.standing.core ∧ (s.ckptFails c).standing.entries = s.standing.entries ∧
    (s.ckptFails c).standing.mem = s.standing.mem := by
  unfold State.ckptFails; split <;> simp

theorem State.headersDone_core (s : State) (c : Ckpt) : Core.Upped s.standing.core (s.headersDone c).standing.core := by
  have hbase (p : Job → Bool) (rs : List Returned) : ((s.dropReturned p).failWriters rs).standing.core =
      s.standing.core := by simp
  unfold State.headersDone
  dsimp only
  split
  · simp [Core.Upped.refl]
  · split
    · simp [Core.Upped.refl]
    · rw [← hbase]; exact State.ckptSucceeds_core _ _

@[simp] theorem State.headersDone_standing (s : State) (c : Ckpt) :
    (s.headersDone c).standing.entries = s.standing.entries := by
  unfold State.headersDone
  dsimp only
  split
  · simp
  · split <;> simp

@[simp] theorem State.enterSleepEntry_standing (s : State) (tag : Nat) :
    (s.enterSleepEntry tag).standing = s.standing := by
  simp [State.enterSleepEntry]

@[simp] theorem State.sleep_standing (s : State) (tag : Nat) : (s.sleep tag).standing = s.standing := by
  simp [State.sleep]

@[simp] theorem State.beginStep3_standing (s : State) :
    s.beginStep3.standing.core = s.standing.core ∧ s.beginStep3.standing.limit = s.standing.limit ∧
    s.beginStep3.standing.entries = s.standing.entries := by
  simp [State.beginStep3]

@[simp] theorem State.beginStep4_standing (s : State) : s.beginStep4.standing = s.standing := by
  simp [State.beginStep4]

@[simp] theorem State.forgetTags_standing (s : State) : s.forgetTags.standing = s.standing := by
  simp [State.forgetTags]

@[simp] theorem State.goDark_standing (s : State) : s.goDark.standing = s.standing := by
  unfold State.goDark; dsimp only; split <;> simp

@[simp] theorem State.alarmRings_standing (s : State) (t : Time) :
    (s.alarmRings t).standing.core = s.standing.core ∧ (s.alarmRings t).standing.limit = s.standing.limit ∧
    (s.alarmRings t).standing.entries = s.standing.entries := by
  simp [State.alarmRings]

@[simp] theorem State.compareAlarm_standing (s : State) :
    s.compareAlarm.standing.core = s.standing.core ∧ s.compareAlarm.standing.limit = s.standing.limit ∧
    s.compareAlarm.standing.entries = s.standing.entries := by
  unfold State.compareAlarm; split <;> simp

theorem State.scrubCountdown_standing (s : State) : ∃ n ≤ s.standing.core.timer,
    s.scrubCountdown.standing = { s.standing with core := { s.standing.core with timer := n } } := by
  unfold State.scrubCountdown
  split
  · exact ⟨_, Nat.sub_le .., rfl⟩
  · exact ⟨_, Nat.le_refl _, rfl⟩

theorem State.setTime_core (s : State) (tag : Nat) (t : Time) :
    (s.setTime tag t).standing.core = s.standing.core ∨
    (s.setTime tag t).standing.core = { s.standing.core with time := t } := by
  unfold State.setTime
  split
  · left; simp
  · right
    simp only [State.answer_standing, State.compareAlarm_standing, State.compareGrants_standing]
    rfl

@[simp] theorem State.setTime_standing (s : State) (tag : Nat) (t : Time) :
    (s.setTime tag t).standing.limit = s.standing.limit ∧ (s.setTime tag t).standing.entries = s.standing.entries := by
  unfold State.setTime
  split <;> simp

@[simp] theorem State.setAlarm_standing (s : State) (tag off : Nat) (t : Time) :
    (s.setAlarm tag off t).standing = s.standing := by
  simp [State.setAlarm]

/-- SET_POWER_POLICY changes PWC's settings and the spin-up limit alone of what stands (R166). -/
theorem State.setPowerPolicy_core (s : State) (tag i0 i1 i2 i3 limit grace : Nat) :
    (s.setPowerPolicy tag i0 i1 i2 i3 limit grace).standing.core = s.standing.core ∨
    (s.setPowerPolicy tag i0 i1 i2 i3 limit grace).standing.core = { s.standing.core with
      power := { s.standing.core.power with
        idleTimes := #v[min 255 i0, min 255 i1, min 255 i2, min 255 i3], grace := clamp 1 255 grace,
        limitAsked := clamp 1 4 limit } } := by
  unfold State.setPowerPolicy
  split
  · left; simp
  · right
    simp only [State.answer_standing, State.spinChanged_standing]
    rfl

@[simp] theorem State.setPowerPolicy_standing (s : State) (tag i0 i1 i2 i3 limit grace : Nat) :
    (s.setPowerPolicy tag i0 i1 i2 i3 limit grace).standing.entries = s.standing.entries ∧
    (s.setPowerPolicy tag i0 i1 i2 i3 limit grace).standing.mem = s.standing.mem := by
  unfold State.setPowerPolicy
  split <;> simp

theorem State.setStation_standing (s : State) (tag : Nat) (address : List Byte) (broadcast : Nat) :
    (s.setStation tag address broadcast).standing = s.standing ∨
    ∃ ad b, ad.length = 6 ∧ (s.setStation tag address broadcast).standing = { s.standing with
      core := { s.standing.core with power := { s.standing.core.power with station := ad, broadcast := b } } } := by
  unfold State.setStation
  split
  · left; simp
  · exact .inr ⟨padTo 6 address, settingOn broadcast, by simp [padTo]; omega, by rw [State.answer_standing]; rfl⟩

theorem State.setWakePattern_standing (s : State) (tag number enabled offset length : Nat) (bytes : List Byte)
    (mask : BitVec 16) (interval : Nat) :
    (s.setWakePattern tag number enabled offset length bytes mask interval).standing = s.standing ∨
    (s.setWakePattern tag number enabled offset length bytes mask interval).standing = { s.standing with
      core := { s.standing.core with
        patterns := s.standing.core.patterns.setIfInBounds number (WakePattern.put enabled offset length bytes mask interval) } } := by
  unfold State.setWakePattern
  split
  · left; simp
  · split
    · left; simp
    · exact .inr (by rw [State.answer_standing]; rfl)

@[simp] theorem State.pressed_standing (s : State) (long : Bool) :
    (s.pressed long).standing.core = s.standing.core ∧ (s.pressed long).standing.limit = s.standing.limit ∧
    (s.pressed long).standing.entries = s.standing.entries := by
  simp [State.pressed]

theorem State.setLamps_standing (s : State) (tag mode : Nat) : (s.setLamps tag mode).standing = s.standing ∨
    ∃ m, (s.setLamps tag mode).standing =
      { s.standing with core := { s.standing.core with power := { s.standing.core.power with lampMode := m } } } := by
  unfold State.setLamps
  dsimp only
  split
  · left; simp
  · rename_i m _
    exact .inr ⟨m, by rw [State.answer_standing]; rfl⟩

@[simp] theorem State.noticeMemory_standing (s : State) (c : MemoryCause) : (s.noticeMemory c).standing = s.standing := by
  simp [State.noticeMemory]

@[simp] theorem State.corrected_standing (s : State) : s.corrected.standing = s.standing := by
  simp [State.corrected]

@[simp] theorem State.wordLost_standing (s : State) (w : Nat) : (s.wordLost w).standing = s.standing := by
  simp [State.wordLost]

@[simp] theorem State.uncorrectable_standing (s : State) (w : Nat) :
    (s.uncorrectable w).standing.core = s.standing.core ∧ (s.uncorrectable w).standing.limit = s.standing.limit ∧
    (s.uncorrectable w).standing.entries = s.standing.entries := by
  unfold State.uncorrectable; split <;> simp

@[simp] theorem State.checkWords_standing (s : State) (b : Burst) (ws : List Nat) :
    (s.checkWords b ws).1.standing.core = s.standing.core ∧ (s.checkWords b ws).1.standing.limit = s.standing.limit ∧
    (s.checkWords b ws).1.standing.entries = s.standing.entries := by
  induction ws generalizing s with
  | nil => exact ⟨rfl, rfl, rfl⟩
  | cons w ws ih =>
    unfold State.checkWords
    split <;> simp [ih]

@[simp] theorem State.storeBurst_standing (s : State) (b : Burst) :
    (s.storeBurst b).standing.core = s.standing.core ∧ (s.storeBurst b).standing.limit = s.standing.limit ∧
    (s.storeBurst b).standing.entries = s.standing.entries := by
  simp [State.storeBurst]

theorem State.carryBurst_core (s : State) (b : Burst) :
    (s.carryBurst b).standing.core = { s.standing.core with owed := 0 } := by
  have hlast (t : State) : (t.onMec fun m => { m with owed := 0 }).standing.core = { t.standing.core with owed := 0 } := rfl
  unfold State.carryBurst
  dsimp only
  rw [hlast]
  split <;> split <;> simp

@[simp] theorem State.carryBurst_standing (s : State) (b : Burst) :
    (s.carryBurst b).standing.limit = s.standing.limit ∧ (s.carryBurst b).standing.entries = s.standing.entries := by
  have hlast (t : State) : (t.onMec fun m => { m with owed := 0 }).standing.limit = t.standing.limit ∧
    (t.onMec fun m => { m with owed := 0 }).standing.entries = t.standing.entries := ⟨rfl, rfl⟩
  unfold State.carryBurst
  dsimp only
  rw [(hlast _).1, (hlast _).2]
  split <;> split <;> simp

@[simp] theorem State.askMap_standing (s : State) (b c : Nat) : (s.askMap b c).standing = s.standing := by
  unfold State.askMap; split <;> simp

@[simp] theorem State.askMarker_standing (s : State) : s.askMarker.standing = s.standing := by
  unfold State.askMarker; split <;> simp

@[simp] theorem State.bind_standing (s : State) (p : Nat) (bay : Option Nat) (m : Member) :
    (s.bind p bay m).standing = s.standing := by
  simp [State.bind]

@[simp] theorem State.beginForming_standing (s : State) (tag : Nat) (l : Layout) (bays : List Nat) (buckets : Nat) :
    (s.beginForming tag l bays buckets).standing = s.standing := by
  have hbind (s : State) (p : Nat) : (match bays[p]? with
      | some b => s.bind p (some b) (Member.joins .off)
      | none => s.bind p none (s.chan p).member.gone).standing = s.standing := by split <;> simp
  unfold State.beginForming
  rw [State.submitAll_standing, State.each_standing fun s p => by split <;> simp]
  simp

@[simp] theorem State.formArray_standing (s : State) (tag layout count : Nat) (bays : List Nat) (buckets : Nat) :
    (s.formArray tag layout count bays buckets).standing = s.standing := by
  unfold State.formArray; simp; split <;> simp

@[simp] theorem State.emptyTables_standing (s : State) (f : Forming) (m r c : Nat) :
    (s.emptyTables f m r c).standing.core =
      { s.standing.core with identity := (s.emptyTables f m r c).tables.array.map ArrayRec.identity } ∧
    (s.emptyTables f m r c).standing.limit = s.standing.limit ∧
    (s.emptyTables f m r c).standing.mem = s.standing.mem := by
  unfold State.emptyTables; and_intros <;> rfl

@[simp] theorem State.writeLabels_standing (s : State) (n : Nat) : (s.writeLabels n).standing = s.standing := by
  simp [State.writeLabels]

/-- Sizing an array changes the array record and the index entries alone of what stands (R219). -/
theorem State.sizeArray_core (s : State) (f : Forming) : (s.sizeArray f).standing.core = s.standing.core ∨
    ∃ i, (s.sizeArray f).standing.core = { s.standing.core with identity := i } := by
  have hempty (s : State) (f : Forming) (m r c : Nat) : ∃ i, (s.emptyTables f m r c).standing.core =
      { s.standing.core with identity := i } := ⟨_, rfl⟩
  unfold State.sizeArray
  dsimp only
  split
  · left; simp
  · split
    · left; simp
    · obtain ⟨i, hi⟩ := hempty ((s.askMap f.buckets _).onCkr _) f _ _ _
      exact .inr ⟨i, by rw [State.writeLabels_standing, hi]; simp only [State.onCkr_standing, State.askMap_standing]⟩

@[simp] theorem State.sizeArray_standing (s : State) (f : Forming) :
    (s.sizeArray f).standing.mem = s.standing.mem := by
  have hempty (s : State) (f : Forming) (m r c : Nat) : (s.emptyTables f m r c).standing.mem = s.standing.mem := rfl
  unfold State.sizeArray
  dsimp only
  split
  · simp
  · split <;> simp [hempty]

@[simp] theorem State.checkpoint_standing (s : State) (tag : Nat) : (s.checkpoint tag).standing = s.standing := by
  simp [State.checkpoint]

@[simp] theorem State.adjustContainers_standing (s : State) :
    s.adjustContainers.standing.core = s.standing.core ∧ s.adjustContainers.standing.limit = s.standing.limit ∧
    s.adjustContainers.standing.mem = s.standing.mem := by
  simp [State.adjustContainers]

@[simp] theorem State.closeAttach_standing (s : State) (a : Attach) :
    (s.closeAttach a).standing.core = s.standing.core ∧ (s.closeAttach a).standing.limit = s.standing.limit ∧
    (s.closeAttach a).standing.mem = s.standing.mem := by
  simp [State.closeAttach]

@[simp] theorem State.adjustObjects_standing (s : State) : s.adjustObjects.standing = s.standing := by
  simp [State.adjustObjects]

@[simp] theorem State.beginAttach_standing (s : State) (tag : Nat) : (s.beginAttach tag).standing = s.standing := by
  simp [State.beginAttach]

@[simp] theorem State.attachArray_standing (s : State) (tag : Nat) : (s.attachArray tag).standing = s.standing := by
  simp [State.attachArray]

@[simp] theorem State.rebind_standing (s : State) (ls : List (Nat × Label)) :
    (s.rebind ls).standing.core = s.standing.core ∧ (s.rebind ls).standing.entries = s.standing.entries ∧
    (s.rebind ls).standing.mem = s.standing.mem := by
  unfold State.rebind
  simp only [State.limitFalls_standing, State.each_standing, State.bayOff_standing, State.idleUpdate_standing, implies_true]
  refine ⟨congrArg Standing.core ?_, congrArg Standing.entries ?_, congrArg Standing.mem ?_⟩ <;>
    exact (State.each_standing fun _ _ => by split <;> simp).trans (by simp)

@[simp] theorem State.setAttach_standing (s : State) (a : Attach) : (s.setAttach a).standing = s.standing := by
  simp [State.setAttach]

@[simp] theorem State.dropPosition_standing (s : State) (p : Nat) : (s.dropPosition p).standing = s.standing := by
  unfold State.dropPosition
  simp

@[simp] theorem State.dropPositions_standing (s : State) (ps : List Nat) :
    (s.dropPositions ps).standing.core = s.standing.core ∧ (s.dropPositions ps).standing.entries = s.standing.entries ∧
    (s.dropPositions ps).standing.mem = s.standing.mem := by
  simp [State.dropPositions]

@[simp] theorem State.readHeaders_standing (s : State) (a : Attach) : (s.readHeaders a).standing = s.standing := by
  simp [State.readHeaders]

@[simp] theorem State.chooseWarm_standing (s : State) (a : Attach) (l : Label) :
    (s.chooseWarm a l).1.standing = s.standing := by
  simp only [State.chooseWarm]; repeat (split <;> try simp)

@[simp] theorem State.takeLabels_standing (s : State) (a : Attach) (ls : List (Nat × Label)) :
    (s.takeLabels a ls).standing.core = s.standing.core ∧ (s.takeLabels a ls).standing.entries = s.standing.entries ∧
    (s.takeLabels a ls).standing.mem = s.standing.mem := by
  unfold State.takeLabels
  split
  · simp
  · dsimp only
    split
    · simp
    · split <;> simp

@[simp] theorem State.dropStale_standing (s : State) (a : Attach) (seq : Nat) :
    (s.dropStale a seq).1.standing.core = s.standing.core ∧ (s.dropStale a seq).1.standing.entries = s.standing.entries ∧
    (s.dropStale a seq).1.standing.mem = s.standing.mem := by
  simp [State.dropStale]

@[simp] theorem State.readBody_standing (s : State) (a : Attach) (sl : Slot) (seq : Nat) (members : List Nat) :
    (s.readBody a sl seq members).standing.core = s.standing.core ∧
    (s.readBody a sl seq members).standing.entries = s.standing.entries ∧
    (s.readBody a sl seq members).standing.mem = s.standing.mem := by
  unfold State.readBody; split <;> simp

@[simp] theorem State.loadSlot_standing (s : State) (a : Attach) (e : Bool × Nat) :
    (s.loadSlot a e).standing.core = s.standing.core ∧ (s.loadSlot a e).standing.entries = s.standing.entries ∧
    (s.loadSlot a e).standing.mem = s.standing.mem := by
  simp [State.loadSlot]

@[simp] theorem State.tryOther_standing (s : State) (a : Attach) :
    (s.tryOther a).standing.core = s.standing.core ∧ (s.tryOther a).standing.entries = s.standing.entries ∧
    (s.tryOther a).standing.mem = s.standing.mem := by
  unfold State.tryOther; simp; split <;> simp

@[simp] theorem State.giveBackHolds_standing (s : State) :
    s.giveBackHolds.standing.core = s.standing.core ∧ s.giveBackHolds.standing.limit = s.standing.limit ∧
    s.giveBackHolds.standing.mem = s.standing.mem := by
  simp [State.giveBackHolds]

@[simp] theorem State.warmAttach_standing (s : State) (a : Attach) (e : Bool × Nat) (q : Nat) :
    (s.warmAttach a e q).standing.core = s.standing.core ∧ (s.warmAttach a e q).standing.mem = s.standing.mem := by
  unfold State.warmAttach
  dsimp only
  split <;> simp

@[simp] theorem State.takeHeaders_standing (s : State) (a : Attach) :
    (s.takeHeaders a).standing.core = s.standing.core ∧ (s.takeHeaders a).standing.mem = s.standing.mem := by
  unfold State.takeHeaders; split <;> simp

@[simp] theorem State.applyContainer_standing (s : State) (x : Accepted) :
    (s.applyContainer x).standing = s.standing := by
  simp [State.applyContainer]

@[simp] theorem State.endScan_standing (s : State) (a : Attach) : (s.endScan a).standing = s.standing := by
  unfold State.endScan
  simp

@[simp] theorem State.scanNext_standing (s : State) (a : Attach) : (s.scanNext a).standing = s.standing := by
  unfold State.scanNext; split <;> simp

theorem State.loadBody_core (s : State) (a : Attach) (l : Label) (h : SlotHeader) (body : List Byte) :
    ∃ i, (s.loadBody a l h body).standing.core = { s.standing.core with identity := i } := by
  obtain ⟨i, hload⟩ : ∃ i, ∀ s : State, (s.tablesWritten (loadedTables body l h)).standing.core =
    { s.standing.core with identity := i } := ⟨_, fun _ => rfl⟩
  unfold State.loadBody
  dsimp only
  split
  · exact ⟨s.standing.core.identity, by simp⟩
  · exact ⟨i, by split <;> simp [hload]⟩

@[simp] theorem State.loadBody_standing (s : State) (a : Attach) (l : Label) (h : SlotHeader) (body : List Byte) :
    (s.loadBody a l h body).standing.mem = s.standing.mem := by
  have hload (s : State) : (s.tablesWritten (loadedTables body l h)).standing.mem = s.standing.mem := rfl
  unfold State.loadBody
  dsimp only
  split
  · simp
  · split <;> simp [hload]

theorem State.checkBody_core (s : State) (a : Attach) (l : Label) (h : SlotHeader) :
    ∃ i, (s.checkBody a l h).standing.core = { s.standing.core with identity := i } := by
  unfold State.checkBody
  dsimp only
  split
  · exact State.loadBody_core ..
  · split <;> exact ⟨s.standing.core.identity, by simp⟩

@[simp] theorem State.checkBody_standing (s : State) (a : Attach) (l : Label) (h : SlotHeader) :
    (s.checkBody a l h).standing.mem = s.standing.mem := by
  unfold State.checkBody
  dsimp only
  split
  · simp
  · split <;> simp

theorem State.takeBody_core (s : State) (a : Attach) (l : Label) (h : SlotHeader) (rs : List Returned) :
    ∃ i, (s.takeBody a l h rs).standing.core = { s.standing.core with identity := i } := by
  unfold State.takeBody
  dsimp only
  split
  · exact State.checkBody_core ..
  · split <;> exact ⟨s.standing.core.identity, by simp⟩

@[simp] theorem State.takeBody_standing (s : State) (a : Attach) (l : Label) (h : SlotHeader) (rs : List Returned) :
    (s.takeBody a l h rs).standing.mem = s.standing.mem := by
  unfold State.takeBody
  dsimp only
  split
  · simp
  · split <;> simp

@[simp] theorem State.scanned_standing (s : State) (a : Attach) (c : Nat) (rs : List Returned) :
    (s.scanned a c rs).standing = s.standing := by
  simp only [State.scanned]; repeat (split <;> try simp)

@[simp] theorem State.countReplay_standing (s : State) (f : Figures → Figures) :
    (s.countReplay f).standing = s.standing := by
  simp [State.countReplay]

@[simp] theorem State.countAnswer_standing (s : State) : s.countAnswer.standing = s.standing := by
  unfold State.countAnswer; split <;> simp

@[simp] theorem State.applyEntry_standing (s : State) (c : Nat) (e : DirEntry) :
    (s.applyEntry c e).standing.core = s.standing.core ∧ (s.applyEntry c e).standing.limit = s.standing.limit ∧
    (s.applyEntry c e).standing.mem = s.standing.mem := by
  simp only [State.applyEntry]; repeat (split <;> try simp)

@[simp] theorem State.applySegment_standing (s : State) (c off o ord : Nat) (hs : List Nat) :
    (s.applySegment c off o ord hs).standing.core = s.standing.core ∧
    (s.applySegment c off o ord hs).standing.limit = s.standing.limit ∧
    (s.applySegment c off o ord hs).standing.mem = s.standing.mem := by
  unfold State.applySegment; dsimp only; split <;> simp

@[simp] theorem State.applySeal_standing (s : State) (o len chunks kind owner : Nat) (al : Albums) (segs : Nat) :
    (s.applySeal o len chunks kind owner al segs).standing = s.standing := by
  unfold State.applySeal; split <;> simp

@[simp] theorem State.replayFree_standing (s : State) (o : Nat) : (s.replayFree o).standing = s.standing := by
  simp [State.replayFree]

@[simp] theorem State.applyRelease_standing (s : State) (o : Nat) : (s.applyRelease o).standing = s.standing := by
  unfold State.applyRelease; split <;> simp

@[simp] theorem State.applyItem_standing (s : State) (fuel : ReplayItem) :
    (s.applyItem fuel).standing.core = s.standing.core ∧ (s.applyItem fuel).standing.limit = s.standing.limit ∧
    (s.applyItem fuel).standing.mem = s.standing.mem := by
  simp only [State.applyItem]; repeat (split <;> try simp)

@[simp] theorem State.applyItems_standing (s : State) (fuel : Nat) :
    (s.applyItems fuel).standing.core = s.standing.core ∧ (s.applyItems fuel).standing.limit = s.standing.limit ∧
    (s.applyItems fuel).standing.mem = s.standing.mem := by
  induction fuel generalizing s with
  | zero => simp [State.applyItems]
  | succ n ih =>
    unfold State.applyItems
    repeat (split <;> try simp [ih])

@[simp] theorem State.endReplay_standing (s : State) : s.endReplay.standing = s.standing := by
  unfold State.endReplay; split <;> simp

@[simp] theorem State.removeUnraised_standing (s : State) (es : List DirEntry) :
    (s.removeUnraised es).standing.core = s.standing.core ∧ (s.removeUnraised es).standing.limit = s.standing.limit ∧
    (s.removeUnraised es).standing.mem = s.standing.mem := by
  simp [State.removeUnraised]

@[simp] theorem State.nextDirectory_standing (s : State) (a : Attach) :
    (s.nextDirectory a).standing.core = s.standing.core ∧ (s.nextDirectory a).standing.limit = s.standing.limit ∧
    (s.nextDirectory a).standing.mem = s.standing.mem := by
  unfold State.nextDirectory; split <;> simp

@[simp] theorem State.directoryRead_standing (s : State) (rep : ReadReport) :
    (s.directoryRead rep).standing.core = s.standing.core ∧ (s.directoryRead rep).standing.limit = s.standing.limit ∧
    (s.directoryRead rep).standing.mem = s.standing.mem := by
  simp only [State.directoryRead]; repeat (split <;> try simp)

@[simp] theorem State.frameDiscarded_standing (s : State) : s.frameDiscarded.standing = s.standing := by
  simp [State.frameDiscarded]

@[simp] theorem State.headerComplete_standing (s : State) (bs : List Byte) :
    (s.headerComplete bs).standing.core = s.standing.core ∧ (s.headerComplete bs).standing.limit = s.standing.limit ∧
    (s.headerComplete bs).standing.entries = s.standing.entries := by
  unfold State.headerComplete; split <;> simp

@[simp] theorem State.frameOffered_standing (s : State) (h : Header) (payload : List Byte) (crc : Crc) :
    (s.frameOffered h payload crc).standing = s.standing := by
  unfold State.frameOffered; split <;> simp

@[simp] theorem State.begin_standing (s : State) (m : OutMsg) : (s.begin_ m).standing = s.standing := by
  simp [State.begin_]

@[simp] theorem State.beginNotice_standing (s : State) (n : Nat) (fs : List Field) :
    (s.beginNotice n fs).standing = s.standing := by
  simp [State.beginNotice]

@[simp] theorem State.beginData_standing (s : State) (i off : Nat) (bs : List Byte) :
    (s.beginData i off bs).standing = s.standing := by
  simp [State.beginData]

@[simp] theorem State.arbitrate_standing (s : State) : s.arbitrate.standing = s.standing := by
  simp only [State.arbitrate]; repeat (split <;> try simp)

@[simp] theorem State.getStatus_standing (s : State) (tag figures : Nat) :
    (s.getStatus tag figures).standing = s.standing := by
  unfold State.getStatus; split <;> simp

end Sys2Proof.Machine

/-! # Proofs: the memory keeps its form, and the spin-up limit its range -/

namespace Sys2Proof.Machine

section MemoryForm

variable (s : State)

@[simp] theorem State.rewords_wf (touch : Nat → Bool) (hm : Memory.wf s.standing.mem = true) :
    Memory.wf (s.rewords touch).standing.mem = true := State.wf_rewords s touch hm

@[simp] theorem State.writeMem_wf (a : Nat) (bs : List Byte) (hm : Memory.wf s.standing.mem = true) :
    Memory.wf (s.writeMem a bs).standing.mem = true := State.wf_writeMem s a bs hm

@[simp] theorem State.zeroMem_wf (a n : Nat) (hm : Memory.wf s.standing.mem = true) :
    Memory.wf (s.zeroMem a n).standing.mem = true := State.wf_zeroMem s a n hm

@[simp] theorem State.foldl_wf {α : Type} {s : State} {as : List α} {f : State → α → State}
    (h : ∀ s a, Memory.wf s.standing.mem = true → Memory.wf (f s a).standing.mem = true)
    (hm : Memory.wf s.standing.mem = true) : Memory.wf (as.foldl f s).standing.mem = true := by
  induction as generalizing s with
  | nil => exact hm
  | cons a as ih => exact ih (h s a hm)

@[simp] theorem State.each_wf {s : State} {ns : List Nat} {f : State → Nat → State}
    (h : ∀ s n, Memory.wf s.standing.mem = true → Memory.wf (f s n).standing.mem = true)
    (hm : Memory.wf s.standing.mem = true) : Memory.wf (s.each ns f).standing.mem = true := State.foldl_wf h hm

@[simp] theorem Memory.wf_ite (c : Prop) [Decidable c] (a b : List Host.Cell) :
    Memory.wf (if c then a else b) = if c then Memory.wf a else Memory.wf b := apply_ite Memory.wf c a b

end MemoryForm

@[simp] theorem State.openContainer_wf (s : State) (k : ContKind) (hm : Memory.wf s.standing.mem = true) :
    Memory.wf (s.openContainer k).1.standing.mem = true := by
  unfold State.openContainer
  repeat' split
  all_goals simp [hm]

@[simp] theorem State.finishStripe_wf (s : State) (b : Nat) (k : ContKind) (seq : Nat) (l : Layout)
    (hm : Memory.wf s.standing.mem = true) :
    Memory.wf (s.finishStripe b k seq l).1.standing.mem = true := by
  unfold State.finishStripe
  simp [hm]

@[simp] theorem State.issueWrite_wf (s : State) (c b : Nat) (k : ContKind) (seq : Nat) (l : Layout)
    (hm : Memory.wf s.standing.mem = true) :
    Memory.wf (s.issueWrite c b k seq l).standing.mem = true := by
  unfold State.issueWrite
  simp [hm]

@[simp] theorem State.lateCopy_wf (s : State) (c b : Nat) (hm : Memory.wf s.standing.mem = true) :
    Memory.wf (s.lateCopy c b).standing.mem = true := by
  unfold State.lateCopy
  split <;> simp [hm]

@[simp] theorem State.sealContainer_wf (s : State) (c : Nat) (hm : Memory.wf s.standing.mem = true) :
    Memory.wf (s.sealContainer c).standing.mem = true := by
  unfold State.sealContainer
  split <;> simp [hm]

@[simp] theorem State.forceSeal_wf (s : State) (k : ContKind) (hm : Memory.wf s.standing.mem = true) :
    Memory.wf (s.forceSeal k).1.standing.mem = true := by
  unfold State.forceSeal
  repeat' split
  all_goals simp [hm]

@[simp] theorem State.roomFor_wf (s : State) (k : ContKind) (len : Nat) (hm : Memory.wf s.standing.mem = true) :
    Memory.wf (s.roomFor k len).1.standing.mem = true := by
  unfold State.roomFor
  repeat' split
  all_goals simp [hm]

@[simp] theorem State.placeChunk_wf (s : State) (len : Nat) (hm : Memory.wf s.standing.mem = true) :
    Memory.wf (s.placeChunk len).1.standing.mem = true := by
  have h := s.roomFor_wf .data len hm
  unfold State.placeChunk
  split <;> simp_all

@[simp] theorem State.placeRecord_wf (s : State) (r : RecipeRec) (hm : Memory.wf s.standing.mem = true) :
    Memory.wf (s.placeRecord r).1.standing.mem = true := by
  have h := s.roomFor_wf .recipe r.size hm
  unfold State.placeRecord
  split
  · dsimp only
    split <;> simp_all
  · simp_all
  · simp_all

@[simp] theorem State.copyChunk_wf (s : State) (c off place : Nat) (moved : Bool) (h : Nat) (f : Fp) (bytes : List Byte)
    (hm : Memory.wf s.standing.mem = true) :
    Memory.wf (s.copyChunk c off place moved h f bytes).standing.mem = true := by
  unfold State.copyChunk
  dsimp only
  repeat' split
  all_goals simp [hm]

@[simp] theorem State.tryRecord_wf (s : State) (req : RecordReq) (hm : Memory.wf s.standing.mem = true) :
    Memory.wf (s.tryRecord req).standing.mem = true := by
  unfold State.tryRecord
  split
  · simp [hm]
  · rename_i r _
    have h := s.placeRecord_wf r hm
    split <;> simp_all

@[simp] theorem State.tryChunk_wf (s : State) (who : PlaceFor) (hm : Memory.wf s.standing.mem = true) :
    Memory.wf (s.tryChunk who).standing.mem = true := by
  unfold State.tryChunk
  split
  · simp [hm]
  · rename_i len _
    have h := s.placeChunk_wf len hm
    split <;> simp_all

@[simp] theorem State.tryWaiter_wf (s : State) (w : Waiter) (hm : Memory.wf s.standing.mem = true) :
    Memory.wf (s.tryWaiter w).standing.mem = true := by
  unfold State.tryWaiter
  repeat' split
  all_goals simp [hm]

@[simp] theorem State.retryWaiting_wf (s : State) (hm : Memory.wf s.standing.mem = true) :
    Memory.wf s.retryWaiting.standing.mem = true := by
  unfold State.retryWaiting
  dsimp only
  simp_all

@[simp] theorem State.backToRun_wf (s : State) (hm : Memory.wf s.standing.mem = true) :
    Memory.wf s.backToRun.standing.mem = true := by
  unfold State.backToRun
  simp [hm]

@[simp] theorem State.abandonEntry_wf (s : State) (hm : Memory.wf s.standing.mem = true) :
    Memory.wf s.abandonEntry.standing.mem = true := by
  unfold State.abandonEntry
  split <;> simp [hm]

@[simp] theorem State.wakeCause_wf (s : State) (k : CauseKind) (hm : Memory.wf s.standing.mem = true) :
    Memory.wf (s.wakeCause k).standing.mem = true := by
  unfold State.wakeCause
  dsimp only
  repeat' split
  all_goals simp [hm]

@[simp] theorem State.wakingEnd_wf (s : State) (hm : Memory.wf s.standing.mem = true) :
    Memory.wf s.wakingEnd.standing.mem = true := by
  unfold State.wakingEnd
  simp [hm]

@[simp] theorem State.checkStep5_wf (s : State) (hm : Memory.wf s.standing.mem = true) :
    Memory.wf s.checkStep5.standing.mem = true := by
  unfold State.checkStep5
  simp [hm]

@[simp] theorem State.beginStep5_wf (s : State) (hm : Memory.wf s.standing.mem = true) :
    Memory.wf s.beginStep5.standing.mem = true := by
  unfold State.beginStep5
  simp [hm]

@[simp] theorem State.stepDone_wf {s : State} {goOn : State → State}
    (h : ∀ s, Memory.wf s.standing.mem = true → Memory.wf (goOn s).standing.mem = true)
    (hm : Memory.wf s.standing.mem = true) : Memory.wf (s.stepDone goOn).standing.mem = true := by
  unfold State.stepDone
  split <;> simp [h, hm]

@[simp] theorem State.entryArrayFailed_wf (s : State) (hm : Memory.wf s.standing.mem = true) :
    Memory.wf s.entryArrayFailed.standing.mem = true := by
  unfold State.entryArrayFailed
  simp [State.stepDone_wf fun s hm => s.beginStep5_wf hm, hm]

@[simp] theorem State.enterFailed_wf (s : State) (hm : Memory.wf s.standing.mem = true) :
    Memory.wf s.enterFailed.standing.mem = true := by
  unfold State.enterFailed
  simp [hm]

@[simp] theorem State.derive_wf (s : State) (hm : Memory.wf s.standing.mem = true) :
    Memory.wf s.derive.standing.mem = true := by
  unfold State.derive
  simp [hm]

@[simp] theorem State.memberReported_wf (s : State) (hm : Memory.wf s.standing.mem = true) :
    Memory.wf s.memberReported.standing.mem = true := by
  unfold State.memberReported
  simp [hm]

@[simp] theorem State.memberChange_wf (s : State) (p : Nat) (m : MemberState) (hm : Memory.wf s.standing.mem = true) :
    Memory.wf (s.memberChange p m).standing.mem = true := by
  unfold State.memberChange
  simp [hm]

@[simp] theorem State.failMember_wf (s : State) (p : Nat) (cause : FailCause) (hm : Memory.wf s.standing.mem = true) :
    Memory.wf (s.failMember p cause).standing.mem = true := by
  unfold State.failMember
  dsimp only
  repeat' split
  all_goals simp [hm]

theorem ringWrite_wf (i : Nat) (bs : List Byte) (m : List Host.Cell) (o : Nat) (hm : Memory.wf m = true) :
    Memory.wf (ringWrite i m o bs) = true := by
  induction bs generalizing m o with
  | nil => exact hm
  | cons b bs ih => exact ih _ _ (Memory.wf_put _ _ hm)

@[simp] theorem State.writeRing_wf (s : State) (i o : Nat) (bs : List Byte) (hm : Memory.wf s.standing.mem = true) :
    Memory.wf (s.writeRing i o bs).standing.mem = true := ringWrite_wf i bs _ o (s.rewords_wf _ hm)

@[simp] theorem State.ingestData_wf (s : State) (tag i offset : Nat) (data : List Byte)
    (hm : Memory.wf s.standing.mem = true) :
    Memory.wf (s.ingestData tag i offset data).standing.mem = true := by
  unfold State.ingestData
  simp [hm]

@[simp] theorem State.failWriters_wf (s : State) (rs : List Returned) (hm : Memory.wf s.standing.mem = true) :
    Memory.wf (s.failWriters rs).standing.mem = true := by
  unfold State.failWriters
  exact State.foldl_wf (fun s r hm => by simp [hm]) hm

@[simp] theorem State.sealBoth_wf (s : State) (hm : Memory.wf s.standing.mem = true) :
    Memory.wf (s.sealBoth).1.standing.mem = true := by
  unfold State.sealBoth
  simp [hm]

@[simp] theorem State.forcedSeal_wf (s : State) (by_ : SealBy) (hm : Memory.wf s.standing.mem = true) :
    Memory.wf (s.forcedSeal by_).standing.mem = true := by
  unfold State.forcedSeal
  repeat' split
  all_goals simp [hm]

@[simp] theorem State.relocCopied_wf (s : State) (r : Reloc) (bs : List Byte) (c off place : Nat)
    (hm : Memory.wf s.standing.mem = true) :
    Memory.wf (s.relocCopied r bs c off place).standing.mem = true := by
  unfold State.relocCopied
  split <;> simp [hm]

@[simp] theorem State.relocCopy_wf (s : State) (r : Reloc) (bs : List Byte) (c off place : Nat)
    (hm : Memory.wf s.standing.mem = true) :
    Memory.wf (s.relocCopy r bs c off place).standing.mem = true := by
  unfold State.relocCopy
  simp [hm]

@[simp] theorem State.countError_wf (s : State) (p : Nat) (hm : Memory.wf s.standing.mem = true) :
    Memory.wf (s.countError p).standing.mem = true := by
  unfold State.countError
  simp [hm]

@[simp] theorem State.opFailed_wf (s : State) (p : Nat) (o : Op) (hm : Memory.wf s.standing.mem = true) :
    Memory.wf (s.opFailed p o).standing.mem = true := by
  unfold State.opFailed
  simp [hm]

@[simp] theorem State.memberOff_wf (s : State) (p : Nat) (hm : Memory.wf s.standing.mem = true) :
    Memory.wf (s.memberOff p).standing.mem = true := by
  unfold State.memberOff
  simp [hm]

@[simp] theorem State.standbyAnswered_wf (s : State) (p : Nat) (a : StandbyAsk) (hm : Memory.wf s.standing.mem = true) :
    Memory.wf (s.standbyAnswered p a).standing.mem = true := by
  unfold State.standbyAnswered
  split <;> simp [hm]

@[simp] theorem State.standbyEnd_wf (s : State) (p : Nat) (success : Bool) (hm : Memory.wf s.standing.mem = true) :
    Memory.wf (s.standbyEnd p success).standing.mem = true := by
  unfold State.standbyEnd
  dsimp only
  generalize hY : State.resendHeld _ p = y
  generalize hZ : State.standbyOver _ p = z
  have hy : y.standing = s.standing := by rw [← hY]; simp
  have hz : z.standing = s.standing := by rw [← hZ]; simp
  repeat' split
  all_goals simp [hy, hz, hm]

@[simp] theorem State.opEnds_wf (s : State) (p : Nat) (r : Completion) (hm : Memory.wf s.standing.mem = true) :
    Memory.wf (s.opEnds p r).standing.mem = true := by
  unfold State.opEnds
  repeat' split
  all_goals simp [hm]

@[simp] theorem State.standbyRequested_wf (s : State) (p : Nat) (a : StandbyAsk) (hm : Memory.wf s.standing.mem = true) :
    Memory.wf (s.standbyRequested p a).standing.mem = true := by
  unfold State.standbyRequested
  dsimp only
  repeat' split
  all_goals simp [hm]

@[simp] theorem State.becomesReady_wf (s : State) (p : Nat) (m : MemberState) (hm : Memory.wf s.standing.mem = true) :
    Memory.wf (s.becomesReady p m).standing.mem = true := by
  unfold State.becomesReady
  simp [hm]

@[simp] theorem State.bayFault_wf (s : State) (b : Nat) (hm : Memory.wf s.standing.mem = true) :
    Memory.wf (s.bayFault b).standing.mem = true := by
  unfold State.bayFault
  dsimp only
  split <;> simp [hm]

@[simp] theorem State.copyWriteBack_wf (s : State) (c : SlotCopy) (target : Nat) (r : Returned)
    (hm : Memory.wf s.standing.mem = true) :
    Memory.wf (s.copyWriteBack c target r).standing.mem = true := by
  unfold State.copyWriteBack
  simp [hm]

@[simp] theorem State.adopt_wf (s : State) (tag b p : Nat) (hm : Memory.wf s.standing.mem = true) :
    Memory.wf (s.adopt tag b p).standing.mem = true := by
  unfold State.adopt
  simp [hm]

@[simp] theorem State.adoptMember_wf (s : State) (tag b p : Nat) (hm : Memory.wf s.standing.mem = true) :
    Memory.wf (s.adoptMember tag b p).standing.mem = true := by
  unfold State.adoptMember
  simp [hm]

@[simp] theorem State.labelWritten_wf (s : State) (a : Adoption) (hm : Memory.wf s.standing.mem = true) :
    Memory.wf (s.labelWritten a).standing.mem = true := by
  unfold State.labelWritten
  simp [hm]

@[simp] theorem State.writePartial_wf (s : State) (i : Nat) (hm : Memory.wf s.standing.mem = true) :
    Memory.wf (s.writePartial i).standing.mem = true := by
  unfold State.writePartial
  simp [hm]

@[simp] theorem State.attachEnd_wf (s : State) (hm : Memory.wf s.standing.mem = true) :
    Memory.wf s.attachEnd.standing.mem = true := by
  unfold State.attachEnd
  split <;> simp [hm]

@[simp] theorem State.ckptSucceeds_wf (s : State) (c : Ckpt) (hm : Memory.wf s.standing.mem = true) :
    Memory.wf (s.ckptSucceeds c).standing.mem = true := by
  unfold State.ckptSucceeds
  dsimp only
  split <;> simp [hm]

@[simp] theorem State.headersDone_wf (s : State) (c : Ckpt) (hm : Memory.wf s.standing.mem = true) :
    Memory.wf (s.headersDone c).standing.mem = true := by
  unfold State.headersDone
  dsimp only
  split <;> simp [hm]

@[simp] theorem State.beginStep3_wf (s : State) (hm : Memory.wf s.standing.mem = true) :
    Memory.wf s.beginStep3.standing.mem = true := by
  unfold State.beginStep3
  simp [hm]

@[simp] theorem State.alarmRings_wf (s : State) (t : Time) (hm : Memory.wf s.standing.mem = true) :
    Memory.wf (s.alarmRings t).standing.mem = true := by
  unfold State.alarmRings
  simp [hm]

@[simp] theorem State.compareAlarm_wf (s : State) (hm : Memory.wf s.standing.mem = true) :
    Memory.wf s.compareAlarm.standing.mem = true := by
  unfold State.compareAlarm
  split <;> simp [hm]

@[simp] theorem State.setTime_wf (s : State) (tag : Nat) (t : Time) (hm : Memory.wf s.standing.mem = true) :
    Memory.wf (s.setTime tag t).standing.mem = true := by
  unfold State.setTime
  simp [hm]

@[simp] theorem State.pressed_wf (s : State) (long : Bool) (hm : Memory.wf s.standing.mem = true) :
    Memory.wf (s.pressed long).standing.mem = true := by
  unfold State.pressed
  simp [hm]

@[simp] theorem State.uncorrectable_wf (s : State) (w : Nat) (hm : Memory.wf s.standing.mem = true) :
    Memory.wf (s.uncorrectable w).standing.mem = true := by
  unfold State.uncorrectable
  split <;> simp [hm]

@[simp] theorem State.checkWords_wf (s : State) (b : Burst) (fuel : List Nat) (hm : Memory.wf s.standing.mem = true) :
    Memory.wf (s.checkWords b fuel).1.standing.mem = true := by
  induction fuel generalizing s with
  | nil => exact hm
  | cons w ws ih =>
    unfold State.checkWords
    split <;> simp [ih, hm]

@[simp] theorem State.storeBurst_wf (s : State) (b : Burst) (hm : Memory.wf s.standing.mem = true) :
    Memory.wf (s.storeBurst b).standing.mem = true := by
  unfold State.storeBurst
  simp [hm]

@[simp] theorem State.carryBurst_wf (s : State) (b : Burst) (hm : Memory.wf s.standing.mem = true) :
    Memory.wf (s.carryBurst b).standing.mem = true := by
  have hlast (t : State) : (t.onMec fun m => { m with owed := 0 }).standing.mem = t.standing.mem := rfl
  unfold State.carryBurst
  dsimp only
  rw [hlast]
  repeat' split
  all_goals simp [hm]

@[simp] theorem State.headerComplete_wf (s : State) (bs : List Byte) (hm : Memory.wf s.standing.mem = true) :
    Memory.wf (s.headerComplete bs).standing.mem = true := by
  unfold State.headerComplete
  split <;> simp [hm]

end Sys2Proof.Machine

namespace Sys2Proof.Machine

/-- The spin-up limit in force and the one asked for lie in 1 to 4 (R166). -/
def SpinLegal (limit asked : Nat) : Prop := 1 ≤ limit ∧ limit ≤ 4 ∧ 1 ≤ asked ∧ asked ≤ 4

theorem SpinLegal.of_asked {l a : Nat} (h : SpinLegal l a) : SpinLegal a a := ⟨h.2.2.1, h.2.2.2, h.2.2.1, h.2.2.2⟩

@[simp] theorem SpinLegal.ite (c : Prop) [Decidable c] (l m a : Nat) :
    SpinLegal (if c then l else m) a ↔ if c then SpinLegal l a else SpinLegal m a := by split <;> rfl

@[simp] theorem State.foldl_spin {α : Type} {s : State} {as : List α} {f : State → α → State} {x : Nat}
    (h : ∀ s a, s.standing.core.power.limitAsked = x → SpinLegal s.standing.limit x →
      (f s a).standing.core.power.limitAsked = x ∧ SpinLegal (f s a).standing.limit x)
    (ha : s.standing.core.power.limitAsked = x) (hl : SpinLegal s.standing.limit x) :
    SpinLegal (as.foldl f s).standing.limit x := by
  induction as generalizing s with
  | nil => exact hl
  | cons a as ih => exact ih (h s a ha hl).1 (h s a ha hl).2

@[simp] theorem State.limitFalls_spin (s : State) {a : Nat} (ha : s.standing.core.power.limitAsked = a)
    (hl : SpinLegal s.standing.limit a) : SpinLegal s.limitFalls.standing.limit a := by
  subst ha
  unfold State.limitFalls
  split
  · exact hl.of_asked
  · exact hl

theorem State.limitFalls_spin_of {s t : State} {a : Nat} (h : t.standing = s.standing)
    (ha : s.standing.core.power.limitAsked = a) (hl : SpinLegal s.standing.limit a) :
    SpinLegal t.limitFalls.standing.limit a := State.limitFalls_spin t (by rw [h, ha]) (by rw [h]; exact hl)

@[simp] theorem State.spinChanged_spin (s : State) {a : Nat} (ha : s.standing.core.power.limitAsked = a)
    (hl : SpinLegal s.standing.limit a) :
    SpinLegal s.spinChanged.standing.limit a := by
  unfold State.spinChanged
  simp [ha, hl]

@[simp] theorem State.unform_spin (s : State) {a : Nat} (ha : s.standing.core.power.limitAsked = a)
    (hl : SpinLegal s.standing.limit a) :
    SpinLegal s.unform.standing.limit a := by
  unfold State.unform
  dsimp only
  generalize hY : State.onPwc _ Pwc.quieted = y
  have hy : y.standing = s.standing := by rw [← hY]; simp
  simp [hy, ha, hl]

@[simp] theorem State.formFail_spin (s : State) (position : Nat) {a : Nat} (ha : s.standing.core.power.limitAsked = a)
    (hl : SpinLegal s.standing.limit a) :
    SpinLegal (s.formFail position).standing.limit a := by
  unfold State.formFail
  split <;> simp [ha, hl]

@[simp] theorem State.attachFail_spin (s : State) {a : Nat} (ha : s.standing.core.power.limitAsked = a)
    (hl : SpinLegal s.standing.limit a) :
    SpinLegal s.attachFail.standing.limit a := by
  unfold State.attachFail
  split <;> simp [ha, hl]

@[simp] theorem State.setupLoses_spin (s : State) (p : Nat) {a : Nat} (ha : s.standing.core.power.limitAsked = a)
    (hl : SpinLegal s.standing.limit a) :
    SpinLegal (s.setupLoses p).standing.limit a := by
  unfold State.setupLoses
  split <;> simp [ha, hl]

@[simp] theorem State.failMember_spin (s : State) (p : Nat) (cause : FailCause) {a : Nat}
    (ha : s.standing.core.power.limitAsked = a) (hl : SpinLegal s.standing.limit a) :
    SpinLegal (s.failMember p cause).standing.limit a := by
  unfold State.failMember
  split
  · exact hl
  · dsimp only
    generalize hY : State.memberBayOff _ p = y
    have hy : y.standing = s.standing := by
      rw [← hY]
      split
      · split <;> simp
      · simp
    simp [hy, ha, hl]

@[simp] theorem State.failWriters_spin (s : State) (rs : List Returned) {a : Nat}
    (ha : s.standing.core.power.limitAsked = a) (hl : SpinLegal s.standing.limit a) :
    SpinLegal (s.failWriters rs).standing.limit a := by
  unfold State.failWriters
  exact State.foldl_spin (fun s r ha hl => by simp [ha, hl]) ha hl

@[simp] theorem State.countError_spin (s : State) (p : Nat) {a : Nat} (ha : s.standing.core.power.limitAsked = a)
    (hl : SpinLegal s.standing.limit a) :
    SpinLegal (s.countError p).standing.limit a := by
  unfold State.countError
  simp [ha, hl]

@[simp] theorem State.opFailed_spin (s : State) (p : Nat) (o : Op) {a : Nat} (ha : s.standing.core.power.limitAsked = a)
    (hl : SpinLegal s.standing.limit a) :
    SpinLegal (s.opFailed p o).standing.limit a := by
  unfold State.opFailed
  simp [ha, hl]

@[simp] theorem State.standbyEnd_spin (s : State) (p : Nat) (success : Bool) {a : Nat}
    (ha : s.standing.core.power.limitAsked = a) (hl : SpinLegal s.standing.limit a) :
    SpinLegal (s.standbyEnd p success).standing.limit a := by
  unfold State.standbyEnd
  simp [ha, hl]

@[simp] theorem State.opEnds_spin (s : State) (p : Nat) (r : Completion) {a : Nat}
    (ha : s.standing.core.power.limitAsked = a) (hl : SpinLegal s.standing.limit a) :
    SpinLegal (s.opEnds p r).standing.limit a := by
  unfold State.opEnds
  repeat' split
  all_goals simp [ha, hl]

@[simp] theorem State.becomesReady_spin (s : State) (p : Nat) (m : MemberState) {a : Nat}
    (ha : s.standing.core.power.limitAsked = a) (hl : SpinLegal s.standing.limit a) :
    SpinLegal (s.becomesReady p m).standing.limit a := by
  unfold State.becomesReady
  simp [ha, hl]

@[simp] theorem State.bayFault_spin (s : State) (b : Nat) {a : Nat} (ha : s.standing.core.power.limitAsked = a)
    (hl : SpinLegal s.standing.limit a) :
    SpinLegal (s.bayFault b).standing.limit a := by
  unfold State.bayFault
  dsimp only
  split <;> simp [ha, hl]

@[simp] theorem State.copyWriteBack_spin (s : State) (c : SlotCopy) (target : Nat) (r : Returned) {a : Nat}
    (ha : s.standing.core.power.limitAsked = a) (hl : SpinLegal s.standing.limit a) :
    SpinLegal (s.copyWriteBack c target r).standing.limit a := by
  unfold State.copyWriteBack
  simp [ha, hl]

@[simp] theorem State.ckptFails_spin (s : State) (c : Ckpt) {a : Nat} (ha : s.standing.core.power.limitAsked = a)
    (hl : SpinLegal s.standing.limit a) :
    SpinLegal (s.ckptFails c).standing.limit a := by
  unfold State.ckptFails
  split <;> simp [ha, hl]

@[simp] theorem State.headersDone_spin (s : State) (c : Ckpt) {a : Nat} (ha : s.standing.core.power.limitAsked = a)
    (hl : SpinLegal s.standing.limit a) :
    SpinLegal (s.headersDone c).standing.limit a := by
  unfold State.headersDone
  dsimp only
  split <;> simp [ha, hl]

@[simp] theorem State.sizeArray_spin (s : State) (f : Forming) {a : Nat} (ha : s.standing.core.power.limitAsked = a)
    (hl : SpinLegal s.standing.limit a) :
    SpinLegal (s.sizeArray f).standing.limit a := by
  unfold State.sizeArray
  simp [ha, hl]

@[simp] theorem State.rebind_spin (s : State) (ls : List (Nat × Label)) {a : Nat}
    (ha : s.standing.core.power.limitAsked = a) (hl : SpinLegal s.standing.limit a) :
    SpinLegal (s.rebind ls).standing.limit a := by
  unfold State.rebind
  refine State.limitFalls_spin_of (s := s) ?_ ha hl
  simp only [State.each_standing, State.bayOff_standing, State.idleUpdate_standing, implies_true]
  exact (State.each_standing fun _ _ => by split <;> simp).trans (by simp)

@[simp] theorem State.dropPositions_spin (s : State) (ps : List Nat) {a : Nat} (ha : s.standing.core.power.limitAsked = a)
    (hl : SpinLegal s.standing.limit a) :
    SpinLegal (s.dropPositions ps).standing.limit a := by
  unfold State.dropPositions
  simp [ha, hl]

@[simp] theorem State.takeLabels_spin (s : State) (x : Attach) (ls : List (Nat × Label)) {a : Nat}
    (ha : s.standing.core.power.limitAsked = a) (hl : SpinLegal s.standing.limit a) :
    SpinLegal (s.takeLabels x ls).standing.limit a := by
  unfold State.takeLabels
  dsimp only
  repeat' split
  all_goals simp [ha, hl]

@[simp] theorem State.dropStale_spin (s : State) (x : Attach) (seq : Nat) {a : Nat}
    (ha : s.standing.core.power.limitAsked = a) (hl : SpinLegal s.standing.limit a) :
    SpinLegal (s.dropStale x seq).1.standing.limit a := by
  unfold State.dropStale
  simp [ha, hl]

@[simp] theorem State.readBody_spin (s : State) (x : Attach) (sl : Slot) (seq : Nat) (members : List Nat) {a : Nat}
    (ha : s.standing.core.power.limitAsked = a) (hl : SpinLegal s.standing.limit a) :
    SpinLegal (s.readBody x sl seq members).standing.limit a := by
  unfold State.readBody
  split <;> simp [ha, hl]

@[simp] theorem State.loadSlot_spin (s : State) (x : Attach) (e : Bool × Nat) {a : Nat}
    (ha : s.standing.core.power.limitAsked = a) (hl : SpinLegal s.standing.limit a) :
    SpinLegal (s.loadSlot x e).standing.limit a := by
  unfold State.loadSlot
  simp [ha, hl]

@[simp] theorem State.tryOther_spin (s : State) (x : Attach) {a : Nat} (ha : s.standing.core.power.limitAsked = a)
    (hl : SpinLegal s.standing.limit a) :
    SpinLegal (s.tryOther x).standing.limit a := by
  unfold State.tryOther
  repeat' split
  all_goals simp [ha, hl]

@[simp] theorem State.warmAttach_spin (s : State) (x : Attach) (e : Bool × Nat) (q : Nat) {a : Nat}
    (ha : s.standing.core.power.limitAsked = a) (hl : SpinLegal s.standing.limit a) :
    SpinLegal (s.warmAttach x e q).standing.limit a := by
  unfold State.warmAttach
  simp [ha, hl]

@[simp] theorem State.takeHeaders_spin (s : State) (x : Attach) {a : Nat} (ha : s.standing.core.power.limitAsked = a)
    (hl : SpinLegal s.standing.limit a) :
    SpinLegal (s.takeHeaders x).standing.limit a := by
  unfold State.takeHeaders
  split <;> simp [ha, hl]

@[simp] theorem State.loadBody_spin (s : State) (x : Attach) (l : Label) (h : SlotHeader) (body : List Byte) {a : Nat}
    (ha : s.standing.core.power.limitAsked = a) (hl : SpinLegal s.standing.limit a) :
    SpinLegal (s.loadBody x l h body).standing.limit a := by
  have hload (s : State) : (s.tablesWritten (loadedTables body l h)).standing.core.power = s.standing.core.power ∧
    (s.tablesWritten (loadedTables body l h)).standing.limit = s.standing.limit := ⟨rfl, rfl⟩
  unfold State.loadBody
  dsimp only
  split
  · simp [ha, hl]
  · split <;> simp [hload, ha, hl]

@[simp] theorem State.checkBody_spin (s : State) (x : Attach) (l : Label) (h : SlotHeader) {a : Nat}
    (ha : s.standing.core.power.limitAsked = a) (hl : SpinLegal s.standing.limit a) :
    SpinLegal (s.checkBody x l h).standing.limit a := by
  unfold State.checkBody
  split <;> simp [ha, hl]

@[simp] theorem State.takeBody_spin (s : State) (x : Attach) (l : Label) (h : SlotHeader) (rs : List Returned) {a : Nat}
    (ha : s.standing.core.power.limitAsked = a) (hl : SpinLegal s.standing.limit a) :
    SpinLegal (s.takeBody x l h rs).standing.limit a := by
  unfold State.takeBody
  simp [ha, hl]

end Sys2Proof.Machine

/-! # Proofs: what each command leaves of what stands -/

namespace Sys2Proof.Machine

/-- The state that a command leaves: the next one, or the one it ran on where it answers no state. -/
def Out.stateOr (o : Out) (s : State) : State :=
  match o with
  | .next t => t
  | _ => s

@[simp] theorem Out.stateOr_next (s t : State) : Out.stateOr (.next t) s = t := rfl

theorem exec_stateOr {c : Instr} {s t : State} (h : exec c s = .next t) : t = Out.stateOr (exec c s) s := by rw [h]; rfl

@[simp] theorem execOpenIngest_standing (tag kind owner : Nat) (albums : Albums) (s : State) :
    ((execOpenIngest tag kind owner albums s).stateOr s).standing = s.standing := by
  unfold execOpenIngest
  simp only [Out.stateOr_next]
  simp

@[simp] theorem execIngestData_standing (tag i offset : Nat) (data : List Byte) (s : State) :
    ((execIngestData tag i offset data s).stateOr s).standing.core = s.standing.core ∧
    ((execIngestData tag i offset data s).stateOr s).standing.limit = s.standing.limit ∧
    ((execIngestData tag i offset data s).stateOr s).standing.entries = s.standing.entries := by
  unfold execIngestData
  simp only [Out.stateOr_next]
  simp

@[simp] theorem execIngestData_wf (tag i offset : Nat) (data : List Byte) (s : State)
    (hm : Memory.wf s.standing.mem = true) :
    Memory.wf ((execIngestData tag i offset data s).stateOr s).standing.mem = true := by
  unfold execIngestData
  simp only [Out.stateOr_next]
  simp [hm]

@[simp] theorem execCloseIngest_standing (tag i : Nat) (s : State) :
    ((execCloseIngest tag i s).stateOr s).standing = s.standing := by
  unfold execCloseIngest
  simp only [Out.stateOr_next]
  simp

@[simp] theorem execAbortIngest_standing (tag i : Nat) (s : State) :
    ((execAbortIngest tag i s).stateOr s).standing.core = s.standing.core ∧
    ((execAbortIngest tag i s).stateOr s).standing.limit = s.standing.limit ∧
    ((execAbortIngest tag i s).stateOr s).standing.mem = s.standing.mem := by
  unfold execAbortIngest
  simp only [Out.stateOr_next]
  simp

@[simp] theorem execChunkerRun_standing (i : Nat) (s : State) :
    ((execChunkerRun i s).stateOr s).standing = s.standing := by
  unfold execChunkerRun
  simp only [Out.stateOr_next]
  simp

@[simp] theorem execLookupIssue_standing (i : Nat) (s : State) :
    ((execLookupIssue i s).stateOr s).standing = s.standing := by
  unfold execLookupIssue
  simp only [Out.stateOr_next]
  repeat' split
  all_goals simp

@[simp] theorem execLookup_standing (f : Fp) (i : Nat) (s : State) :
    ((execLookup f i s).stateOr s).standing.core = s.standing.core ∧
    ((execLookup f i s).stateOr s).standing.limit = s.standing.limit ∧
    ((execLookup f i s).stateOr s).standing.mem = s.standing.mem := by
  unfold execLookup
  simp only [Out.stateOr_next]
  split <;> simp

@[simp] theorem execVerifyComplete_standing (i no : Nat) (s : State) :
    ((execVerifyComplete i no s).stateOr s).standing = s.standing := by
  unfold execVerifyComplete
  simp only [Out.stateOr_next]
  repeat' split
  all_goals simp

@[simp] theorem execInsert_standing (f : Fp) (c off i : Nat) (s : State) :
    ((execInsert f c off i s).stateOr s).standing.core = s.standing.core ∧
    ((execInsert f c off i s).stateOr s).standing.limit = s.standing.limit ∧
    ((execInsert f c off i s).stateOr s).standing.mem = s.standing.mem := by
  unfold execInsert
  simp only [Out.stateOr_next]
  split <;> simp

@[simp] theorem execCollisionInsert_standing (f : Fp) (c off i : Nat) (s : State) :
    ((execCollisionInsert f c off i s).stateOr s).standing.core = s.standing.core ∧
    ((execCollisionInsert f c off i s).stateOr s).standing.limit = s.standing.limit ∧
    ((execCollisionInsert f c off i s).stateOr s).standing.mem = s.standing.mem := by
  unfold execCollisionInsert
  simp only [Out.stateOr_next]
  split <;> simp

@[simp] theorem execChunkCopyDone_standing (i no : Nat) (s : State) :
    ((execChunkCopyDone i no s).stateOr s).standing.core = s.standing.core ∧
    ((execChunkCopyDone i no s).stateOr s).standing.limit = s.standing.limit := by
  unfold execChunkCopyDone
  simp only [Out.stateOr_next]
  repeat' split
  all_goals simp

@[simp] theorem execChunkCopyDone_wf (i no : Nat) (s : State) (hm : Memory.wf s.standing.mem = true) :
    Memory.wf ((execChunkCopyDone i no s).stateOr s).standing.mem = true := by
  unfold execChunkCopyDone
  simp only [Out.stateOr_next]
  repeat' split
  all_goals simp [hm]

@[simp] theorem execQueueLeave_standing (i : Nat) (s : State) :
    ((execQueueLeave i s).stateOr s).standing = s.standing := by
  unfold execQueueLeave
  simp only [Out.stateOr_next]
  simp

@[simp] theorem execStreamSealing_standing (i : Nat) (s : State) :
    ((execStreamSealing i s).stateOr s).standing = s.standing := by
  unfold execStreamSealing
  simp only [Out.stateOr_next]
  simp

@[simp] theorem execRingWordError_standing (i q : Nat) (s : State) :
    ((execRingWordError i q s).stateOr s).standing = s.standing := by
  unfold execRingWordError
  simp only [Out.stateOr_next]
  simp

@[simp] theorem execDropHold_standing (h i : Nat) (reason : HoldReason) (s : State) :
    ((execDropHold h i reason s).stateOr s).standing.core = s.standing.core ∧
    ((execDropHold h i reason s).stateOr s).standing.limit = s.standing.limit ∧
    ((execDropHold h i reason s).stateOr s).standing.mem = s.standing.mem := by
  unfold execDropHold
  simp only [Out.stateOr_next]
  split <;> simp

@[simp] theorem execConfirmHold_standing (h i : Nat) (s : State) :
    ((execConfirmHold h i s).stateOr s).standing = s.standing := by
  unfold execConfirmHold
  simp only [Out.stateOr_next]
  split <;> simp

@[simp] theorem execRaise_standing (h : Nat) (s : State) :
    ((execRaise h s).stateOr s).standing.core = s.standing.core ∧
    ((execRaise h s).stateOr s).standing.limit = s.standing.limit ∧
    ((execRaise h s).stateOr s).standing.mem = s.standing.mem := by
  unfold execRaise
  simp only [Out.stateOr_next]
  simp

@[simp] theorem execLower_standing (h : Nat) (s : State) :
    ((execLower h s).stateOr s).standing.core = s.standing.core ∧
    ((execLower h s).stateOr s).standing.limit = s.standing.limit ∧
    ((execLower h s).stateOr s).standing.mem = s.standing.mem := by
  unfold execLower
  simp only [Out.stateOr_next]
  simp

@[simp] theorem execReplayCreate_standing (h : Nat) (f : Fp) (c off : Nat) (s : State) :
    ((execReplayCreate h f c off s).stateOr s).standing.core = s.standing.core ∧
    ((execReplayCreate h f c off s).stateOr s).standing.limit = s.standing.limit ∧
    ((execReplayCreate h f c off s).stateOr s).standing.mem = s.standing.mem := by
  unfold execReplayCreate
  simp only [Out.stateOr_next]
  simp

@[simp] theorem execRemoveIfUnreferenced_standing (h : Nat) (s : State) :
    ((execRemoveIfUnreferenced h s).stateOr s).standing.core = s.standing.core ∧
    ((execRemoveIfUnreferenced h s).stateOr s).standing.limit = s.standing.limit ∧
    ((execRemoveIfUnreferenced h s).stateOr s).standing.mem = s.standing.mem := by
  unfold execRemoveIfUnreferenced
  simp only [Out.stateOr_next]
  simp

@[simp] theorem execStored_standing (h : Nat) (f : Fp) (c off : Nat) (s : State) :
    ((execStored h f c off s).stateOr s).standing.core = s.standing.core ∧
    ((execStored h f c off s).stateOr s).standing.limit = s.standing.limit ∧
    ((execStored h f c off s).stateOr s).standing.mem = s.standing.mem := by
  unfold execStored
  simp only [Out.stateOr_next]
  simp

@[simp] theorem execDamageMark_standing (h : Nat) (f : Fp) (s : State) :
    ((execDamageMark h f s).stateOr s).standing.core = s.standing.core ∧
    ((execDamageMark h f s).stateOr s).standing.limit = s.standing.limit ∧
    ((execDamageMark h f s).stateOr s).standing.mem = s.standing.mem := by
  unfold execDamageMark
  simp only [Out.stateOr_next]
  simp

@[simp] theorem execSetMove_standing (h : Nat) (f : Fp) (source dest : Nat) (s : State) :
    ((execSetMove h f source dest s).stateOr s).standing.core = s.standing.core ∧
    ((execSetMove h f source dest s).stateOr s).standing.limit = s.standing.limit ∧
    ((execSetMove h f source dest s).stateOr s).standing.mem = s.standing.mem := by
  unfold execSetMove
  simp only [Out.stateOr_next]
  simp

@[simp] theorem execSwitchLocation_standing (h : Nat) (f : Fp) (source dest off : Nat) (s : State) :
    ((execSwitchLocation h f source dest off s).stateOr s).standing.core = s.standing.core ∧
    ((execSwitchLocation h f source dest off s).stateOr s).standing.limit = s.standing.limit ∧
    ((execSwitchLocation h f source dest off s).stateOr s).standing.mem = s.standing.mem := by
  unfold execSwitchLocation
  simp only [Out.stateOr_next]
  simp

@[simp] theorem execLocation_standing (h : Nat) (s : State) : ((execLocation h s).stateOr s).standing = s.standing := by
  unfold execLocation
  simp only [Out.stateOr_next]
  simp

@[simp] theorem execIndexWordError_standing (w : IndexWord) (s : State) :
    ((execIndexWordError w s).stateOr s).standing.core = s.standing.core ∧
    ((execIndexWordError w s).stateOr s).standing.limit = s.standing.limit ∧
    ((execIndexWordError w s).stateOr s).standing.mem = s.standing.mem := by
  unfold execIndexWordError
  simp only [Out.stateOr_next]
  simp

@[simp] theorem execReplayMove_standing (h : Nat) (f : Fp) (c off : Nat) (s : State) :
    ((execReplayMove h f c off s).stateOr s).standing.core = s.standing.core ∧
    ((execReplayMove h f c off s).stateOr s).standing.limit = s.standing.limit ∧
    ((execReplayMove h f c off s).stateOr s).standing.mem = s.standing.mem := by
  unfold execReplayMove
  simp only [Out.stateOr_next]
  simp

@[simp] theorem execDiscardMoveDestinations_standing (s : State) :
    ((execDiscardMoveDestinations s).stateOr s).standing.core = s.standing.core ∧
    ((execDiscardMoveDestinations s).stateOr s).standing.limit = s.standing.limit ∧
    ((execDiscardMoveDestinations s).stateOr s).standing.mem = s.standing.mem := by
  unfold execDiscardMoveDestinations
  simp only [Out.stateOr_next]
  simp

@[simp] theorem execGetObject_standing (tag id mode : Nat) (s : State) :
    ((execGetObject tag id mode s).stateOr s).standing = s.standing := by
  unfold execGetObject
  simp only [Out.stateOr_next]
  simp

@[simp] theorem execSetAlbums_standing (tag o : Nat) (albums : Albums) (s : State) :
    ((execSetAlbums tag o albums s).stateOr s).standing = s.standing := by
  unfold execSetAlbums
  simp only [Out.stateOr_next]
  simp

@[simp] theorem execReleaseObject_standing (tag o : Nat) (s : State) :
    ((execReleaseObject tag o s).stateOr s).standing = s.standing := by
  unfold execReleaseObject
  simp only [Out.stateOr_next]
  simp

@[simp] theorem execWalkStep_standing (s : State) :
    ((execWalkStep s).stateOr s).standing.core = s.standing.core ∧
    ((execWalkStep s).stateOr s).standing.limit = s.standing.limit ∧
    ((execWalkStep s).stateOr s).standing.mem = s.standing.mem := by
  unfold execWalkStep
  simp only [Out.stateOr_next]
  repeat' split
  all_goals simp

@[simp] theorem execReleaseRecordCopied_standing (o : Nat) (s : State) :
    ((execReleaseRecordCopied o s).stateOr s).standing = s.standing := by
  unfold execReleaseRecordCopied
  simp only [Out.stateOr_next]
  simp

@[simp] theorem execRecordRead_standing (asker : SegAsker) (s : State) :
    ((execRecordRead asker s).stateOr s).standing = s.standing := by
  unfold execRecordRead
  simp only [Out.stateOr_next]
  repeat' split
  all_goals simp

@[simp] theorem execRecordReadDone_standing (asker : SegAsker) (bad : Bool) (s : State) :
    ((execRecordReadDone asker bad s).stateOr s).standing.core = s.standing.core ∧
    ((execRecordReadDone asker bad s).stateOr s).standing.limit = s.standing.limit ∧
    ((execRecordReadDone asker bad s).stateOr s).standing.mem = s.standing.mem := by
  unfold execRecordReadDone
  simp only [Out.stateOr_next]
  repeat' split
  all_goals simp

@[simp] theorem execObjectWordError_standing (o : Nat) (s : State) :
    ((execObjectWordError o s).stateOr s).standing = s.standing := by
  unfold execObjectWordError
  simp only [Out.stateOr_next]
  split <;> simp

@[simp] theorem execChunkPlacement_standing (who : PlaceFor) (s : State) :
    ((execChunkPlacement who s).stateOr s).standing.core = s.standing.core ∧
    ((execChunkPlacement who s).stateOr s).standing.limit = s.standing.limit ∧
    ((execChunkPlacement who s).stateOr s).standing.entries = s.standing.entries := by
  unfold execChunkPlacement
  simp only [Out.stateOr_next]
  simp

@[simp] theorem execChunkPlacement_wf (who : PlaceFor) (s : State) (hm : Memory.wf s.standing.mem = true) :
    Memory.wf ((execChunkPlacement who s).stateOr s).standing.mem = true := by
  unfold execChunkPlacement
  simp only [Out.stateOr_next]
  simp [hm]

@[simp] theorem execRecordPlacement_standing (s : State) :
    ((execRecordPlacement s).stateOr s).standing.core = s.standing.core ∧
    ((execRecordPlacement s).stateOr s).standing.limit = s.standing.limit ∧
    ((execRecordPlacement s).stateOr s).standing.entries = s.standing.entries := by
  unfold execRecordPlacement
  simp only [Out.stateOr_next]
  split <;> simp

@[simp] theorem execRecordPlacement_wf (s : State) (hm : Memory.wf s.standing.mem = true) :
    Memory.wf ((execRecordPlacement s).stateOr s).standing.mem = true := by
  unfold execRecordPlacement
  simp only [Out.stateOr_next]
  split <;> simp [hm]

@[simp] theorem execPlacementRetry_standing (s : State) :
    ((execPlacementRetry s).stateOr s).standing.core = s.standing.core ∧
    ((execPlacementRetry s).stateOr s).standing.limit = s.standing.limit ∧
    ((execPlacementRetry s).stateOr s).standing.entries = s.standing.entries := by
  unfold execPlacementRetry
  simp only [Out.stateOr_next]
  simp

@[simp] theorem execPlacementRetry_wf (s : State) (hm : Memory.wf s.standing.mem = true) :
    Memory.wf ((execPlacementRetry s).stateOr s).standing.mem = true := by
  unfold execPlacementRetry
  simp only [Out.stateOr_next]
  simp [hm]

@[simp] theorem execZeroStripeDone_standing (s : State) :
    ((execZeroStripeDone s).stateOr s).standing.core = s.standing.core ∧
    ((execZeroStripeDone s).stateOr s).standing.entries = s.standing.entries := by
  unfold execZeroStripeDone
  simp only [Out.stateOr_next]
  split <;> simp

@[simp] theorem execZeroStripeDone_wf (s : State) (hm : Memory.wf s.standing.mem = true) :
    Memory.wf ((execZeroStripeDone s).stateOr s).standing.mem = true := by
  unfold execZeroStripeDone
  simp only [Out.stateOr_next]
  split <;> simp [hm]

@[simp] theorem execZeroStripeDone_spin (s : State) {a : Nat} (ha : s.standing.core.power.limitAsked = a)
    (hl : SpinLegal s.standing.limit a) :
    SpinLegal ((execZeroStripeDone s).stateOr s).standing.limit a := by
  unfold execZeroStripeDone
  simp only [Out.stateOr_next]
  split <;> simp [ha, hl]

@[simp] theorem execForcedSeal_standing (s : State) :
    ((execForcedSeal s).stateOr s).standing.core = s.standing.core ∧
    ((execForcedSeal s).stateOr s).standing.limit = s.standing.limit ∧
    ((execForcedSeal s).stateOr s).standing.entries = s.standing.entries := by
  unfold execForcedSeal
  simp only [Out.stateOr_next]
  split <;> simp

@[simp] theorem execForcedSeal_wf (s : State) (hm : Memory.wf s.standing.mem = true) :
    Memory.wf ((execForcedSeal s).stateOr s).standing.mem = true := by
  unfold execForcedSeal
  simp only [Out.stateOr_next]
  split <;> simp [hm]

@[simp] theorem execUnitWriteDone_standing (c p : Nat) (s : State) :
    ((execUnitWriteDone c p s).stateOr s).standing.core = s.standing.core ∧
    ((execUnitWriteDone c p s).stateOr s).standing.entries = s.standing.entries := by
  unfold execUnitWriteDone
  simp only [Out.stateOr_next]
  split <;> simp

@[simp] theorem execUnitWriteDone_wf (c p : Nat) (s : State) (hm : Memory.wf s.standing.mem = true) :
    Memory.wf ((execUnitWriteDone c p s).stateOr s).standing.mem = true := by
  unfold execUnitWriteDone
  simp only [Out.stateOr_next]
  split <;> simp [hm]

@[simp] theorem execUnitWriteDone_spin (c p : Nat) (s : State) {a : Nat} (ha : s.standing.core.power.limitAsked = a)
    (hl : SpinLegal s.standing.limit a) :
    SpinLegal ((execUnitWriteDone c p s).stateOr s).standing.limit a := by
  unfold execUnitWriteDone
  simp only [Out.stateOr_next]
  split <;> simp [ha, hl]

@[simp] theorem execStripeWriteComplete_standing (s : State) :
    ((execStripeWriteComplete s).stateOr s).standing.core = s.standing.core ∧
    ((execStripeWriteComplete s).stateOr s).standing.limit = s.standing.limit ∧
    ((execStripeWriteComplete s).stateOr s).standing.mem = s.standing.mem := by
  unfold execStripeWriteComplete
  simp only [Out.stateOr_next]
  repeat' split
  all_goals simp

@[simp] theorem execChunkRead_standing (req : ChunkReq) (s : State) :
    ((execChunkRead req s).stateOr s).standing = s.standing := by
  unfold execChunkRead
  simp only [Out.stateOr_next]
  repeat' split
  all_goals simp

@[simp] theorem execUnitReadDone_standing (id : Nat) (bad : Bool) (s : State) :
    ((execUnitReadDone id bad s).stateOr s).standing.core = s.standing.core ∧
    ((execUnitReadDone id bad s).stateOr s).standing.limit = s.standing.limit ∧
    ((execUnitReadDone id bad s).stateOr s).standing.mem = s.standing.mem := by
  unfold execUnitReadDone
  simp only [Out.stateOr_next]
  repeat' split
  all_goals simp

@[simp] theorem execRelocateContainer_standing (tag c : Nat) (s : State) :
    ((execRelocateContainer tag c s).stateOr s).standing = s.standing := by
  unfold execRelocateContainer
  simp only [Out.stateOr_next]
  simp

@[simp] theorem execRelocationStep_standing (s : State) :
    ((execRelocationStep s).stateOr s).standing.core = s.standing.core ∧
    ((execRelocationStep s).stateOr s).standing.limit = s.standing.limit := by
  unfold execRelocationStep
  simp only [Out.stateOr_next]
  repeat' split
  all_goals simp

@[simp] theorem execRelocationStep_wf (s : State) (hm : Memory.wf s.standing.mem = true) :
    Memory.wf ((execRelocationStep s).stateOr s).standing.mem = true := by
  unfold execRelocationStep
  simp only [Out.stateOr_next]
  repeat' split
  all_goals simp [hm]

@[simp] theorem execRelocationEnd_standing (s : State) : ((execRelocationEnd s).stateOr s).standing = s.standing := by
  unfold execRelocationEnd
  simp only [Out.stateOr_next]
  repeat' split
  all_goals simp

@[simp] theorem execStripeBufferWordError_standing (k offset : Nat) (s : State) :
    ((execStripeBufferWordError k offset s).stateOr s).standing.core = s.standing.core ∧
    ((execStripeBufferWordError k offset s).stateOr s).standing.limit = s.standing.limit ∧
    ((execStripeBufferWordError k offset s).stateOr s).standing.mem = s.standing.mem := by
  unfold execStripeBufferWordError
  simp only [Out.stateOr_next]
  split
  · simp
  · split
    · refine ⟨(State.foldl_core fun s p => ?_).trans (by simp), (State.foldl_limit fun s p => ?_).trans (by simp),
        (State.foldl_mem fun s p => ?_).trans (by simp)⟩
      all_goals
        split
        · split <;> simp
        · rfl
    · simp

@[simp] theorem execContainerRecordError_standing (w : ContWord) (otherBad : Bool) (s : State) :
    ((execContainerRecordError w otherBad s).stateOr s).standing = s.standing := by
  unfold execContainerRecordError
  simp only [Out.stateOr_next]
  repeat' split
  all_goals simp

@[simp] theorem execSumOfLengths_standing (c : Nat) (s : State) :
    ((execSumOfLengths c s).stateOr s).standing = s.standing := by
  unfold execSumOfLengths
  simp only [Out.stateOr_next]
  simp

@[simp] theorem execOperationSubmit_standing (p : Nat) (o : Op) (s : State) :
    ((execOperationSubmit p o s).stateOr s).standing = s.standing := by
  unfold execOperationSubmit
  simp only [Out.stateOr_next]
  simp

@[simp] theorem execStandbyOperationEnd_standing (p : Nat) (success : Bool) (s : State) :
    ((execStandbyOperationEnd p success s).stateOr s).standing.core = s.standing.core ∧
    ((execStandbyOperationEnd p success s).stateOr s).standing.entries = s.standing.entries := by
  unfold execStandbyOperationEnd
  simp only [Out.stateOr_next]
  split <;> simp

@[simp] theorem execStandbyOperationEnd_wf (p : Nat) (success : Bool) (s : State) (hm : Memory.wf s.standing.mem = true) :
    Memory.wf ((execStandbyOperationEnd p success s).stateOr s).standing.mem = true := by
  unfold execStandbyOperationEnd
  simp only [Out.stateOr_next]
  split <;> simp [hm]

@[simp] theorem execStandbyOperationEnd_spin (p : Nat) (success : Bool) (s : State) {a : Nat}
    (ha : s.standing.core.power.limitAsked = a) (hl : SpinLegal s.standing.limit a) :
    SpinLegal ((execStandbyOperationEnd p success s).stateOr s).standing.limit a := by
  unfold execStandbyOperationEnd
  simp only [Out.stateOr_next]
  split <;> simp [ha, hl]

@[simp] theorem execOperationComplete_standing (p : Nat) (r : DriveAnswer) (s : State) :
    ((execOperationComplete p r s).stateOr s).standing.core = s.standing.core ∧
    ((execOperationComplete p r s).stateOr s).standing.entries = s.standing.entries := by
  unfold execOperationComplete
  simp only [Out.stateOr_next]
  simp

@[simp] theorem execOperationComplete_wf (p : Nat) (r : DriveAnswer) (s : State) (hm : Memory.wf s.standing.mem = true) :
    Memory.wf ((execOperationComplete p r s).stateOr s).standing.mem = true := by
  unfold execOperationComplete
  simp only [Out.stateOr_next]
  simp [hm]

@[simp] theorem execOperationComplete_spin (p : Nat) (r : DriveAnswer) (s : State) {a : Nat}
    (ha : s.standing.core.power.limitAsked = a) (hl : SpinLegal s.standing.limit a) :
    SpinLegal ((execOperationComplete p r s).stateOr s).standing.limit a := by
  unfold execOperationComplete
  simp only [Out.stateOr_next]
  simp [ha, hl]

@[simp] theorem execOperationTimeout_standing (p : Nat) (s : State) :
    ((execOperationTimeout p s).stateOr s).standing.core = s.standing.core ∧
    ((execOperationTimeout p s).stateOr s).standing.entries = s.standing.entries := by
  unfold execOperationTimeout
  simp only [Out.stateOr_next]
  simp

@[simp] theorem execOperationTimeout_wf (p : Nat) (s : State) (hm : Memory.wf s.standing.mem = true) :
    Memory.wf ((execOperationTimeout p s).stateOr s).standing.mem = true := by
  unfold execOperationTimeout
  simp only [Out.stateOr_next]
  simp [hm]

@[simp] theorem execOperationTimeout_spin (p : Nat) (s : State) {a : Nat} (ha : s.standing.core.power.limitAsked = a)
    (hl : SpinLegal s.standing.limit a) :
    SpinLegal ((execOperationTimeout p s).stateOr s).standing.limit a := by
  unfold execOperationTimeout
  simp only [Out.stateOr_next]
  simp [ha, hl]

@[simp] theorem execFailMember_standing (p : Nat) (cause : FailCause) (s : State) :
    ((execFailMember p cause s).stateOr s).standing.core = s.standing.core ∧
    ((execFailMember p cause s).stateOr s).standing.entries = s.standing.entries := by
  unfold execFailMember
  simp only [Out.stateOr_next]
  simp

@[simp] theorem execFailMember_wf (p : Nat) (cause : FailCause) (s : State) (hm : Memory.wf s.standing.mem = true) :
    Memory.wf ((execFailMember p cause s).stateOr s).standing.mem = true := by
  unfold execFailMember
  simp only [Out.stateOr_next]
  simp [hm]

@[simp] theorem execFailMember_spin (p : Nat) (cause : FailCause) (s : State) {a : Nat}
    (ha : s.standing.core.power.limitAsked = a) (hl : SpinLegal s.standing.limit a) :
    SpinLegal ((execFailMember p cause s).stateOr s).standing.limit a := by
  unfold execFailMember
  simp only [Out.stateOr_next]
  simp [ha, hl]

@[simp] theorem execStandbyRequest_standing (p : Nat) (s : State) :
    ((execStandbyRequest p s).stateOr s).standing.core = s.standing.core ∧
    ((execStandbyRequest p s).stateOr s).standing.limit = s.standing.limit ∧
    ((execStandbyRequest p s).stateOr s).standing.entries = s.standing.entries := by
  unfold execStandbyRequest
  simp only [Out.stateOr_next]
  split <;> simp

@[simp] theorem execStandbyRequest_wf (p : Nat) (s : State) (hm : Memory.wf s.standing.mem = true) :
    Memory.wf ((execStandbyRequest p s).stateOr s).standing.mem = true := by
  unfold execStandbyRequest
  simp only [Out.stateOr_next]
  split <;> simp [hm]

@[simp] theorem execIdleTimerExpire_standing (p : Nat) (s : State) :
    ((execIdleTimerExpire p s).stateOr s).standing = s.standing := by
  unfold execIdleTimerExpire
  simp only [Out.stateOr_next]
  simp

@[simp] theorem execSpinupRequest_standing (p : Nat) (s : State) :
    ((execSpinupRequest p s).stateOr s).standing.core = s.standing.core ∧
    ((execSpinupRequest p s).stateOr s).standing.limit = s.standing.limit ∧
    ((execSpinupRequest p s).stateOr s).standing.entries = s.standing.entries := by
  unfold execSpinupRequest
  simp only [Out.stateOr_next]
  simp

@[simp] theorem execSpinupRequest_wf (p : Nat) (s : State) (hm : Memory.wf s.standing.mem = true) :
    Memory.wf ((execSpinupRequest p s).stateOr s).standing.mem = true := by
  unfold execSpinupRequest
  simp only [Out.stateOr_next]
  simp [hm]

@[simp] theorem execDriveReady_standing (p units : Nat) (s : State) :
    ((execDriveReady p units s).stateOr s).standing.core = s.standing.core ∧
    ((execDriveReady p units s).stateOr s).standing.entries = s.standing.entries := by
  unfold execDriveReady
  simp only [Out.stateOr_next]
  repeat' split
  all_goals simp

@[simp] theorem execDriveReady_wf (p units : Nat) (s : State) (hm : Memory.wf s.standing.mem = true) :
    Memory.wf ((execDriveReady p units s).stateOr s).standing.mem = true := by
  unfold execDriveReady
  simp only [Out.stateOr_next]
  repeat' split
  all_goals simp [hm]

@[simp] theorem execDriveReady_spin (p units : Nat) (s : State) {a : Nat} (ha : s.standing.core.power.limitAsked = a)
    (hl : SpinLegal s.standing.limit a) :
    SpinLegal ((execDriveReady p units s).stateOr s).standing.limit a := by
  unfold execDriveReady
  simp only [Out.stateOr_next]
  repeat' split
  all_goals simp [ha, hl]

@[simp] theorem execSpinupTimeout_standing (p : Nat) (s : State) :
    ((execSpinupTimeout p s).stateOr s).standing.core = s.standing.core ∧
    ((execSpinupTimeout p s).stateOr s).standing.entries = s.standing.entries := by
  unfold execSpinupTimeout
  simp only [Out.stateOr_next]
  split <;> simp

@[simp] theorem execSpinupTimeout_wf (p : Nat) (s : State) (hm : Memory.wf s.standing.mem = true) :
    Memory.wf ((execSpinupTimeout p s).stateOr s).standing.mem = true := by
  unfold execSpinupTimeout
  simp only [Out.stateOr_next]
  split <;> simp [hm]

@[simp] theorem execSpinupTimeout_spin (p : Nat) (s : State) {a : Nat} (ha : s.standing.core.power.limitAsked = a)
    (hl : SpinLegal s.standing.limit a) :
    SpinLegal ((execSpinupTimeout p s).stateOr s).standing.limit a := by
  unfold execSpinupTimeout
  simp only [Out.stateOr_next]
  split <;> simp [ha, hl]

@[simp] theorem execReadbackExpire_standing (b : Nat) (s : State) :
    ((execReadbackExpire b s).stateOr s).standing.core = s.standing.core ∧
    ((execReadbackExpire b s).stateOr s).standing.entries = s.standing.entries := by
  unfold execReadbackExpire
  simp only [Out.stateOr_next]
  simp

@[simp] theorem execReadbackExpire_wf (b : Nat) (s : State) (hm : Memory.wf s.standing.mem = true) :
    Memory.wf ((execReadbackExpire b s).stateOr s).standing.mem = true := by
  unfold execReadbackExpire
  simp only [Out.stateOr_next]
  simp [hm]

@[simp] theorem execReadbackExpire_spin (b : Nat) (s : State) {a : Nat} (ha : s.standing.core.power.limitAsked = a)
    (hl : SpinLegal s.standing.limit a) :
    SpinLegal ((execReadbackExpire b s).stateOr s).standing.limit a := by
  unfold execReadbackExpire
  simp only [Out.stateOr_next]
  simp [ha, hl]

@[simp] theorem execSenseChange_standing (b : Nat) (on : Bool) (s : State) :
    ((execSenseChange b on s).stateOr s).standing.core = s.standing.core ∧
    ((execSenseChange b on s).stateOr s).standing.entries = s.standing.entries := by
  unfold execSenseChange
  simp only [Out.stateOr_next]
  simp

@[simp] theorem execSenseChange_wf (b : Nat) (on : Bool) (s : State) (hm : Memory.wf s.standing.mem = true) :
    Memory.wf ((execSenseChange b on s).stateOr s).standing.mem = true := by
  unfold execSenseChange
  simp only [Out.stateOr_next]
  simp [hm]

@[simp] theorem execSenseChange_spin (b : Nat) (on : Bool) (s : State) {a : Nat}
    (ha : s.standing.core.power.limitAsked = a) (hl : SpinLegal s.standing.limit a) :
    SpinLegal ((execSenseChange b on s).stateOr s).standing.limit a := by
  unfold execSenseChange
  simp only [Out.stateOr_next]
  simp [ha, hl]

@[simp] theorem execPresenceChange_standing (b : Nat) (present : Bool) (s : State) :
    ((execPresenceChange b present s).stateOr s).standing.core = s.standing.core ∧
    ((execPresenceChange b present s).stateOr s).standing.entries = s.standing.entries := by
  unfold execPresenceChange
  simp only [Out.stateOr_next]
  repeat' split
  all_goals simp

@[simp] theorem execPresenceChange_wf (b : Nat) (present : Bool) (s : State) (hm : Memory.wf s.standing.mem = true) :
    Memory.wf ((execPresenceChange b present s).stateOr s).standing.mem = true := by
  unfold execPresenceChange
  simp only [Out.stateOr_next]
  repeat' split
  all_goals simp [hm]

@[simp] theorem execPresenceChange_spin (b : Nat) (present : Bool) (s : State) {a : Nat}
    (ha : s.standing.core.power.limitAsked = a) (hl : SpinLegal s.standing.limit a) :
    SpinLegal ((execPresenceChange b present s).stateOr s).standing.limit a := by
  unfold execPresenceChange
  simp only [Out.stateOr_next]
  repeat' split
  all_goals simp [ha, hl]

@[simp] theorem execRevokeGrant_standing (tag g : Nat) (s : State) :
    ((execRevokeGrant tag g s).stateOr s).standing = s.standing := by
  unfold execRevokeGrant
  simp only [Out.stateOr_next]
  simp

@[simp] theorem execGetGrant_standing (tag g : Nat) (s : State) :
    ((execGetGrant tag g s).stateOr s).standing = s.standing := by
  unfold execGetGrant
  simp only [Out.stateOr_next]
  simp

@[simp] theorem execGrantExpire_standing (g : Nat) (s : State) :
    ((execGrantExpire g s).stateOr s).standing = s.standing := by
  unfold execGrantExpire
  simp only [Out.stateOr_next]
  simp

@[simp] theorem execOpenRead_standing (tag o g start count : Nat) (s : State) :
    ((execOpenRead tag o g start count s).stateOr s).standing = s.standing := by
  unfold execOpenRead
  simp only [Out.stateOr_next]
  simp

@[simp] theorem execStopRead_standing (tag i : Nat) (s : State) :
    ((execStopRead tag i s).stateOr s).standing = s.standing := by
  unfold execStopRead
  simp only [Out.stateOr_next]
  simp

@[simp] theorem execSeekStep_standing (i : Nat) (s : State) : ((execSeekStep i s).stateOr s).standing = s.standing := by
  unfold execSeekStep
  simp only [Out.stateOr_next]
  repeat' split
  all_goals simp

@[simp] theorem execChunkReadReport_standing (i : Nat) (s : State) :
    ((execChunkReadReport i s).stateOr s).standing = s.standing := by
  unfold execChunkReadReport
  simp only [Out.stateOr_next]
  repeat' split
  all_goals simp

@[simp] theorem execDataMessageSent_standing (s : State) : ((execDataMessageSent s).stateOr s).standing = s.standing := by
  unfold execDataMessageSent
  simp only [Out.stateOr_next]
  split <;> simp

@[simp] theorem execDataBytesRead_standing (i : Nat) (bad : Bool) (s : State) :
    ((execDataBytesRead i bad s).stateOr s).standing = s.standing := by
  unfold execDataBytesRead
  simp only [Out.stateOr_next]
  split <;> simp

@[simp] theorem execScrubStepStart_standing (s : State) : ((execScrubStepStart s).stateOr s).standing = s.standing := by
  unfold execScrubStepStart
  simp only [Out.stateOr_next]
  simp

@[simp] theorem execScrubReadsDone_standing (bad : List Nat) (s : State) :
    ((execScrubReadsDone bad s).stateOr s).standing.core = s.standing.core ∧
    ((execScrubReadsDone bad s).stateOr s).standing.limit = s.standing.limit ∧
    ((execScrubReadsDone bad s).stateOr s).standing.mem = s.standing.mem := by
  unfold execScrubReadsDone
  simp only [Out.stateOr_next]
  split <;> simp

@[simp] theorem execRepairWriteDone_standing (s : State) :
    ((execRepairWriteDone s).stateOr s).standing.core = s.standing.core ∧
    ((execRepairWriteDone s).stateOr s).standing.entries = s.standing.entries := by
  unfold execRepairWriteDone
  simp only [Out.stateOr_next]
  repeat' split
  all_goals simp

@[simp] theorem execRepairWriteDone_wf (s : State) (hm : Memory.wf s.standing.mem = true) :
    Memory.wf ((execRepairWriteDone s).stateOr s).standing.mem = true := by
  unfold execRepairWriteDone
  simp only [Out.stateOr_next]
  repeat' split
  all_goals simp [hm]

@[simp] theorem execRepairWriteDone_spin (s : State) {a : Nat} (ha : s.standing.core.power.limitAsked = a)
    (hl : SpinLegal s.standing.limit a) :
    SpinLegal ((execRepairWriteDone s).stateOr s).standing.limit a := by
  unfold execRepairWriteDone
  simp only [Out.stateOr_next]
  repeat' split
  all_goals simp [ha, hl]

@[simp] theorem execAdoptMember_standing (tag b p : Nat) (s : State) :
    ((execAdoptMember tag b p s).stateOr s).standing.core = s.standing.core ∧
    ((execAdoptMember tag b p s).stateOr s).standing.limit = s.standing.limit ∧
    ((execAdoptMember tag b p s).stateOr s).standing.entries = s.standing.entries := by
  unfold execAdoptMember
  simp only [Out.stateOr_next]
  simp

@[simp] theorem execAdoptMember_wf (tag b p : Nat) (s : State) (hm : Memory.wf s.standing.mem = true) :
    Memory.wf ((execAdoptMember tag b p s).stateOr s).standing.mem = true := by
  unfold execAdoptMember
  simp only [Out.stateOr_next]
  simp [hm]

@[simp] theorem execAdoptLabelWritten_standing (s : State) :
    ((execAdoptLabelWritten s).stateOr s).standing.core = s.standing.core ∧
    ((execAdoptLabelWritten s).stateOr s).standing.entries = s.standing.entries := by
  unfold execAdoptLabelWritten
  simp only [Out.stateOr_next]
  repeat' split
  all_goals simp

@[simp] theorem execAdoptLabelWritten_wf (s : State) (hm : Memory.wf s.standing.mem = true) :
    Memory.wf ((execAdoptLabelWritten s).stateOr s).standing.mem = true := by
  unfold execAdoptLabelWritten
  simp only [Out.stateOr_next]
  repeat' split
  all_goals simp [hm]

@[simp] theorem execAdoptLabelWritten_spin (s : State) {a : Nat} (ha : s.standing.core.power.limitAsked = a)
    (hl : SpinLegal s.standing.limit a) :
    SpinLegal ((execAdoptLabelWritten s).stateOr s).standing.limit a := by
  unfold execAdoptLabelWritten
  simp only [Out.stateOr_next]
  repeat' split
  all_goals simp [ha, hl]

@[simp] theorem execCheckpointCopyDone_standing (s : State) :
    ((execCheckpointCopyDone s).stateOr s).standing.core = s.standing.core ∧
    ((execCheckpointCopyDone s).stateOr s).standing.entries = s.standing.entries := by
  unfold execCheckpointCopyDone
  simp only [Out.stateOr_next]
  repeat' split
  all_goals simp

@[simp] theorem execCheckpointCopyDone_wf (s : State) (hm : Memory.wf s.standing.mem = true) :
    Memory.wf ((execCheckpointCopyDone s).stateOr s).standing.mem = true := by
  unfold execCheckpointCopyDone
  simp only [Out.stateOr_next]
  repeat' split
  all_goals simp [hm]

@[simp] theorem execCheckpointCopyDone_spin (s : State) {a : Nat} (ha : s.standing.core.power.limitAsked = a)
    (hl : SpinLegal s.standing.limit a) :
    SpinLegal ((execCheckpointCopyDone s).stateOr s).standing.limit a := by
  unfold execCheckpointCopyDone
  simp only [Out.stateOr_next]
  repeat' split
  all_goals simp [ha, hl]

@[simp] theorem execRebuildStep_standing (s : State) : ((execRebuildStep s).stateOr s).standing = s.standing := by
  unfold execRebuildStep
  simp only [Out.stateOr_next]
  split <;> simp

@[simp] theorem execRebuildReadsDone_standing (bad : List Nat) (s : State) :
    ((execRebuildReadsDone bad s).stateOr s).standing.core = s.standing.core ∧
    ((execRebuildReadsDone bad s).stateOr s).standing.limit = s.standing.limit ∧
    ((execRebuildReadsDone bad s).stateOr s).standing.mem = s.standing.mem := by
  unfold execRebuildReadsDone
  simp only [Out.stateOr_next]
  repeat' split
  all_goals simp

@[simp] theorem execRebuildWriteDone_standing (s : State) :
    ((execRebuildWriteDone s).stateOr s).standing.core = s.standing.core ∧
    ((execRebuildWriteDone s).stateOr s).standing.entries = s.standing.entries := by
  unfold execRebuildWriteDone
  simp only [Out.stateOr_next]
  split <;> simp

@[simp] theorem execRebuildWriteDone_wf (s : State) (hm : Memory.wf s.standing.mem = true) :
    Memory.wf ((execRebuildWriteDone s).stateOr s).standing.mem = true := by
  unfold execRebuildWriteDone
  simp only [Out.stateOr_next]
  split <;> simp [hm]

@[simp] theorem execRebuildWriteDone_spin (s : State) {a : Nat} (ha : s.standing.core.power.limitAsked = a)
    (hl : SpinLegal s.standing.limit a) :
    SpinLegal ((execRebuildWriteDone s).stateOr s).standing.limit a := by
  unfold execRebuildWriteDone
  simp only [Out.stateOr_next]
  split <;> simp [ha, hl]

@[simp] theorem execRebuildComplete_standing (s : State) :
    ((execRebuildComplete s).stateOr s).standing.core = s.standing.core ∧
    ((execRebuildComplete s).stateOr s).standing.entries = s.standing.entries := by
  unfold execRebuildComplete
  simp only [Out.stateOr_next]
  repeat' split
  all_goals simp

@[simp] theorem execRebuildComplete_wf (s : State) (hm : Memory.wf s.standing.mem = true) :
    Memory.wf ((execRebuildComplete s).stateOr s).standing.mem = true := by
  unfold execRebuildComplete
  simp only [Out.stateOr_next]
  repeat' split
  all_goals simp [hm]

@[simp] theorem execRebuildComplete_spin (s : State) {a : Nat} (ha : s.standing.core.power.limitAsked = a)
    (hl : SpinLegal s.standing.limit a) :
    SpinLegal ((execRebuildComplete s).stateOr s).standing.limit a := by
  unfold execRebuildComplete
  simp only [Out.stateOr_next]
  repeat' split
  all_goals simp [ha, hl]

@[simp] theorem execSleep_standing (tag : Nat) (s : State) : ((execSleep tag s).stateOr s).standing = s.standing := by
  unfold execSleep
  simp only [Out.stateOr_next]
  simp

@[simp] theorem execEntryDrainDone_standing (s : State) :
    ((execEntryDrainDone s).stateOr s).standing.core = s.standing.core ∧
    ((execEntryDrainDone s).stateOr s).standing.limit = s.standing.limit ∧
    ((execEntryDrainDone s).stateOr s).standing.entries = s.standing.entries := by
  unfold execEntryDrainDone
  simp only [Out.stateOr_next]
  simp

@[simp] theorem execEntryDrainDone_wf (s : State) (hm : Memory.wf s.standing.mem = true) :
    Memory.wf ((execEntryDrainDone s).stateOr s).standing.mem = true := by
  unfold execEntryDrainDone
  simp only [Out.stateOr_next]
  split
  · exact State.stepDone_wf (fun s hm => s.beginStep3_wf hm) hm
  · exact hm

@[simp] theorem execEntrySealDone_standing (s : State) :
    ((execEntrySealDone s).stateOr s).standing.core = s.standing.core ∧
    ((execEntrySealDone s).stateOr s).standing.limit = s.standing.limit ∧
    ((execEntrySealDone s).stateOr s).standing.entries = s.standing.entries := by
  unfold execEntrySealDone
  simp only [Out.stateOr_next]
  simp

@[simp] theorem execEntrySealDone_wf (s : State) (hm : Memory.wf s.standing.mem = true) :
    Memory.wf ((execEntrySealDone s).stateOr s).standing.mem = true := by
  unfold execEntrySealDone
  simp only [Out.stateOr_next]
  simp [hm]

@[simp] theorem execEntryCheckpointDone_standing (s : State) :
    ((execEntryCheckpointDone s).stateOr s).standing.core = s.standing.core ∧
    ((execEntryCheckpointDone s).stateOr s).standing.limit = s.standing.limit ∧
    ((execEntryCheckpointDone s).stateOr s).standing.entries = s.standing.entries := by
  unfold execEntryCheckpointDone
  simp only [Out.stateOr_next]
  simp

@[simp] theorem execEntryCheckpointDone_wf (s : State) (hm : Memory.wf s.standing.mem = true) :
    Memory.wf ((execEntryCheckpointDone s).stateOr s).standing.mem = true := by
  unfold execEntryCheckpointDone
  simp only [Out.stateOr_next]
  split
  · exact State.stepDone_wf (fun s hm => s.beginStep5_wf hm) hm
  · exact hm

@[simp] theorem execGraceExpire_standing (s : State) : ((execGraceExpire s).stateOr s).standing = s.standing := by
  unfold execGraceExpire
  simp only [Out.stateOr_next]
  simp

@[simp] theorem execAlarmFire_standing (s : State) :
    ((execAlarmFire s).stateOr s).standing.core = s.standing.core ∧
    ((execAlarmFire s).stateOr s).standing.limit = s.standing.limit ∧
    ((execAlarmFire s).stateOr s).standing.entries = s.standing.entries := by
  unfold execAlarmFire
  simp only [Out.stateOr_next]
  simp

@[simp] theorem execAlarmFire_wf (s : State) (hm : Memory.wf s.standing.mem = true) :
    Memory.wf ((execAlarmFire s).stateOr s).standing.mem = true := by
  unfold execAlarmFire
  simp only [Out.stateOr_next]
  simp [hm]

@[simp] theorem execTimeTick_wf (s : State) (hm : Memory.wf s.standing.mem = true) :
    Memory.wf ((execTimeTick s).stateOr s).standing.mem = true := by
  unfold execTimeTick
  simp only [Out.stateOr_next]
  obtain ⟨n, -, h⟩ := ((((s.onPwc fun w => { w with time := w.time + 1 }).compareGrants).compareAlarm)).scrubCountdown_standing
  rw [h]
  simp [hm]

@[simp] theorem execSetTime_wf (tag : Nat) (t : Time) (s : State) (hm : Memory.wf s.standing.mem = true) :
    Memory.wf ((execSetTime tag t s).stateOr s).standing.mem = true := by
  unfold execSetTime
  simp only [Out.stateOr_next]
  simp [hm]

@[simp] theorem execSetAlarm_standing (tag off : Nat) (t : Time) (s : State) :
    ((execSetAlarm tag off t s).stateOr s).standing = s.standing := by
  unfold execSetAlarm
  simp only [Out.stateOr_next]
  simp

theorem State.setPowerPolicy_spin (s : State) (tag i0 i1 i2 i3 limit grace : Nat)
    (hl : SpinLegal s.standing.limit s.standing.core.power.limitAsked) :
    SpinLegal (s.setPowerPolicy tag i0 i1 i2 i3 limit grace).standing.limit
      (s.setPowerPolicy tag i0 i1 i2 i3 limit grace).standing.core.power.limitAsked := by
  unfold State.setPowerPolicy
  split
  · simpa using hl
  · simp only [State.answer_standing, State.spinChanged_standing]
    refine State.spinChanged_spin _ rfl ?_
    change SpinLegal (if s.pwc.limit < clamp 1 4 limit then clamp 1 4 limit else s.pwc.limit) (clamp 1 4 limit)
    obtain ⟨h₁, h₂, -⟩ : SpinLegal s.pwc.limit s.pwc.limitAsked := hl
    unfold SpinLegal clamp
    split <;> omega

theorem execSetPowerPolicy_spin (tag i0 i1 i2 i3 limit grace : Nat) (s : State)
    (hl : SpinLegal s.standing.limit s.standing.core.power.limitAsked) :
    SpinLegal ((execSetPowerPolicy tag i0 i1 i2 i3 limit grace s).stateOr s).standing.limit
      ((execSetPowerPolicy tag i0 i1 i2 i3 limit grace s).stateOr s).standing.core.power.limitAsked :=
  State.setPowerPolicy_spin _ tag i0 i1 i2 i3 limit grace (by rwa [State.taken_standing])

@[simp] theorem execLanFrame_wf (frame : List Byte) (s : State) (hm : Memory.wf s.standing.mem = true) :
    Memory.wf ((execLanFrame frame s).stateOr s).standing.mem = true := by
  unfold execLanFrame
  simp only [Out.stateOr_next]
  repeat' split
  all_goals simp [hm]

@[simp] theorem execButtonShort_standing (s : State) :
    ((execButtonShort s).stateOr s).standing.core = s.standing.core ∧
    ((execButtonShort s).stateOr s).standing.limit = s.standing.limit ∧
    ((execButtonShort s).stateOr s).standing.entries = s.standing.entries := by
  unfold execButtonShort
  simp only [Out.stateOr_next]
  simp

@[simp] theorem execButtonShort_wf (s : State) (hm : Memory.wf s.standing.mem = true) :
    Memory.wf ((execButtonShort s).stateOr s).standing.mem = true := by
  unfold execButtonShort
  simp only [Out.stateOr_next]
  simp [hm]

@[simp] theorem execButtonLong_standing (s : State) :
    ((execButtonLong s).stateOr s).standing.core = s.standing.core ∧
    ((execButtonLong s).stateOr s).standing.limit = s.standing.limit ∧
    ((execButtonLong s).stateOr s).standing.entries = s.standing.entries := by
  unfold execButtonLong
  simp only [Out.stateOr_next]
  simp

@[simp] theorem execButtonLong_wf (s : State) (hm : Memory.wf s.standing.mem = true) :
    Memory.wf ((execButtonLong s).stateOr s).standing.mem = true := by
  unfold execButtonLong
  simp only [Out.stateOr_next]
  simp [hm]

@[simp] theorem execMemoryInitDone_standing (size : Option Nat) (s : State) :
    ((execMemoryInitDone size s).stateOr s).standing.core = s.standing.core ∧
    ((execMemoryInitDone size s).stateOr s).standing.limit = s.standing.limit ∧
    ((execMemoryInitDone size s).stateOr s).standing.entries = s.standing.entries := by
  unfold execMemoryInitDone
  simp only [Out.stateOr_next]
  split
  · split
    · simp
    · split
      · exact ⟨rfl, rfl, rfl⟩
      · simp
  · simp

@[simp] theorem execMemoryInitDone_wf (size : Option Nat) (s : State) (hm : Memory.wf s.standing.mem = true) :
    Memory.wf ((execMemoryInitDone size s).stateOr s).standing.mem = true := by
  unfold execMemoryInitDone
  simp only [Out.stateOr_next]
  split
  · split
    · simp [hm]
    · split
      · exact Memory.wf_nil
      · exact hm
  · simp [hm]

/-- The next burst is carried, or the command stops at it and answers no state. -/
theorem State.carryNext_stateOr (s : State) : (∃ b rest, s.mec.bursts = b :: rest ∧
    s.carryNext = .next ((s.onMec fun m => { m with bursts := rest }).carryBurst b)) ∨
    (s.carryNext = .next s ∨ ∃ f, s.carryNext = .fault f) := by
  unfold State.carryNext
  split
  · exact .inr (.inl rfl)
  · rename_i b rest hb
    dsimp only
    split
    · exact .inr (.inr ⟨_, rfl⟩)
    · split
      · exact .inl ⟨b, rest, hb, rfl⟩
      · exact .inr (.inr ⟨_, rfl⟩)

/-- A burst is put off or refused, stops the command, or is carried (R175). -/
theorem execMemoryBurst_cases (b : Option Burst) (s : State) :
    ((execMemoryBurst b s).stateOr s).standing = s.standing ∨
    ∃ (t : State) (x : Burst), t.standing = s.standing ∧ (execMemoryBurst b s).stateOr s = t.carryBurst x := by
  unfold execMemoryBurst
  dsimp only
  split
  · exact .inl (by split <;> simp)
  · split
    · exact .inl (by simp)
    · obtain ⟨x, rest, -, h⟩ | h | ⟨f, h⟩ := State.carryNext_stateOr (s.onMec fun m => { m with bursts := m.bursts ++ b.toList })
      · refine .inr ⟨_, x, ?_, by rw [h]; rfl⟩
        simp
      · exact .inl (by rw [h]; simp)
      · exact .inl (by rw [h]; rfl)
  · exact .inl (by simp)

@[simp] theorem execMemoryBurst_wf (b : Option Burst) (s : State) (hm : Memory.wf s.standing.mem = true) :
    Memory.wf ((execMemoryBurst b s).stateOr s).standing.mem = true := by
  obtain hs | ⟨t, x, hs, h⟩ := execMemoryBurst_cases b s
  · rw [hs]; exact hm
  · rw [h]; exact t.carryBurst_wf x (by rw [hs]; exact hm)

@[simp] theorem execReadBufferRequest_standing (a : BufAsker) (n : Nat) (s : State) :
    ((execReadBufferRequest a n s).stateOr s).standing = s.standing := by
  unfold execReadBufferRequest
  simp only [Out.stateOr_next]
  simp

@[simp] theorem execReadBufferReturn_standing (a : BufAsker) (n : Nat) (s : State) :
    ((execReadBufferReturn a n s).stateOr s).standing = s.standing := by
  unfold execReadBufferReturn
  simp only [Out.stateOr_next]
  simp

@[simp] theorem execRegionMapRequest_standing (b c : Nat) (s : State) :
    ((execRegionMapRequest b c s).stateOr s).standing = s.standing := by
  unfold execRegionMapRequest
  simp only [Out.stateOr_next]
  simp

@[simp] theorem execMarkerRequest_standing (s : State) : ((execMarkerRequest s).stateOr s).standing = s.standing := by
  unfold execMarkerRequest
  simp only [Out.stateOr_next]
  simp

@[simp] theorem execFormArray_standing (tag layout count : Nat) (bays : List Nat) (buckets : Nat) (s : State) :
    ((execFormArray tag layout count bays buckets s).stateOr s).standing = s.standing := by
  unfold execFormArray
  simp only [Out.stateOr_next]
  simp

@[simp] theorem execFormDrivesReady_spin (s : State) {a : Nat} (ha : s.standing.core.power.limitAsked = a)
    (hl : SpinLegal s.standing.limit a) :
    SpinLegal ((execFormDrivesReady s).stateOr s).standing.limit a := by
  unfold execFormDrivesReady
  simp only [Out.stateOr_next]
  split <;> simp [ha, hl]

@[simp] theorem execFormLabelsWritten_standing (s : State) :
    ((execFormLabelsWritten s).stateOr s).standing.core = s.standing.core ∧
    ((execFormLabelsWritten s).stateOr s).standing.entries = s.standing.entries := by
  unfold execFormLabelsWritten
  simp only [Out.stateOr_next]
  split <;> simp

@[simp] theorem execFormLabelsWritten_wf (s : State) (hm : Memory.wf s.standing.mem = true) :
    Memory.wf ((execFormLabelsWritten s).stateOr s).standing.mem = true := by
  unfold execFormLabelsWritten
  simp only [Out.stateOr_next]
  split <;> simp [hm]

@[simp] theorem execFormLabelsWritten_spin (s : State) {a : Nat} (ha : s.standing.core.power.limitAsked = a)
    (hl : SpinLegal s.standing.limit a) :
    SpinLegal ((execFormLabelsWritten s).stateOr s).standing.limit a := by
  unfold execFormLabelsWritten
  simp only [Out.stateOr_next]
  split <;> simp [ha, hl]

@[simp] theorem execCheckpoint_standing (tag : Nat) (s : State) :
    ((execCheckpoint tag s).stateOr s).standing = s.standing := by
  unfold execCheckpoint
  simp only [Out.stateOr_next]
  simp

@[simp] theorem execCheckpointQuiet_standing (s : State) :
    ((execCheckpointQuiet s).stateOr s).standing.core = s.standing.core ∧
    ((execCheckpointQuiet s).stateOr s).standing.limit = s.standing.limit ∧
    ((execCheckpointQuiet s).stateOr s).standing.entries = s.standing.entries := by
  unfold execCheckpointQuiet
  simp only [Out.stateOr_next]
  repeat' split
  all_goals simp

@[simp] theorem execCheckpointQuiet_wf (s : State) (hm : Memory.wf s.standing.mem = true) :
    Memory.wf ((execCheckpointQuiet s).stateOr s).standing.mem = true := by
  have hpartial : Memory.wf ((s.each (List.range 8) fun s i => s.writePartial i).pauseWalks).standing.mem = true := by
    rw [State.pauseWalks_standing]
    exact State.each_wf (fun s i hm => s.writePartial_wf i hm) hm
  unfold execCheckpointQuiet
  simp only [Out.stateOr_next]
  split
  · exact hm
  · split
    · split
      · exact hpartial
      · split
        · rw [State.askCkptSeal_standing]; exact hpartial
        · exact hpartial
    · exact hm

@[simp] theorem execCheckpointSealed_standing (s : State) :
    ((execCheckpointSealed s).stateOr s).standing = s.standing := by
  unfold execCheckpointSealed
  simp only [Out.stateOr_next]
  split <;> simp

@[simp] theorem execCheckpointUnitWritten_standing (p : Nat) (s : State) :
    ((execCheckpointUnitWritten p s).stateOr s).standing.core = s.standing.core ∧
    ((execCheckpointUnitWritten p s).stateOr s).standing.entries = s.standing.entries := by
  unfold execCheckpointUnitWritten
  simp only [Out.stateOr_next]
  repeat' split
  all_goals simp

@[simp] theorem execCheckpointUnitWritten_wf (p : Nat) (s : State) (hm : Memory.wf s.standing.mem = true) :
    Memory.wf ((execCheckpointUnitWritten p s).stateOr s).standing.mem = true := by
  unfold execCheckpointUnitWritten
  simp only [Out.stateOr_next]
  repeat' split
  all_goals simp [hm]

@[simp] theorem execCheckpointUnitWritten_spin (p : Nat) (s : State) {a : Nat} (ha : s.standing.core.power.limitAsked = a)
    (hl : SpinLegal s.standing.limit a) :
    SpinLegal ((execCheckpointUnitWritten p s).stateOr s).standing.limit a := by
  unfold execCheckpointUnitWritten
  simp only [Out.stateOr_next]
  repeat' split
  all_goals simp [ha, hl]

@[simp] theorem execQuarantineRelease_standing (s : State) :
    ((execQuarantineRelease s).stateOr s).standing = s.standing := by
  unfold execQuarantineRelease
  simp only [Out.stateOr_next]
  split <;> simp

@[simp] theorem execCheckpointEnd_wf (s : State) (hm : Memory.wf s.standing.mem = true) :
    Memory.wf ((execCheckpointEnd s).stateOr s).standing.mem = true := by
  unfold execCheckpointEnd
  simp only [Out.stateOr_next]
  split <;> simp [hm]

@[simp] theorem execCheckpointEnd_spin (s : State) {a : Nat} (ha : s.standing.core.power.limitAsked = a)
    (hl : SpinLegal s.standing.limit a) :
    SpinLegal ((execCheckpointEnd s).stateOr s).standing.limit a := by
  unfold execCheckpointEnd
  simp only [Out.stateOr_next]
  split <;> simp [ha, hl]

@[simp] theorem execAttachArray_standing (tag : Nat) (s : State) :
    ((execAttachArray tag s).stateOr s).standing = s.standing := by
  unfold execAttachArray
  simp only [Out.stateOr_next]
  simp

@[simp] theorem execAttachLabelsRead_standing (s : State) :
    ((execAttachLabelsRead s).stateOr s).standing.core = s.standing.core ∧
    ((execAttachLabelsRead s).stateOr s).standing.entries = s.standing.entries ∧
    ((execAttachLabelsRead s).stateOr s).standing.mem = s.standing.mem := by
  unfold execAttachLabelsRead
  simp only [Out.stateOr_next]
  split <;> simp

@[simp] theorem execAttachLabelsRead_spin (s : State) {a : Nat} (ha : s.standing.core.power.limitAsked = a)
    (hl : SpinLegal s.standing.limit a) :
    SpinLegal ((execAttachLabelsRead s).stateOr s).standing.limit a := by
  unfold execAttachLabelsRead
  simp only [Out.stateOr_next]
  split <;> simp [ha, hl]

@[simp] theorem execSlotHeadersRead_standing (s : State) :
    ((execSlotHeadersRead s).stateOr s).standing.core = s.standing.core ∧
    ((execSlotHeadersRead s).stateOr s).standing.mem = s.standing.mem := by
  unfold execSlotHeadersRead
  simp only [Out.stateOr_next]
  repeat' split
  all_goals simp

@[simp] theorem execSlotHeadersRead_spin (s : State) {a : Nat} (ha : s.standing.core.power.limitAsked = a)
    (hl : SpinLegal s.standing.limit a) :
    SpinLegal ((execSlotHeadersRead s).stateOr s).standing.limit a := by
  unfold execSlotHeadersRead
  simp only [Out.stateOr_next]
  repeat' split
  all_goals simp [ha, hl]

@[simp] theorem execSlotBodyRead_spin (s : State) {a : Nat} (ha : s.standing.core.power.limitAsked = a)
    (hl : SpinLegal s.standing.limit a) :
    SpinLegal ((execSlotBodyRead s).stateOr s).standing.limit a := by
  unfold execSlotBodyRead
  simp only [Out.stateOr_next]
  repeat' split
  all_goals simp [ha, hl]

@[simp] theorem execReplayScanRead_standing (s : State) : ((execReplayScanRead s).stateOr s).standing = s.standing := by
  unfold execReplayScanRead
  simp only [Out.stateOr_next]
  repeat' split
  all_goals simp

@[simp] theorem execReplayApply_standing (s : State) :
    ((execReplayApply s).stateOr s).standing.core = s.standing.core ∧
    ((execReplayApply s).stateOr s).standing.limit = s.standing.limit ∧
    ((execReplayApply s).stateOr s).standing.mem = s.standing.mem := by
  unfold execReplayApply
  simp only [Out.stateOr_next]
  split <;> simp

@[simp] theorem execReplayWalksDone_standing (s : State) :
    ((execReplayWalksDone s).stateOr s).standing.core = s.standing.core ∧
    ((execReplayWalksDone s).stateOr s).standing.limit = s.standing.limit ∧
    ((execReplayWalksDone s).stateOr s).standing.mem = s.standing.mem := by
  unfold execReplayWalksDone
  simp only [Out.stateOr_next]
  repeat' split
  all_goals simp

@[simp] theorem execFrameSync_standing (s : State) : ((execFrameSync s).stateOr s).standing = s.standing := by
  unfold execFrameSync
  simp only [Out.stateOr_next]
  simp

@[simp] theorem execHeaderReceived_standing (bytes : List Byte) (s : State) :
    ((execHeaderReceived bytes s).stateOr s).standing.core = s.standing.core ∧
    ((execHeaderReceived bytes s).stateOr s).standing.limit = s.standing.limit ∧
    ((execHeaderReceived bytes s).stateOr s).standing.entries = s.standing.entries := by
  unfold execHeaderReceived
  simp only [Out.stateOr_next]
  simp

@[simp] theorem execHeaderReceived_wf (bytes : List Byte) (s : State) (hm : Memory.wf s.standing.mem = true) :
    Memory.wf ((execHeaderReceived bytes s).stateOr s).standing.mem = true := by
  unfold execHeaderReceived
  simp only [Out.stateOr_next]
  simp [hm]

@[simp] theorem execFrameSkipped_standing (s : State) : ((execFrameSkipped s).stateOr s).standing = s.standing := by
  unfold execFrameSkipped
  simp only [Out.stateOr_next]
  simp

@[simp] theorem execLineBreak_standing (s : State) : ((execLineBreak s).stateOr s).standing = s.standing := by
  unfold execLineBreak
  simp only [Out.stateOr_next]
  simp

@[simp] theorem execFrameReceived_standing (payload : List Byte) (crc : Crc) (s : State) :
    ((execFrameReceived payload crc s).stateOr s).standing = s.standing := by
  unfold execFrameReceived
  simp only [Out.stateOr_next]
  split <;> simp

@[simp] theorem execMessageBegin_standing (s : State) : ((execMessageBegin s).stateOr s).standing = s.standing := by
  unfold execMessageBegin
  simp only [Out.stateOr_next]
  simp

@[simp] theorem execReplySent_standing (s : State) : ((execReplySent s).stateOr s).standing = s.standing := by
  unfold execReplySent
  simp only [Out.stateOr_next]
  split <;> simp

@[simp] theorem execNoticeSent_standing (s : State) : ((execNoticeSent s).stateOr s).standing = s.standing := by
  unfold execNoticeSent
  simp only [Out.stateOr_next]
  split <;> simp

@[simp] theorem execGetStatus_standing (tag figures : Nat) (s : State) :
    ((execGetStatus tag figures s).stateOr s).standing = s.standing := by
  unfold execGetStatus
  simp only [Out.stateOr_next]
  simp

end Sys2Proof.Machine

/-! # Proofs: what each command can do to the settings -/

namespace Sys2Proof.Machine

/-- What each command can do to the core: most leave it as it is, and each of the others moves the fields that its own rule
names, within the range that the rule gives. -/
inductive CoreMove : Instr → Core → Core → Prop
  | stays (c k) : CoreMove c k k
  | policy (tag i j l m lim g k) : CoreMove (.setPowerPolicy tag i j l m lim g) k
      { k with power := { k.power with
        idleTimes := #v[min 255 i, min 255 j, min 255 l, min 255 m], grace := clamp 1 255 g, limitAsked := clamp 1 4 lim } }
  | station (tag a b k ad on) (length : ad.length = 6) :
      CoreMove (.setStation tag a b) k { k with power := { k.power with station := ad, broadcast := on } }
  | lamps (tag n k m) : CoreMove (.setLamps tag n) k { k with power := { k.power with lampMode := m } }
  | scrub (tag n k p) (most : p ≤ 65535) : CoreMove (.setScrub tag n) k { k with period := p, timer := p }
  | reload (k) : CoreMove .scrubTimerExpire k { k with timer := k.period }
  | tick (k n) (falls : n ≤ k.timer) : CoreMove .timeTick k { k with time := k.time + 1, timer := n }
  | time (tag v k) : CoreMove (.setTime tag v) k { k with time := v }
  | chunking (tag n k o) (least : 10 ≤ o) (most : o ≤ 14) : CoreMove (.setChunking tag n) k { k with order := o }
  | arrayUp (k b) (upped : Core.Upped k b) : CoreMove .checkpointEnd k b
  | frames (tag sel f cl k fs cs) (each : ∀ p : Fin 4, fs[p] = k.frames[p] ∨ fs[p] = (cs, 0)) (least : 4 ≤ cs.length)
      (most : cs.length ≤ 32) : CoreMove (.setServiceFrame tag sel f cl) k { k with frames := fs }
  | dispatch (p k n f m) (here : k.frames[p]? = some (f, m)) :
      CoreMove (.dispatch p) k { k with frames := k.frames.setIfInBounds p (f, n % f.length) }
  | grant (tag g al na a l k) : CoreMove (.putGrant tag g al na a l) k
      { k with terms := k.terms.setIfInBounds g (Grant.put al na a l).terms }
  | charge (i k g left n) {t : GrantTerms} (here : k.terms[g]? = some t) (limited : t.remaining = some left) (falls : n ≤ left) :
      CoreMove (.chunkIssue i) k { k with terms := k.terms.setIfInBounds g { t with remaining := some n } }
  | pattern (tag n e o l bs m iv k) : CoreMove (.setWakePattern tag n e o l bs m iv) k
      { k with patterns := k.patterns.setIfInBounds n (WakePattern.put e o l bs m iv) }
  | woken (bs k n v) {p : WakePattern} (here : k.patterns[n]? = some p) :
      CoreMove (.lanFrame bs) k { k with patterns := k.patterns.setIfInBounds n { p with lastWake := v } }
  | issued (c k n) (most : n ≤ 8) : CoreMove c k { k with owed := n }
  | identity (c k i) (remakes : c = .formDrivesReady ∨ c = .slotBodyRead) : CoreMove c k { k with identity := i }
  | powerOn (k) : CoreMove .powerOnReset k { State.reset.core with pending := k.pending }
  | warm (k) : CoreMove .warmReset k
      { State.reset.core with pending := k.pending, time := k.time, identity := k.identity }

theorem CoreMove.of_eq {c : Instr} {a b : Core} (h : b = a) : CoreMove c a b := h ▸ .stays c a

section Exceptions

variable (s : State)

theorem State.frames_getElem? {p : Nat} (h : p < 4) :
    s.standing.core.frames[p]? = some ((s.chan p).frame, (s.chan p).position) := by
  simp [State.standing, State.core, State.chan, h]

theorem State.terms_getElem? {g : Nat} (h : g < 64) : s.standing.core.terms[g]? = some (s.grant g).terms := by
  simp [State.standing, State.core, State.grant, h]

theorem execDispatch_core (p : Nat) :
    CoreMove (.dispatch p) s.standing.core ((execDispatch p s).stateOr s).standing.core := by
  unfold execDispatch
  simp only [Out.stateOr_next]
  split
  · obtain h | ⟨n, h⟩ := s.dispatch_core p
    · exact .of_eq h
    · by_cases hp : p < 4
      · exact h ▸ .dispatch p _ n _ _ (s.frames_getElem? hp)
      · refine .of_eq (h.trans ?_)
        rw [Vector.setIfInBounds_eq_of_size_le (by omega)]
  · exact .stays ..

theorem execChunkIssue_core (i : Nat) :
    CoreMove (.chunkIssue i) s.standing.core ((execChunkIssue i s).stateOr s).standing.core := by
  unfold execChunkIssue
  simp only [Out.stateOr_next]
  split
  · rename_i g h _ _ _
    have hs : (if g = ownerAccess then s else s.compareGrant g).standing = s.standing := by simp
    generalize (if g = ownerAccess then s else s.compareGrant g) = u at hs ⊢
    rw [← hs]
    split
    · obtain h | ⟨left, n, hl, hn, h⟩ := u.issueAt_standing i g h
      · exact .of_eq (by rw [h])
      · rw [h]
        by_cases hg : g < 64
        · exact .charge i _ g left n (u.terms_getElem? hg) hl hn
        · refine .of_eq ?_
          dsimp only
          rw [Vector.setIfInBounds_eq_of_size_le (by omega)]
    · exact .stays ..
  · exact .of_eq (by simp)
  · exact .stays ..

theorem execScrubTimerExpire_core :
    CoreMove .scrubTimerExpire s.standing.core ((execScrubTimerExpire s).stateOr s).standing.core := by
  have hload : (s.onIgu fun g => { g with timer := g.period }).standing.core =
    { s.standing.core with timer := s.standing.core.period } := rfl
  unfold execScrubTimerExpire
  simp only [Out.stateOr_next]
  split
  · have : ((if (s.onIgu fun g => { g with timer := g.period }).igu.step.isSome then
        (s.onIgu fun g => { g with timer := g.period }).onIgu fun g => { g with lag := tallyUp 78 g.lag }
      else (s.onIgu fun g => { g with timer := g.period }).scrubSearch)).standing.core =
        { s.standing.core with timer := s.standing.core.period } := by
      rw [← hload]; split <;> simp
    rw [this]
    exact .reload _
  · exact .stays ..

/-- A tick counts the time on by one, and the scrub timer may fall (R136, R167). -/
theorem execTimeTick_core_eq : ∃ n ≤ s.standing.core.timer, ((execTimeTick s).stateOr s).standing.core =
    { s.standing.core with time := s.standing.core.time + 1, timer := n } := by
  obtain ⟨n, hn, h⟩ := ((s.onPwc fun w => { w with time := w.time + 1 }).compareGrants).compareAlarm.scrubCountdown_standing
  have htime : (((s.onPwc fun w => { w with time := w.time + 1 }).compareGrants).compareAlarm).standing.core =
      { s.standing.core with time := s.standing.core.time + 1 } := by
    simp only [State.compareAlarm_standing, State.compareGrants_standing]; rfl
  rw [htime] at hn
  refine ⟨n, hn, ?_⟩
  unfold execTimeTick
  rw [Out.stateOr_next, h, htime]

theorem execTimeTick_core : CoreMove .timeTick s.standing.core ((execTimeTick s).stateOr s).standing.core := by
  obtain ⟨n, hn, h⟩ := execTimeTick_core_eq s
  rw [h]
  exact .tick _ n hn

@[simp] theorem Pwc.tryPatterns_settings (w : Pwc) (body : List Byte) (ns : List Nat) :
    (w.tryPatterns body ns).1.settings = w.settings ∧ (w.tryPatterns body ns).1.time = w.time ∧
    (w.tryPatterns body ns).1.limit = w.limit := by
  induction ns generalizing w with
  | nil => exact ⟨rfl, rfl, rfl⟩
  | cons n ns ih =>
    unfold Pwc.tryPatterns
    dsimp only
    split
    · split
      · exact ⟨rfl, rfl, rfl⟩
      · exact ih _
    · exact ih _

theorem Pwc.tryPatterns_patterns (w : Pwc) (body : List Byte) (ns : List Nat) :
    (w.tryPatterns body ns).1.patterns = w.patterns ∨
    ∃ n p v, w.patterns[n]? = some p ∧
      (w.tryPatterns body ns).1.patterns = w.patterns.setIfInBounds n { p with lastWake := v } := by
  induction ns generalizing w with
  | nil => exact .inl rfl
  | cons n ns ih =>
    unfold Pwc.tryPatterns
    dsimp only
    split
    · rename_i hon
      split
      · cases hp : w.patterns[n]? with
        | none => simp [hp, WakePattern.resetRecord] at hon
        | some p => exact .inr ⟨n, p, some w.time, hp, by simp⟩
      · exact ih { w with suppressed := tallyUp 43 w.suppressed }
    · exact ih w

/-- Trying the patterns changes the time at which one last woke the box alone of what stands (R168). -/
theorem State.tryPatterns_core (body : List Byte) (ns : List Nat) (bs : List Byte) :
    CoreMove (.lanFrame bs) s.standing.core (s.onPwc fun _ => (s.pwc.tryPatterns body ns).1).standing.core := by
  obtain ⟨hset, -⟩ := s.pwc.tryPatterns_settings body ns
  have hcore : (s.onPwc fun _ => (s.pwc.tryPatterns body ns).1).standing.core =
      { s.standing.core with patterns := (s.pwc.tryPatterns body ns).1.patterns } := by
    simp [State.onPwc, State.standing, State.core, hset]
  rw [hcore]
  obtain h | ⟨n, p, v, hp, h⟩ := s.pwc.tryPatterns_patterns body ns
  · rw [h]; exact .stays ..
  · rw [h]; exact .woken _ _ n v hp

theorem execLanFrame_core (bs : List Byte) :
    CoreMove (.lanFrame bs) s.standing.core ((execLanFrame bs s).stateOr s).standing.core := by
  unfold execLanFrame
  simp only [Out.stateOr_next]
  split
  · split
    · have h := s.tryPatterns_core (bs.take (bs.length - 4)) (List.range 8) bs
      split
      · rw [State.wakeCause_standing _ _ |>.1]; exact h
      · exact h
    · exact .of_eq (by simp)
  · exact .stays ..

theorem execMemoryBurst_core (b : Option Burst) :
    CoreMove (.memoryBurst b) s.standing.core ((execMemoryBurst b s).stateOr s).standing.core := by
  obtain h | ⟨t, x, hs, h⟩ := execMemoryBurst_cases b s
  · exact .of_eq (by rw [h])
  · rw [h, State.carryBurst_core, hs]
    exact .issued _ _ 0 (by omega)

theorem execSelfRefreshEntered_core :
    CoreMove .selfRefreshEntered s.standing.core ((execSelfRefreshEntered s).stateOr s).standing.core := by
  have howed : (s.onMec fun m =>
      { m with state := .selfRefresh, refreshRunning := false, owed := 0, entryAsked := false }).standing.core =
        { s.standing.core with owed := 0 } := rfl
  unfold execSelfRefreshEntered
  simp only [Out.stateOr_next]
  split
  · split
    · rw [State.goDark_standing, howed]; exact .issued _ _ 0 (by omega)
    · rw [howed]; exact .issued _ _ 0 (by omega)
  · exact .stays ..

theorem execSelfRefreshExited_core :
    CoreMove .selfRefreshExited s.standing.core ((execSelfRefreshExited s).stateOr s).standing.core := by
  unfold execSelfRefreshExited
  simp only [Out.stateOr_next]
  split
  · generalize hu : s.onMec _ = u
    have hcore : CoreMove .selfRefreshExited s.standing.core u.standing.core := by
      rw [← hu]
      by_cases hm : s.mec.state = .selfRefresh
      · have h : (s.onMec fun m =>
            if m.state = .selfRefresh then
              { m with state := .ready, refreshRunning := true, owed := 0, exitAsked := false }
            else { m with exitAsked := false }).standing.core = { s.standing.core with owed := 0 } := by
          simp [State.onMec, hm, State.standing, State.core]
        rw [h]
        exact .issued _ _ 0 (by omega)
      · refine .of_eq ?_
        simp [State.onMec, hm, State.standing, State.core]
    split
    · simpa using hcore
    · exact hcore
  · exact .stays ..

theorem execRefreshTimerExpire_core (busy : Bool) :
    CoreMove (.refreshTimerExpire busy) s.standing.core ((execRefreshTimerExpire busy s).stateOr s).standing.core := by
  have howed (s : State) : (s.onMec fun m => { m with owed := 0 }).standing.core = { s.standing.core with owed := 0 } := rfl
  unfold execRefreshTimerExpire
  simp only [Out.stateOr_next]
  split
  · generalize hu : s.onMec _ = u
    have hcore : u.standing.core = { s.standing.core with owed := min 8 (s.standing.core.owed + 1) } := by rw [← hu]; rfl
    have hnotice : (if decide (1 ≤ s.mec.owed) then u.noticeMemory .refresh else u).standing = u.standing := by simp
    generalize (if decide (1 ≤ s.mec.owed) then u.noticeMemory .refresh else u) = v at hnotice ⊢
    split
    · rw [hnotice, hcore]; exact .issued _ _ _ (by omega)
    · rw [howed, hnotice, hcore]; exact .issued _ _ 0 (by omega)
  · exact .stays ..

theorem execFormDrivesReady_core :
    CoreMove .formDrivesReady s.standing.core ((execFormDrivesReady s).stateOr s).standing.core := by
  unfold execFormDrivesReady
  simp only [Out.stateOr_next]
  split
  · exact .stays ..
  · split
    · rename_i f _ _
      have hs : (s.dropReturned fun j => j = .labelRead).standing = s.standing := by simp
      obtain h | ⟨i, h⟩ := (s.dropReturned fun j => j = .labelRead).sizeArray_core f
      · exact .of_eq (by rw [h, hs])
      · rw [h, hs]; exact .identity _ _ i (.inl rfl)
    · exact .stays ..

theorem execSlotBodyRead_core :
    CoreMove .slotBodyRead s.standing.core ((execSlotBodyRead s).stateOr s).standing.core := by
  unfold execSlotBodyRead
  simp only [Out.stateOr_next]
  split
  · exact .stays ..
  · split
    · split
      · rename_i a _ _ _ _ l h _ _
        have hs : (s.dropReturned isBodyJob).standing = s.standing := by simp
        obtain ⟨i, h⟩ := (s.dropReturned isBodyJob).takeBody_core a l h (s.returned isBodyJob)
        rw [h, hs]
        exact .identity _ _ i (.inr rfl)
      · exact .of_eq (by simp)
    · exact .stays ..

theorem execCheckpointEnd_core :
    CoreMove .checkpointEnd s.standing.core ((execCheckpointEnd s).stateOr s).standing.core := by
  unfold execCheckpointEnd
  simp only [Out.stateOr_next]
  split
  · exact .stays ..
  · split
    · exact .arrayUp _ _ (s.headersDone_core _)
    · exact .stays ..

theorem execSetPowerPolicy_core (tag i0 i1 i2 i3 limit grace : Nat) :
    CoreMove (.setPowerPolicy tag i0 i1 i2 i3 limit grace) s.standing.core
      ((execSetPowerPolicy tag i0 i1 i2 i3 limit grace s).stateOr s).standing.core := by
  unfold execSetPowerPolicy
  rw [Out.stateOr_next]
  obtain h | h := (s.taken (.setPowerPolicy tag i0 i1 i2 i3 limit grace)).setPowerPolicy_core tag i0 i1 i2 i3 limit grace
  · exact .of_eq (by rw [h, State.taken_standing])
  · rw [h, State.taken_standing]
    exact .policy ..

theorem execSetStation_core (tag : Nat) (address : List Byte) (broadcast : Nat) :
    CoreMove (.setStation tag address broadcast) s.standing.core ((execSetStation tag address broadcast s).stateOr s).standing.core := by
  unfold execSetStation
  rw [Out.stateOr_next]
  obtain h | ⟨ad, on, hl, h⟩ := (s.taken (.setStation tag address broadcast)).setStation_standing tag address broadcast
  · exact .of_eq (by rw [h, State.taken_standing])
  · rw [h, State.taken_standing]
    exact .station _ _ _ _ ad on hl

theorem execSetLamps_core (tag mode : Nat) :
    CoreMove (.setLamps tag mode) s.standing.core ((execSetLamps tag mode s).stateOr s).standing.core := by
  unfold execSetLamps
  rw [Out.stateOr_next]
  obtain h | ⟨m, h⟩ := (s.taken (.setLamps tag mode)).setLamps_standing tag mode
  · exact .of_eq (by rw [h, State.taken_standing])
  · rw [h, State.taken_standing]
    exact .lamps _ _ _ m

theorem execSetScrub_core (tag period : Nat) :
    CoreMove (.setScrub tag period) s.standing.core ((execSetScrub tag period s).stateOr s).standing.core := by
  unfold execSetScrub
  rw [Out.stateOr_next]
  obtain h | ⟨p, hp, h⟩ := (s.taken (.setScrub tag period)).setScrub_standing tag period
  · exact .of_eq (by rw [h, State.taken_standing])
  · rw [h, State.taken_standing]
    exact .scrub _ _ _ p hp

theorem execSetTime_core (tag : Nat) (t : Time) :
    CoreMove (.setTime tag t) s.standing.core ((execSetTime tag t s).stateOr s).standing.core := by
  unfold execSetTime
  rw [Out.stateOr_next]
  obtain h | h := (s.taken (.setTime tag t)).setTime_core tag t
  · exact .of_eq (by rw [h, State.taken_standing])
  · rw [h, State.taken_standing]
    exact .time ..

theorem execSetChunking_core (tag k : Nat) :
    CoreMove (.setChunking tag k) s.standing.core ((execSetChunking tag k s).stateOr s).standing.core := by
  unfold execSetChunking
  rw [Out.stateOr_next]
  obtain h | ⟨n, hl, hm, h⟩ := (s.taken (.setChunking tag k)).setChunking_standing tag k
  · exact .of_eq (by rw [h, State.taken_standing])
  · rw [h, State.taken_standing]
    exact .chunking _ _ _ n hl hm

theorem execPutGrant_core (tag g : Nat) (albums : Albums) (notAfter : Time) (allowance : Option Nat)
    (limit : Nat) :
    CoreMove (.putGrant tag g albums notAfter allowance limit) s.standing.core
      ((execPutGrant tag g albums notAfter allowance limit s).stateOr s).standing.core := by
  unfold execPutGrant
  rw [Out.stateOr_next]
  obtain h | h := (s.taken (.putGrant tag g albums notAfter allowance limit)).putGrant_standing tag g albums notAfter allowance limit
  · exact .of_eq (by rw [h, State.taken_standing])
  · rw [h, State.taken_standing]
    exact .grant ..

theorem execSetWakePattern_core (tag number enabled offset length : Nat) (bytes : List Byte) (mask : BitVec 16)
    (interval : Nat) :
    CoreMove (.setWakePattern tag number enabled offset length bytes mask interval) s.standing.core
      ((execSetWakePattern tag number enabled offset length bytes mask interval s).stateOr s).standing.core := by
  unfold execSetWakePattern
  rw [Out.stateOr_next]
  obtain h | h := (s.taken (.setWakePattern tag number enabled offset length bytes mask interval)).setWakePattern_standing
    tag number enabled offset length bytes mask interval
  · exact .of_eq (by rw [h, State.taken_standing])
  · rw [h, State.taken_standing]
    exact .pattern ..

theorem execSetServiceFrame_core (tag selector f : Nat) (classes : List Nat) :
    CoreMove (.setServiceFrame tag selector f classes) s.standing.core
      ((execSetServiceFrame tag selector f classes s).stateOr s).standing.core := by
  obtain ⟨fs, cs, h, each, least, most⟩ :=
    (s.taken (.setServiceFrame tag selector f classes)).setServiceFrame_core tag selector f classes
  unfold execSetServiceFrame
  rw [State.taken_standing] at h each
  rw [Out.stateOr_next, h]
  exact .frames _ _ _ _ _ fs cs each least most

end Exceptions

/-- What each command can do to the core. -/
theorem exec_core {c : Instr} {s t : State} (h : exec c s = .next t) : CoreMove c s.standing.core t.standing.core := by
  rw [exec_stateOr h]
  cases c
  case setPowerPolicy => exact execSetPowerPolicy_core s ..
  case setStation => exact execSetStation_core s ..
  case setLamps => exact execSetLamps_core s ..
  case setScrub => exact execSetScrub_core s ..
  case scrubTimerExpire => exact execScrubTimerExpire_core s
  case timeTick => exact execTimeTick_core s
  case setTime => exact execSetTime_core s ..
  case setChunking => exact execSetChunking_core s ..
  case checkpointEnd => exact execCheckpointEnd_core s
  case setServiceFrame => exact execSetServiceFrame_core s ..
  case dispatch => exact execDispatch_core s _
  case putGrant => exact execPutGrant_core s ..
  case chunkIssue => exact execChunkIssue_core s _
  case setWakePattern => exact execSetWakePattern_core s ..
  case lanFrame => exact execLanFrame_core s _
  case memoryBurst => exact execMemoryBurst_core s _
  case selfRefreshEntered => exact execSelfRefreshEntered_core s
  case selfRefreshExited => exact execSelfRefreshExited_core s
  case refreshTimerExpire => exact execRefreshTimerExpire_core s _
  case formDrivesReady => exact execFormDrivesReady_core s
  case slotBodyRead => exact execSlotBodyRead_core s
  case powerOnReset => exact .powerOn _
  case warmReset => exact .warm _
  all_goals exact .of_eq (by simp [exec])

section Rest

variable (s : State)

@[simp] theorem execSetStation_rest (tag : Nat) (address : List Byte) (broadcast : Nat) :
    ((execSetStation tag address broadcast s).stateOr s).standing.limit = s.standing.limit ∧
    ((execSetStation tag address broadcast s).stateOr s).standing.entries = s.standing.entries ∧
    ((execSetStation tag address broadcast s).stateOr s).standing.mem = s.standing.mem := by
  unfold execSetStation
  rw [Out.stateOr_next]
  obtain h | ⟨_, _, _, h⟩ := (s.taken (.setStation tag address broadcast)).setStation_standing tag address broadcast <;>
    (rw [h, State.taken_standing]; exact ⟨rfl, rfl, rfl⟩)

@[simp] theorem execSetLamps_rest (tag mode : Nat) :
    ((execSetLamps tag mode s).stateOr s).standing.limit = s.standing.limit ∧
    ((execSetLamps tag mode s).stateOr s).standing.entries = s.standing.entries ∧
    ((execSetLamps tag mode s).stateOr s).standing.mem = s.standing.mem := by
  unfold execSetLamps
  rw [Out.stateOr_next]
  obtain h | ⟨_, h⟩ := (s.taken (.setLamps tag mode)).setLamps_standing tag mode <;>
    (rw [h, State.taken_standing]; exact ⟨rfl, rfl, rfl⟩)

@[simp] theorem execSetScrub_rest (tag period : Nat) :
    ((execSetScrub tag period s).stateOr s).standing.limit = s.standing.limit ∧
    ((execSetScrub tag period s).stateOr s).standing.entries = s.standing.entries ∧
    ((execSetScrub tag period s).stateOr s).standing.mem = s.standing.mem := by
  unfold execSetScrub
  rw [Out.stateOr_next]
  obtain h | ⟨_, _, h⟩ := (s.taken (.setScrub tag period)).setScrub_standing tag period <;>
    (rw [h, State.taken_standing]; exact ⟨rfl, rfl, rfl⟩)

@[simp] theorem execSetChunking_rest (tag k : Nat) :
    ((execSetChunking tag k s).stateOr s).standing.limit = s.standing.limit ∧
    ((execSetChunking tag k s).stateOr s).standing.entries = s.standing.entries ∧
    ((execSetChunking tag k s).stateOr s).standing.mem = s.standing.mem := by
  unfold execSetChunking
  rw [Out.stateOr_next]
  obtain h | ⟨_, _, _, h⟩ := (s.taken (.setChunking tag k)).setChunking_standing tag k <;>
    (rw [h, State.taken_standing]; exact ⟨rfl, rfl, rfl⟩)

@[simp] theorem execPutGrant_rest (tag g : Nat) (albums : Albums) (notAfter : Time) (allowance : Option Nat)
    (limit : Nat) :
    ((execPutGrant tag g albums notAfter allowance limit s).stateOr s).standing.limit = s.standing.limit ∧
    ((execPutGrant tag g albums notAfter allowance limit s).stateOr s).standing.entries = s.standing.entries ∧
    ((execPutGrant tag g albums notAfter allowance limit s).stateOr s).standing.mem = s.standing.mem := by
  unfold execPutGrant
  rw [Out.stateOr_next]
  obtain h | h := (s.taken (.putGrant tag g albums notAfter allowance limit)).putGrant_standing tag g albums notAfter allowance limit <;>
    (rw [h, State.taken_standing]; exact ⟨rfl, rfl, rfl⟩)

@[simp] theorem execSetWakePattern_rest (tag number enabled offset length : Nat) (bytes : List Byte) (mask : BitVec 16)
    (interval : Nat) :
    ((execSetWakePattern tag number enabled offset length bytes mask interval s).stateOr s).standing.limit = s.standing.limit ∧
    ((execSetWakePattern tag number enabled offset length bytes mask interval s).stateOr s).standing.entries = s.standing.entries ∧
    ((execSetWakePattern tag number enabled offset length bytes mask interval s).stateOr s).standing.mem = s.standing.mem := by
  unfold execSetWakePattern
  rw [Out.stateOr_next]
  obtain h | h := (s.taken (.setWakePattern tag number enabled offset length bytes mask interval)).setWakePattern_standing
    tag number enabled offset length bytes mask interval <;>
    (rw [h, State.taken_standing]; exact ⟨rfl, rfl, rfl⟩)

@[simp] theorem execSetServiceFrame_rest (tag selector f : Nat) (classes : List Nat) :
    ((execSetServiceFrame tag selector f classes s).stateOr s).standing.limit = s.standing.limit ∧
    ((execSetServiceFrame tag selector f classes s).stateOr s).standing.entries = s.standing.entries ∧
    ((execSetServiceFrame tag selector f classes s).stateOr s).standing.mem = s.standing.mem := by
  obtain ⟨fs, cs, h, -⟩ :=
    (s.taken (.setServiceFrame tag selector f classes)).setServiceFrame_core tag selector f classes
  unfold execSetServiceFrame
  rw [Out.stateOr_next, h, State.taken_standing]
  exact ⟨rfl, rfl, rfl⟩

@[simp] theorem execSetPowerPolicy_rest (tag i0 i1 i2 i3 limit grace : Nat) :
    ((execSetPowerPolicy tag i0 i1 i2 i3 limit grace s).stateOr s).standing.entries = s.standing.entries ∧
    ((execSetPowerPolicy tag i0 i1 i2 i3 limit grace s).stateOr s).standing.mem = s.standing.mem := by
  simp [execSetPowerPolicy]

@[simp] theorem execSetTime_rest (tag : Nat) (t : Time) :
    ((execSetTime tag t s).stateOr s).standing.limit = s.standing.limit ∧
    ((execSetTime tag t s).stateOr s).standing.entries = s.standing.entries := by
  simp [execSetTime]

@[simp] theorem execDispatch_rest (p : Nat) :
    ((execDispatch p s).stateOr s).standing.limit = s.standing.limit ∧
    ((execDispatch p s).stateOr s).standing.entries = s.standing.entries ∧
    ((execDispatch p s).stateOr s).standing.mem = s.standing.mem := by
  unfold execDispatch
  rw [Out.stateOr_next]
  split <;> simp

@[simp] theorem execChunkIssue_rest (i : Nat) :
    ((execChunkIssue i s).stateOr s).standing.limit = s.standing.limit ∧
    ((execChunkIssue i s).stateOr s).standing.entries = s.standing.entries ∧
    ((execChunkIssue i s).stateOr s).standing.mem = s.standing.mem := by
  unfold execChunkIssue
  rw [Out.stateOr_next]
  dsimp only
  split
  · rename_i g h _ _ _
    have hs : (if g = ownerAccess then s else s.compareGrant g).standing = s.standing := by simp
    generalize (if g = ownerAccess then s else s.compareGrant g) = u at hs ⊢
    rw [← hs]
    split
    · obtain h | ⟨_, _, _, _, h⟩ := u.issueAt_standing i g h <;> (rw [h]; exact ⟨rfl, rfl, rfl⟩)
    · exact ⟨rfl, rfl, rfl⟩
  · simp
  · exact ⟨rfl, rfl, rfl⟩

@[simp] theorem execScrubTimerExpire_rest :
    ((execScrubTimerExpire s).stateOr s).standing.limit = s.standing.limit ∧
    ((execScrubTimerExpire s).stateOr s).standing.entries = s.standing.entries ∧
    ((execScrubTimerExpire s).stateOr s).standing.mem = s.standing.mem := by
  have hload : (s.onIgu fun g => { g with timer := g.period }).standing.limit = s.standing.limit ∧
    (s.onIgu fun g => { g with timer := g.period }).standing.entries = s.standing.entries ∧
    (s.onIgu fun g => { g with timer := g.period }).standing.mem = s.standing.mem := ⟨rfl, rfl, rfl⟩
  unfold execScrubTimerExpire
  rw [Out.stateOr_next]
  dsimp only
  split
  · split
    · simp [hload]
    · simp [hload]
  · simp

@[simp] theorem execTimeTick_rest :
    ((execTimeTick s).stateOr s).standing.limit = s.standing.limit ∧
    ((execTimeTick s).stateOr s).standing.entries = s.standing.entries := by
  obtain ⟨n, -, h⟩ := ((s.onPwc fun w => { w with time := w.time + 1 }).compareGrants).compareAlarm.scrubCountdown_standing
  unfold execTimeTick
  rw [Out.stateOr_next, h]
  simp

@[simp] theorem execLanFrame_rest (bs : List Byte) :
    ((execLanFrame bs s).stateOr s).standing.limit = s.standing.limit ∧
    ((execLanFrame bs s).stateOr s).standing.entries = s.standing.entries := by
  unfold execLanFrame
  rw [Out.stateOr_next]
  dsimp only
  split
  · split
    · have h : (s.onPwc fun _ => (s.pwc.tryPatterns (bs.take (bs.length - 4)) (List.range 8)).1).standing.limit =
          s.standing.limit := (s.pwc.tryPatterns_settings _ _).2.2
      split
      · rw [(State.wakeCause_standing _ _).2.1, (State.wakeCause_standing _ _).2.2]; exact ⟨h, rfl⟩
      · exact ⟨h, rfl⟩
    · simp
  · simp

@[simp] theorem execMemoryBurst_rest (b : Option Burst) :
    ((execMemoryBurst b s).stateOr s).standing.limit = s.standing.limit ∧
    ((execMemoryBurst b s).stateOr s).standing.entries = s.standing.entries := by
  obtain h | ⟨t, x, hs, h⟩ := execMemoryBurst_cases b s
  · rw [h]; exact ⟨rfl, rfl⟩
  · rw [h, (t.carryBurst_standing x).1, (t.carryBurst_standing x).2, hs]; exact ⟨rfl, rfl⟩

@[simp] theorem State.onMec_rest (f : Mec → Mec) : (s.onMec f).standing.limit = s.standing.limit ∧
    (s.onMec f).standing.entries = s.standing.entries ∧ (s.onMec f).standing.mem = s.standing.mem := by
  unfold State.onMec; exact ⟨rfl, rfl, rfl⟩

@[simp] theorem execSelfRefreshEntered_rest :
    ((execSelfRefreshEntered s).stateOr s).standing.limit = s.standing.limit ∧
    ((execSelfRefreshEntered s).stateOr s).standing.entries = s.standing.entries ∧
    ((execSelfRefreshEntered s).stateOr s).standing.mem = s.standing.mem := by
  unfold execSelfRefreshEntered
  rw [Out.stateOr_next]
  split
  · dsimp only
    split <;> simp
  · simp

@[simp] theorem execSelfRefreshExited_rest :
    ((execSelfRefreshExited s).stateOr s).standing.limit = s.standing.limit ∧
    ((execSelfRefreshExited s).stateOr s).standing.entries = s.standing.entries ∧
    ((execSelfRefreshExited s).stateOr s).standing.mem = s.standing.mem := by
  unfold execSelfRefreshExited
  rw [Out.stateOr_next]
  dsimp only
  split
  · split <;> simp
  · simp

@[simp] theorem execRefreshTimerExpire_rest (busy : Bool) :
    ((execRefreshTimerExpire busy s).stateOr s).standing.limit = s.standing.limit ∧
    ((execRefreshTimerExpire busy s).stateOr s).standing.entries = s.standing.entries ∧
    ((execRefreshTimerExpire busy s).stateOr s).standing.mem = s.standing.mem := by
  unfold execRefreshTimerExpire
  rw [Out.stateOr_next]
  dsimp only
  repeat' split
  all_goals simp

@[simp] theorem execFormDrivesReady_rest :
    ((execFormDrivesReady s).stateOr s).standing.mem = s.standing.mem := by
  unfold execFormDrivesReady
  rw [Out.stateOr_next]
  repeat' split
  all_goals simp

@[simp] theorem execSlotBodyRead_rest :
    ((execSlotBodyRead s).stateOr s).standing.mem = s.standing.mem := by
  unfold execSlotBodyRead
  rw [Out.stateOr_next]
  dsimp only
  repeat' split
  all_goals simp

@[simp] theorem execCheckpointEnd_rest :
    ((execCheckpointEnd s).stateOr s).standing.entries = s.standing.entries := by
  unfold execCheckpointEnd
  rw [Out.stateOr_next]
  repeat' split
  all_goals simp

end Rest

/-- Outside the commands that `Instr.mayWriteMemory` lists, the memory stays. -/
theorem exec_mem {c : Instr} {s t : State} (h : exec c s = .next t) (hc : c.mayWriteMemory = false) : t.mem = s.mem := by
  suffices t.standing.mem = s.standing.mem from this
  rw [exec_stateOr h]
  cases c
  case warmReset => rfl
  all_goals first | exact absurd hc Bool.noConfusion | simp [exec]

/-- Outside the commands that `Instr.mayChangeIndex` lists and the warm reset, the index entries stay. -/
theorem exec_entries {c : Instr} {s t : State} (h : exec c s = .next t) (hc : c.mayChangeIndex = false) :
    t.tables.entries = s.tables.entries := by
  suffices t.standing.entries = s.standing.entries from this
  rw [exec_stateOr h]
  cases c
  case warmReset => rfl
  all_goals first | exact absurd hc Bool.noConfusion | simp [exec]

/-- Every command keeps the memory's form. -/
theorem exec_wf {c : Instr} {s t : State} (h : exec c s = .next t) (hm : Memory.wf s.mem = true) :
    Memory.wf t.mem = true := by
  by_cases hc : c.mayWriteMemory = false
  · rw [exec_mem h hc]; exact hm
  · suffices Memory.wf t.standing.mem = true from this
    have hm' : Memory.wf s.standing.mem = true := hm
    rw [exec_stateOr h]
    cases c
    case powerOnReset => rfl
    all_goals first | exact absurd rfl hc | simp [exec, hm']

/-- Only SET_POWER_POLICY and the resets change the spin-up limit asked for. -/
theorem CoreMove.limitAsked {c : Instr} {a b : Core} (h : CoreMove c a b) :
    b.power.limitAsked = a.power.limitAsked ∨ (∃ tag i j k m l g, c = .setPowerPolicy tag i j k m l g) ∨
      c = .powerOnReset ∨ c = .warmReset := by
  cases h
  case policy => exact .inr (.inl ⟨_, _, _, _, _, _, _, rfl⟩)
  case powerOn => exact .inr (.inr (.inl rfl))
  case warm => exact .inr (.inr (.inr rfl))
  case arrayUp upped => obtain rfl | ⟨m, -, rfl⟩ := upped <;> exact .inl rfl
  all_goals exact .inl rfl

theorem State.reset_spinLegal : SpinLegal State.reset.pwc.limit State.reset.pwc.limitAsked :=
  ⟨by decide, by decide, by decide, by decide⟩

/-- Every command keeps the spin-up limits in their range. -/
theorem exec_spin {c : Instr} {s t : State} (h : exec c s = .next t)
    (hl : SpinLegal s.standing.limit s.standing.core.power.limitAsked) :
    SpinLegal t.standing.limit t.standing.core.power.limitAsked := by
  obtain hask | ⟨_, _, _, _, _, _, _, rfl⟩ | rfl | rfl := (exec_core h).limitAsked
  · rw [hask, exec_stateOr h]
    cases c
    case powerOnReset => cases h; exact hask ▸ State.reset_spinLegal
    case warmReset => cases h; exact hask ▸ State.reset_spinLegal
    case setPowerPolicy =>
      rw [← hask, exec_stateOr h]
      exact execSetPowerPolicy_spin _ _ _ _ _ _ _ s hl
    all_goals simp [exec, hl]
  · rw [exec_stateOr h]
    exact execSetPowerPolicy_spin _ _ _ _ _ _ _ s hl
  · cases h; exact State.reset_spinLegal
  · cases h; exact State.reset_spinLegal

end Sys2Proof.Machine

namespace Sys2Proof.Machine

/-! ## The statements about every command -/

/-- What the core's moves leave of the queue of waiting commands. -/
theorem CoreMove.pending {c : Instr} {a b : Core} (h : CoreMove c a b) : b.pending = a.pending := by
  cases h
  case arrayUp upped => obtain rfl | ⟨m, -, rfl⟩ := upped <;> rfl
  all_goals rfl

/-- Settles O2: no move of the core touches the queue. -/
theorem queueDiscipline : Obligations.QueueDiscipline := by
  refine ⟨fun s hs => ?_, fun c s t h => (exec_core h).pending⟩
  unfold step
  rw [hs]

/-- A burst is put off, refused or carried, or stops the command at a burst that MEC is ready for. -/
theorem execMemoryBurst_stops (b : Option Burst) (s : State) :
    (∃ t, execMemoryBurst b s = .next t) ∨ (∃ f, execMemoryBurst b s = .fault f) ∧ s.mec.state = .ready := by
  unfold execMemoryBurst
  dsimp only
  split
  · exact .inl ⟨_, rfl⟩
  · rename_i hready
    split
    · exact .inl ⟨_, rfl⟩
    · obtain ⟨x, rest, -, h⟩ | h | ⟨f, h⟩ := State.carryNext_stateOr (s.onMec fun m => { m with bursts := m.bursts ++ b.toList })
      · exact .inl ⟨_, h⟩
      · exact .inl ⟨_, h⟩
      · exact .inr ⟨⟨f, h⟩, hready⟩
  · exact .inl ⟨_, rfl⟩

/-- Every command but a memory burst answers a next state. -/
theorem exec_next_or_burst (c : Instr) (s : State) : (∃ t, exec c s = .next t) ∨ ∃ b, c = .memoryBurst b := by
  cases c
  case memoryBurst b => exact .inr ⟨b, rfl⟩
  all_goals exact .inl ⟨_, rfl⟩

/-- The burst that MEC, ready and with nothing waiting, is asked for is the next one to be carried. -/
theorem exec_memoryBurst_ready {s : State} (b : Burst) (hr : s.mec.state = .ready) (hb : s.mec.bursts = [])
    (ha : s.mec.entryAsked = false) : exec (.memoryBurst (some b)) s =
      if s.mec.size.getD 0 < b.addr + b.len then .fault .noSuchAddress
      else if b.admitted s.mec.map then .next ((s.onMec fun m => { m with bursts := [] }).carryBurst b)
      else .fault .notABurst := by
  change execMemoryBurst (some b) s = _
  unfold execMemoryBurst
  simp only [hr, ha]
  unfold State.carryNext
  simp [State.onMec, hb]

/-- Settles O3: every other command answers a next state, and a burst stops the command only where MEC is ready. -/
theorem onlyBurstsStop : Obligations.OnlyBurstsStop := by
  refine ⟨fun c s r h => ?_, fun c s f h => ?_, fun s b hr hb hs ha => ?_, fun s b hr hb hs ha hadm => ?_⟩
  · obtain ⟨t, ht⟩ | ⟨b, rfl⟩ := exec_next_or_burst c s
    · rw [ht] at h; cases h
    · have h : execMemoryBurst b s = .refused r := h
      obtain ⟨t, ht⟩ | ⟨⟨f, hf⟩, -⟩ := execMemoryBurst_stops b s
      · rw [ht] at h; cases h
      · rw [hf] at h; cases h
  · obtain ⟨t, ht⟩ | ⟨b, rfl⟩ := exec_next_or_burst c s
    · rw [ht] at h; cases h
    · have h : execMemoryBurst b s = .fault f := h
      obtain ⟨t, ht⟩ | ⟨-, hready⟩ := execMemoryBurst_stops b s
      · rw [ht] at h; cases h
      · exact ⟨⟨b, rfl⟩, hready⟩
  · rw [exec_memoryBurst_ready b hr hb ha, if_pos hs]
  · rw [exec_memoryBurst_ready b hr hb ha, if_neg (by omega), hadm]; rfl

/-- Settles O4: a step runs one command on the state with the queue's rest, and every command keeps the form. -/
theorem stepKeepsMemoryForm : Obligations.StepKeepsMemoryForm := by
  intro s t hm h
  unfold step at h
  split at h
  · cases h; exact hm
  · exact exec_wf h hm

/-- Settles O7. -/
theorem memoryBytesStay : Obligations.MemoryBytesStay := by
  intro c s t h hc
  have hmem := exec_mem h hc
  exact ⟨hmem, fun a => by rw [hmem]⟩

/-- The settings of the core lie in the ranges that their rules clamp them to. -/
structure Core.Legal (k : Core) : Prop where
  order : 10 ≤ k.order ∧ k.order ≤ 14
  frame : ∀ p : Fin 4, 4 ≤ k.frames[p].1.length ∧ k.frames[p].1.length ≤ 32 ∧ k.frames[p].2 < k.frames[p].1.length
  streamLimit : ∀ g : Fin 64, 1 ≤ k.terms[g].limit ∧ k.terms[g].limit ≤ 4
  period : k.period ≤ 65535 ∧ k.timer ≤ k.period
  idleTime : ∀ p : Fin 4, k.power.idleTimes[p] ≤ 255
  grace : 1 ≤ k.power.grace ∧ k.power.grace ≤ 255
  station : k.power.station.length = 6
  pattern : ∀ n : Fin 8, k.patterns[n].offset ≤ 127 ∧ k.patterns[n].length ≤ 16 ∧ k.patterns[n].bytes.length = 16 ∧
    k.patterns[n].interval ≤ 255
  owed : k.owed ≤ 8

/-- The settings are legal when the core's and the spin-up limits are. -/
theorem settingsLegal_iff (s : State) :
    SettingsLegal s ↔ s.core.Legal ∧ SpinLegal s.standing.limit s.standing.core.power.limitAsked := by
  have hframes (p : Fin 4) : s.core.frames[p] = (s.chans[p].frame, s.chans[p].position) := by simp [State.core]
  have hterms (g : Fin 64) : s.core.terms[g] = s.rds.grants[g].terms := by simp [State.core]
  constructor
  · rintro ⟨order, frame, position, streamLimit, period, idleTime, grace, spinLimit, station, pattern, owed⟩
    refine ⟨⟨order, fun p => ?_, fun g => ?_, period, idleTime, grace, station, pattern, owed⟩, spinLimit⟩
    · rw [hframes]; exact ⟨(frame p).1, (frame p).2, position p⟩
    · rw [hterms]; exact streamLimit g
  · rintro ⟨⟨order, frame, streamLimit, period, idleTime, grace, station, pattern, owed⟩, spinLimit⟩
    refine ⟨order, fun p => ?_, fun p => ?_, fun g => ?_, period, idleTime, grace, spinLimit, station, pattern, owed⟩
    · have h := frame p; rw [hframes] at h; exact ⟨h.1, h.2.1⟩
    · have h := frame p; rw [hframes] at h; exact h.2.2
    · have h := streamLimit g; rw [hterms] at h; exact h

theorem WakePattern.put_legal (e off len : Nat) (bs : List Byte) (mask : BitVec 16) (iv : Nat) :
    (WakePattern.put e off len bs mask iv).offset ≤ 127 ∧ (WakePattern.put e off len bs mask iv).length ≤ 16 ∧
    (WakePattern.put e off len bs mask iv).bytes.length = 16 ∧ (WakePattern.put e off len bs mask iv).interval ≤ 255 := by
  simp only [WakePattern.put, clamp, padTo, List.length_append, List.length_take, List.length_replicate]
  omega

theorem Core.reset_legal : State.reset.core.Legal := ((settingsLegal_iff _).1 resetHoldsInvariants.2).1

/-- Each move keeps the core's settings in their ranges. -/
theorem CoreMove.legal {c : Instr} {a b : Core} (h : CoreMove c a b) (ha : a.Legal) : b.Legal := by
  obtain ⟨order, frame, streamLimit, period, idleTime, grace, station, pattern, owed⟩ := ha
  cases h
  case stays => exact ⟨order, frame, streamLimit, period, idleTime, grace, station, pattern, owed⟩
  case policy i j l m lim g =>
    refine ⟨order, frame, streamLimit, period, fun p => ?_, by simp only [clamp]; omega, station, pattern, owed⟩
    match p with
    | 0 => exact Nat.min_le_left 255 i
    | 1 => exact Nat.min_le_left 255 j
    | 2 => exact Nat.min_le_left 255 l
    | 3 => exact Nat.min_le_left 255 m
  case station ad on length => exact ⟨order, frame, streamLimit, period, idleTime, grace, length, pattern, owed⟩
  case lamps => exact ⟨order, frame, streamLimit, period, idleTime, grace, station, pattern, owed⟩
  case scrub p most => exact ⟨order, frame, streamLimit, ⟨most, Nat.le_refl _⟩, idleTime, grace, station, pattern, owed⟩
  case reload => exact ⟨order, frame, streamLimit, ⟨period.1, Nat.le_refl _⟩, idleTime, grace, station, pattern, owed⟩
  case tick n falls =>
    exact ⟨order, frame, streamLimit, ⟨period.1, Nat.le_trans falls period.2⟩, idleTime, grace, station, pattern, owed⟩
  case time => exact ⟨order, frame, streamLimit, period, idleTime, grace, station, pattern, owed⟩
  case chunking o least most =>
    exact ⟨⟨least, most⟩, frame, streamLimit, period, idleTime, grace, station, pattern, owed⟩
  case arrayUp upped =>
    obtain rfl | ⟨m, hm, rfl⟩ := upped
    · exact ⟨order, frame, streamLimit, period, idleTime, grace, station, pattern, owed⟩
    · refine ⟨?_, frame, streamLimit, ⟨period.1, Nat.le_refl _⟩, idleTime, grace, station, pattern, owed⟩
      dsimp only
      omega
  case frames fs cs least most each =>
    refine ⟨order, fun p => ?_, streamLimit, period, idleTime, grace, station, pattern, owed⟩
    obtain h | h := each p
    · dsimp only; rw [h]; exact frame p
    · dsimp only; rw [h]; exact ⟨least, most, Nat.lt_of_lt_of_le (Nat.succ_pos 3) least⟩
  case dispatch p n f m here =>
    refine ⟨order, fun q => ?_, streamLimit, period, idleTime, grace, station, pattern, owed⟩
    simp only [Fin.getElem_fin, Vector.getElem_setIfInBounds]
    split
    · rename_i hp
      have h := frame q
      have hq : a.frames[q] = (f, m) := by subst hp; simpa using here
      rw [hq] at h
      exact ⟨h.1, h.2.1, Nat.mod_lt _ (Nat.lt_of_lt_of_le (by decide) h.1)⟩
    · exact frame q
  case grant g al na al' l =>
    refine ⟨order, frame, fun q => ?_, period, idleTime, grace, station, pattern, owed⟩
    simp only [Fin.getElem_fin, Vector.getElem_setIfInBounds]
    split
    · simp only [Grant.put, clamp]; omega
    · exact streamLimit q
  case charge g left n t limited falls here =>
    refine ⟨order, frame, fun q => ?_, period, idleTime, grace, station, pattern, owed⟩
    simp only [Fin.getElem_fin, Vector.getElem_setIfInBounds]
    split
    · rename_i hg
      have h := streamLimit q
      have hq : a.terms[q] = t := by subst hg; simpa using here
      rwa [hq] at h
    · exact streamLimit q
  case pattern n e off len bs mask iv =>
    refine ⟨order, frame, streamLimit, period, idleTime, grace, station, fun q => ?_, owed⟩
    simp only [Fin.getElem_fin, Vector.getElem_setIfInBounds]
    split
    · exact WakePattern.put_legal ..
    · exact pattern q
  case woken n v p here =>
    refine ⟨order, frame, streamLimit, period, idleTime, grace, station, fun q => ?_, owed⟩
    simp only [Fin.getElem_fin, Vector.getElem_setIfInBounds]
    split
    · rename_i hn
      have h := pattern q
      have hq : a.patterns[q] = p := by subst hn; simpa using here
      rwa [hq] at h
    · exact pattern q
  case issued n most => exact ⟨order, frame, streamLimit, period, idleTime, grace, station, pattern, most⟩
  case identity => exact ⟨order, frame, streamLimit, period, idleTime, grace, station, pattern, owed⟩
  case powerOn =>
    obtain ⟨order, frame, streamLimit, period, idleTime, grace, station, pattern, owed⟩ := Core.reset_legal
    exact ⟨order, frame, streamLimit, period, idleTime, grace, station, pattern, owed⟩
  case warm =>
    obtain ⟨order, frame, streamLimit, period, idleTime, grace, station, pattern, owed⟩ := Core.reset_legal
    exact ⟨order, frame, streamLimit, period, idleTime, grace, station, pattern, owed⟩

/-- Settles O5: every move of the core and every change of the spin-up limit keeps the ranges. -/
theorem stepKeepsSettings : Obligations.StepKeepsSettings := by
  intro s t hs h
  unfold step at h
  split at h
  · cases h; exact hs
  · rename_i c rest _
    have hs' : SettingsLegal { s with pending := rest } :=
      ⟨hs.order, hs.frame, hs.position, hs.streamLimit, hs.period, hs.idleTime, hs.grace, hs.spinLimit, hs.station,
        hs.pattern, hs.owed⟩
    rw [settingsLegal_iff] at hs' ⊢
    exact ⟨(exec_core h).legal hs'.1, exec_spin h hs'.2⟩

/-- A setting of PWC's moves by its own request or a reset alone. -/
theorem CoreMove.power {c : Instr} {a b : Core} (h : CoreMove c a b) (hp : c ≠ .powerOnReset) (hw : c ≠ .warmReset) :
    ((∀ tag i j k m l g, c ≠ .setPowerPolicy tag i j k m l g) →
      b.power.idleTimes = a.power.idleTimes ∧ b.power.grace = a.power.grace ∧ b.power.limitAsked = a.power.limitAsked) ∧
    ((∀ tag ad b, c ≠ .setStation tag ad b) → b.power.station = a.power.station ∧ b.power.broadcast = a.power.broadcast) ∧
    ((∀ tag m, c ≠ .setLamps tag m) → b.power.lampMode = a.power.lampMode) := by
  cases h
  case policy => exact ⟨fun h => (h _ _ _ _ _ _ _ rfl).elim, fun _ => ⟨rfl, rfl⟩, fun _ => rfl⟩
  case station => exact ⟨fun _ => ⟨rfl, rfl, rfl⟩, fun h => (h _ _ _ rfl).elim, fun _ => rfl⟩
  case lamps => exact ⟨fun _ => ⟨rfl, rfl, rfl⟩, fun _ => ⟨rfl, rfl⟩, fun h => (h _ _ rfl).elim⟩
  case arrayUp upped =>
    obtain rfl | ⟨m, -, rfl⟩ := upped <;> exact ⟨fun _ => ⟨rfl, rfl, rfl⟩, fun _ => ⟨rfl, rfl⟩, fun _ => rfl⟩
  case powerOn => exact absurd rfl hp
  case warm => exact absurd rfl hw
  all_goals exact ⟨fun _ => ⟨rfl, rfl, rfl⟩, fun _ => ⟨rfl, rfl⟩, fun _ => rfl⟩

theorem CoreMove.period {c : Instr} {a b : Core} (h : CoreMove c a b) (hp : c ≠ .powerOnReset) (hw : c ≠ .warmReset)
    (hc : ∀ tag p, c ≠ .setScrub tag p) : b.period = a.period := by
  cases h
  case scrub => exact (hc _ _ rfl).elim
  case arrayUp upped => obtain rfl | ⟨m, -, rfl⟩ := upped <;> rfl
  case powerOn => exact absurd rfl hp
  case warm => exact absurd rfl hw
  all_goals rfl

theorem CoreMove.order {c : Instr} {a b : Core} (h : CoreMove c a b) (hp : c ≠ .powerOnReset) (hw : c ≠ .warmReset)
    (hc : ∀ tag k, c ≠ .setChunking tag k) (he : c ≠ .checkpointEnd) : b.order = a.order := by
  cases h
  case chunking => exact (hc _ _ rfl).elim
  case arrayUp => exact absurd rfl he
  case powerOn => exact absurd rfl hp
  case warm => exact absurd rfl hw
  all_goals rfl

theorem CoreMove.frame {c : Instr} {a b : Core} (h : CoreMove c a b) (hp : c ≠ .powerOnReset) (hw : c ≠ .warmReset)
    (hc : ∀ tag sel f cl, c ≠ .setServiceFrame tag sel f cl) (p : Fin 4) : b.frames[p].1 = a.frames[p].1 := by
  cases h
  case frames => exact (hc _ _ _ _ rfl).elim
  case dispatch q n f m here =>
    simp only [Fin.getElem_fin, Vector.getElem_setIfInBounds]
    split
    · rename_i hq; subst hq; simp_all
    · rfl
  case arrayUp upped => obtain rfl | ⟨m, -, rfl⟩ := upped <;> rfl
  case powerOn => exact absurd rfl hp
  case warm => exact absurd rfl hw
  all_goals rfl

theorem CoreMove.patterns {c : Instr} {a b : Core} (h : CoreMove c a b) (hp : c ≠ .powerOnReset) (hw : c ≠ .warmReset)
    (hc : ∀ tag n e o l bs m iv, c ≠ .setWakePattern tag n e o l bs m iv) (hl : ∀ bs, c ≠ .lanFrame bs) :
    b.patterns = a.patterns := by
  cases h
  case pattern => exact (hc _ _ _ _ _ _ _ _ rfl).elim
  case woken => exact absurd rfl (hl _)
  case arrayUp upped => obtain rfl | ⟨m, -, rfl⟩ := upped <;> rfl
  case powerOn => exact absurd rfl hp
  case warm => exact absurd rfl hw
  all_goals rfl

theorem State.chan_frame_eq {s t : State} (h : ∀ p : Fin 4, t.core.frames[p].1 = s.core.frames[p].1) (p : Nat) :
    (t.chan p).frame = (s.chan p).frame := by
  by_cases hp : p < 4
  · have h := h ⟨p, hp⟩
    simp only [State.core, Fin.getElem_fin, Vector.getElem_map, Channel.framing] at h
    simp [State.chan, hp, h]
  · simp [State.chan, hp]

/-- Settles O8: each setting by what the moves of the core leave of it. -/
theorem settingsStand : Obligations.SettingsStand := by
  intro c s t h hp hw
  have hmove := exec_core h
  obtain ⟨hpolicy, hstation, hlamps⟩ := hmove.power hp hw
  exact ⟨hpolicy, hstation, hlamps, hmove.period hp hw, hmove.order hp hw,
    fun hc => State.chan_frame_eq (hmove.frame hp hw hc), hmove.patterns hp hw⟩

theorem CoreMove.identity_of {c : Instr} {a b : Core} (h : CoreMove c a b) (hp : c ≠ .powerOnReset)
    (hf : c ≠ .formDrivesReady) (hs : c ≠ .slotBodyRead) : b.identity = a.identity := by
  cases h
  case identity remakes => exact (remakes.elim hf hs).elim
  case arrayUp upped => obtain rfl | ⟨m, -, rfl⟩ := upped <;> rfl
  case powerOn => exact absurd rfl hp
  all_goals rfl

/-- What a command other than its PUT_GRANT and the resets does to a grant's terms: its allowance may fall. -/
theorem CoreMove.terms {c : Instr} {a b : Core} (h : CoreMove c a b) (g : Nat) (hp : c ≠ .powerOnReset)
    (hw : c ≠ .warmReset) (hc : ∀ tag al na x l, c ≠ .putGrant tag g al na x l) : b.terms[g]? = a.terms[g]? ∨
    ∃ t left n, a.terms[g]? = some t ∧ t.remaining = some left ∧ n ≤ left ∧
      b.terms[g]? = some { t with remaining := some n } := by
  cases h
  case grant tag q al na x l =>
    left
    rw [Vector.getElem?_setIfInBounds, if_neg fun hq => hc tag al na x l (by rw [hq])]
  case charge i q left n t limited falls here =>
    by_cases hq : q = g
    · subst hq
      obtain ⟨hlt, -⟩ := Vector.getElem?_eq_some_iff.1 here
      exact .inr ⟨t, left, n, here, limited, falls, by simp [hlt]⟩
    · left
      simp [hq]
  case arrayUp upped => obtain rfl | ⟨m, -, rfl⟩ := upped <;> exact .inl rfl
  case powerOn => exact absurd rfl hp
  case warm => exact absurd rfl hw
  all_goals exact .inl rfl

theorem State.terms_eq (s : State) (g : Nat) : s.standing.core.terms[g]? = s.rds.grants[g]?.map Grant.terms := by
  simp [State.standing, State.core]

/-- The terms of a grant are those that the core holds, a number above 63 naming a grant that never changes. -/
theorem State.grant_terms (s : State) (g : Nat) :
    (s.grant g).terms = (s.standing.core.terms[g]?).getD Grant.freeRecord.terms := by
  rw [State.terms_eq, State.grant]
  cases s.rds.grants[g]? <;> rfl

/-- What a command other than its PUT_GRANT and the resets does to a grant: its allowance may fall. -/
theorem exec_grant_terms {c : Instr} {s t : State} {g : Nat} (h : exec c s = .next t) (hp : c ≠ .powerOnReset)
    (hw : c ≠ .warmReset) (hc : ∀ tag al na a l, c ≠ .putGrant tag g al na a l) :
    (t.grant g).terms = (s.grant g).terms ∨ ∃ left n, (s.grant g).remaining = some left ∧ n ≤ left ∧
      (t.grant g).terms = { Grant.terms (s.grant g) with remaining := some n } := by
  rw [t.grant_terms]
  obtain h | ⟨x, left, n, hx, hl, hn, h⟩ := (exec_core h).terms g hp hw hc
  · exact .inl (by rw [h, s.grant_terms])
  · have hs : (s.grant g).terms = x := by rw [s.grant_terms, hx]; rfl
    subst hs
    exact .inr ⟨left, n, hl, hn, by rw [h]; rfl⟩

/-- Settles O10: the terms stand, but that a charge makes a limited allowance fall. -/
theorem grantsNeverWiden : Obligations.GrantsNeverWiden := by
  refine ⟨fun c s t g h hp hw hc => ?_, fun c s t g h hp hw hc => ?_⟩
  · obtain h | ⟨left, n, -, -, h⟩ := exec_grant_terms h hp hw hc <;>
      exact ⟨congrArg GrantTerms.albums h, congrArg GrantTerms.notAfter h, congrArg GrantTerms.limit h,
        congrArg GrantTerms.installed h⟩
  · obtain h | ⟨left, n, hl, hn, h⟩ := exec_grant_terms h hp hw hc
    · have hr : (t.grant g).remaining = (s.grant g).remaining := congrArg GrantTerms.remaining h
      rw [hr]
      cases (s.grant g).remaining with
      | none => rfl
      | some n => exact ⟨n, rfl, Nat.le_refl n⟩
    · rw [hl]
      exact ⟨n, congrArg GrantTerms.remaining h, hn⟩

theorem CoreMove.time_of {c : Instr} {a b : Core} (h : CoreMove c a b) (ht : c ≠ .timeTick) (hp : c ≠ .powerOnReset)
    (hc : ∀ tag v, c ≠ .setTime tag v) : b.time = a.time := by
  cases h
  case tick => exact absurd rfl ht
  case time => exact (hc _ _ rfl).elim
  case arrayUp upped => obtain rfl | ⟨m, -, rfl⟩ := upped <;> rfl
  case powerOn => exact absurd rfl hp
  all_goals rfl

theorem State.each_of_eq {s : State} {ns : List Nat} {f : State → Nat → State} (h : ∀ n ∈ ns, f s n = s) :
    s.each ns f = s := by
  unfold State.each
  induction ns with
  | nil => rfl
  | cons n ns ih => rw [List.foldl_cons, h n (by simp), ih fun m hm => h m (by simp [hm])]

/-- With no grant ACTIVE the comparison of the grants' times changes nothing (R120). -/
theorem State.compareGrants_of_none_active {s : State} (h : ∀ g < 64, (s.grant g).state ≠ .active) :
    s.compareGrants = s := by
  unfold State.compareGrants
  refine State.each_of_eq fun g hg => ?_
  unfold State.compareGrant
  rw [if_neg fun hc => h g (by simpa using hg) hc.1]

/-- With the alarm off the comparison of its time changes nothing (R167). -/
theorem State.compareAlarm_of_off {s : State} (h : s.pwc.alarm = none) : s.compareAlarm = s := by
  unfold State.compareAlarm
  rw [h]

theorem State.time_eq (s : State) : s.pwc.time = s.standing.core.time := rfl

theorem exec_timeTick (s : State) : exec .timeTick s = execTimeTick s := rfl

/-- Settles O11. -/
theorem timeCounts : Obligations.TimeCounts := by
  refine ⟨fun c s t h ht hp hc => (exec_core h).time_of ht hp hc, fun s => ?_, fun s tag v hs ha hg => ?_,
    fun s tag v hs hv => ?_, fun s tag v hs => ?_⟩
  · obtain ⟨n, -, h⟩ := execTimeTick_core_eq s
    obtain ⟨t, ht⟩ : ∃ t, exec .timeTick s = .next t := ⟨_, rfl⟩
    have hstate : t = (execTimeTick s).stateOr s := by rw [← exec_timeTick]; exact exec_stateOr ht
    have htime : t.standing.core.time = s.standing.core.time + 1 := by rw [hstate, h]
    exact ⟨t, ht, htime⟩
  · change Host.Outcome.next ((s.taken _).setTime tag v) = _
    unfold State.setTime
    rw [if_neg (by exact hs)]
    rw [State.compareGrants_of_none_active (by exact hg), State.compareAlarm_of_off (by exact ha)]
    exact congrArg Host.Outcome.next (State.answer_of_handedOver rfl ..)
  · change Host.Outcome.next ((s.taken _).setAlarm tag 0 v) = _
    unfold State.setAlarm
    rw [if_neg (by exact hs), if_neg (by decide), if_neg (show ¬ v ≤ (s.taken _).pwc.time from BitVec.not_le.2 hv)]
    exact congrArg Host.Outcome.next (State.answer_of_handedOver rfl ..)
  · change Host.Outcome.next ((s.taken _).setAlarm tag 1 v) = _
    unfold State.setAlarm
    rw [if_neg (by exact hs), if_pos (by decide)]
    exact congrArg Host.Outcome.next (State.answer_of_handedOver rfl ..)

end Sys2Proof.Machine

/-! # Proofs: commands that leave the tables -/

namespace Sys2Proof.Machine

@[simp] theorem State.tables_ite (c : Prop) [Decidable c] (s t : State) :
    (if c then s else t).tables = if c then s.tables else t.tables := apply_ite State.tables c s t

@[simp] theorem State.foldl_tables {α : Type} {s : State} {as : List α} {f : State → α → State}
    (h : ∀ s a, (f s a).tables = s.tables) : (as.foldl f s).tables = s.tables := State.foldl_keeps State.tables h

@[simp] theorem State.each_tables {s : State} {ns : List Nat} {f : State → Nat → State}
    (h : ∀ s n, (f s n).tables = s.tables) : (s.each ns f).tables = s.tables := State.foldl_keeps State.tables h

@[simp] theorem State.noticeLink_tables (s : State) : s.noticeLink.tables = s.tables := by
  unfold State.noticeLink
  rfl

@[simp] theorem State.answer_tables (s : State) (tag kind : Nat) (status : Status) (fields : List Field) :
    (s.answer tag kind status fields).tables = s.tables := by
  unfold State.answer
  simp

@[simp] theorem State.refuse_tables (s : State) (tag kind : Nat) (status : Status) :
    (s.refuse tag kind status).tables = s.tables := by
  unfold State.refuse
  simp

@[simp] theorem State.reportTaken_tables (s : State) (r : Region) : (s.reportTaken r).tables = s.tables := by
  unfold State.reportTaken
  rfl

@[simp] theorem State.idleUpdate_tables (s : State) (p : Nat) : (s.idleUpdate p).tables = s.tables := by
  unfold State.idleUpdate
  simp

@[simp] theorem State.giveBack_tables (s : State) (p : Nat) (o : Op) (r : OpResult) :
    (s.giveBack p o r).tables = s.tables := by
  unfold State.giveBack
  simp

@[simp] theorem State.enqueue_tables (s : State) (p : Nat) (o : Op) : (s.enqueue p o).tables = s.tables := by
  unfold State.enqueue
  simp

@[simp] theorem State.arrive_tables (s : State) (p : Nat) (o : Op) : (s.arrive p o).tables = s.tables := by
  unfold State.arrive
  repeat' split
  all_goals simp

@[simp] theorem State.submit_tables (s : State) (p : Nat) (o : Op) : (s.submit p o).tables = s.tables := by
  unfold State.submit
  dsimp only
  repeat' split
  all_goals simp

@[simp] theorem State.submitAll_tables (s : State) (os : List (Nat × Op)) : (s.submitAll os).tables = s.tables := by
  unfold State.submitAll
  simp

@[simp] theorem State.joinWaiters_tables (p : Nat) (k : Cls) (fuel : Nat) (s : State) :
    (State.joinWaiters p k fuel s).tables = s.tables := by
  induction fuel generalizing s with
  | zero => rfl
  | succ n ih =>
    unfold State.joinWaiters
    split
    · split
      · rw [ih]; simp
      · rfl
    · rfl

@[simp] theorem State.dropReturned_tables (s : State) (f : Job → Bool) : (s.dropReturned f).tables = s.tables := by
  unfold State.dropReturned
  rfl

@[simp] theorem State.dispatch_tables (s : State) (p : Nat) : (s.dispatch p).tables = s.tables := by
  unfold State.dispatch
  split <;> simp

@[simp] theorem State.idxLocate_tables (s : State) (h : Nat) : (s.idxLocate h).tables = s.tables := by
  unfold State.idxLocate
  rfl

@[simp] theorem State.noticeIngestEnd_tables (s : State) (i : Nat) (e : EndOutcome) :
    (s.noticeIngestEnd i e).tables = s.tables := by
  unfold State.noticeIngestEnd
  rfl

@[simp] theorem State.withdrawPlacements_tables (s : State) (i : Nat) : (s.withdrawPlacements i).tables = s.tables := by
  unfold State.withdrawPlacements
  rfl

@[simp] theorem State.streamFault_tables (s : State) (i : Nat) (cause : FaultCause) :
    (s.streamFault i cause).tables = s.tables := by
  unfold State.streamFault
  dsimp only
  repeat' split
  all_goals simp

@[simp] theorem State.takeBuffers_tables (s : State) (a : BufAsker) (n : Nat) :
    (s.takeBuffers a n).1.tables = s.tables := by
  unfold State.takeBuffers
  split <;> simp

@[simp] theorem State.setReadJob_tables (s : State) (id : Nat) (j : Option ReadJob) :
    (s.setReadJob id j).tables = s.tables := by
  unfold State.setReadJob
  rfl

@[simp] theorem State.reportReconstructing_tables (s : State) (j : ReadJob) :
    (s.reportReconstructing j).tables = s.tables := by
  unfold State.reportReconstructing
  split <;> simp

@[simp] theorem State.countDegraded_tables (s : State) (n : Nat) : (s.countDegraded n).tables = s.tables := by
  unfold State.countDegraded
  rfl

@[simp] theorem State.submitParts_tables (s : State) (j : ReadJob) (ks : List Nat) :
    (s.submitParts j ks).tables = s.tables := by
  unfold State.submitParts
  simp

@[simp] theorem State.readFrom_tables (s : State) (j : ReadJob) (from_ : Nat) :
    (s.readFrom j from_).tables = s.tables := by
  unfold State.readFrom
  simp

@[simp] theorem State.startRead_tables (s : State) (id : Nat) : (s.startRead id).tables = s.tables := by
  unfold State.startRead
  repeat' split
  all_goals simp

@[simp] theorem State.startScrubReads_tables (s : State) : s.startScrubReads.tables = s.tables := by
  unfold State.startScrubReads
  split <;> simp

@[simp] theorem State.startRebuildReads_tables (s : State) : s.startRebuildReads.tables = s.tables := by
  unfold State.startRebuildReads
  split <;> simp

@[simp] theorem State.startAsker_tables (s : State) (a : BufAsker) : (s.startAsker a).tables = s.tables := by
  unfold State.startAsker
  repeat' split
  all_goals simp

@[simp] theorem State.returnBuffers_tables (s : State) (a : BufAsker) (n : Nat) :
    (s.returnBuffers a n).tables = s.tables := by
  unfold State.returnBuffers
  simp

@[simp] theorem State.askBuffers_tables (s : State) (a : BufAsker) (n : Nat) : (s.askBuffers a n).tables = s.tables := by
  have h := s.takeBuffers_tables a n
  unfold State.askBuffers
  split <;> simp_all

@[simp] theorem State.bufferDone_tables (s : State) (id : Nat) : (s.bufferDone id).tables = s.tables := by
  unfold State.bufferDone
  simp

@[simp] theorem State.dropReport_tables (s : State) (r : ReadReport) : (s.dropReport r).tables = s.tables := by
  unfold State.dropReport
  rfl

@[simp] theorem State.wakeStart_tables (s : State) (k : CauseKind) : (s.wakeStart k).tables = s.tables := by
  unfold State.wakeStart
  rfl

@[simp] theorem State.bayOff_tables (s : State) (b : Nat) : (s.bayOff b).tables = s.tables := by
  unfold State.bayOff
  rfl

@[simp] theorem State.noticeMember_tables (s : State) (p : Nat) : (s.noticeMember p).tables = s.tables := by
  unfold State.noticeMember
  rfl

@[simp] theorem State.setMember_tables (s : State) (p : Nat) (m : MemberState) : (s.setMember p m).tables = s.tables := by
  unfold State.setMember
  simp

@[simp] theorem State.limitFalls_tables (s : State) : s.limitFalls.tables = s.tables := by
  unfold State.limitFalls
  simp

@[simp] theorem State.spinStart_tables (s : State) (e : SpinEntry) : (s.spinStart e).tables = s.tables := by
  unfold State.spinStart
  dsimp only
  repeat' split
  all_goals simp

@[simp] theorem State.spinTest_tables (s : State) (fuel : Nat) : (s.spinTest fuel).tables = s.tables := by
  induction fuel generalizing s with
  | zero => rfl
  | succ n ih =>
    unfold State.spinTest
    split
    · rfl
    · split <;> simp [ih]

@[simp] theorem State.spinChanged_tables (s : State) : s.spinChanged.tables = s.tables := by
  unfold State.spinChanged
  simp

@[simp] theorem State.unform_tables (s : State) : s.unform.tables = s.tables := by
  unfold State.unform
  simp [State.each_tables fun s p => State.modChan_tables s p _]

@[simp] theorem State.attachFail_tables (s : State) : s.attachFail.tables = s.tables := by
  unfold State.attachFail
  split <;> simp

@[simp] theorem State.ingestReply_tables (s : State) (tag i : Nat) (st : Status) :
    (s.ingestReply tag i st).tables = s.tables := by
  unfold State.ingestReply
  simp

@[simp] theorem State.writeRing_tables (s : State) (i o : Nat) (bs : List Byte) :
    (s.writeRing i o bs).tables = s.tables := by
  unfold State.writeRing
  rfl

@[simp] theorem State.ingestData_tables (s : State) (tag i offset : Nat) (data : List Byte) :
    (s.ingestData tag i offset data).tables = s.tables := by
  unfold State.ingestData
  simp

@[simp] theorem execIngestData_tables (tag i offset : Nat) (data : List Byte) (s : State) :
    ((execIngestData tag i offset data s).stateOr s).tables = s.tables := by
  unfold execIngestData
  simp only [Out.stateOr_next]
  simp

@[simp] theorem State.closeIngest_tables (s : State) (tag i : Nat) : (s.closeIngest tag i).tables = s.tables := by
  unfold State.closeIngest
  simp

@[simp] theorem execCloseIngest_tables (tag i : Nat) (s : State) :
    ((execCloseIngest tag i s).stateOr s).tables = s.tables := by
  unfold execCloseIngest
  simp only [Out.stateOr_next]
  simp

@[simp] theorem State.setChunking_tables (s : State) (tag k : Nat) : (s.setChunking tag k).tables = s.tables := by
  unfold State.setChunking
  simp

@[simp] theorem execSetChunking_tables (tag k : Nat) (s : State) :
    ((execSetChunking tag k s).stateOr s).tables = s.tables := by
  unfold execSetChunking
  simp only [Out.stateOr_next]
  simp

@[simp] theorem execChunkerRun_tables (i : Nat) (s : State) : ((execChunkerRun i s).stateOr s).tables = s.tables := by
  unfold execChunkerRun
  simp only [Out.stateOr_next]
  simp

@[simp] theorem execLookupIssue_tables (i : Nat) (s : State) : ((execLookupIssue i s).stateOr s).tables = s.tables := by
  unfold execLookupIssue
  simp only [Out.stateOr_next]
  repeat' split
  all_goals simp

@[simp] theorem State.verified_tables (s : State) (i no : Nat) (o : VerifyOutcome) :
    (s.verified i no o).tables = s.tables := by
  unfold State.verified
  rfl

@[simp] theorem execVerifyComplete_tables (i no : Nat) (s : State) :
    ((execVerifyComplete i no s).stateOr s).tables = s.tables := by
  unfold execVerifyComplete
  simp only [Out.stateOr_next]
  repeat' split
  all_goals simp

@[simp] theorem State.startWriteOut_tables (s : State) (i : Nat) : (s.startWriteOut i).tables = s.tables := by
  unfold State.startWriteOut
  simp

@[simp] theorem execStreamSealing_tables (i : Nat) (s : State) :
    ((execStreamSealing i s).stateOr s).tables = s.tables := by
  unfold execStreamSealing
  simp only [Out.stateOr_next]
  simp

@[simp] theorem execRingWordError_tables (i q : Nat) (s : State) :
    ((execRingWordError i q s).stateOr s).tables = s.tables := by
  unfold execRingWordError
  simp only [Out.stateOr_next]
  simp

@[simp] theorem execLocation_tables (h : Nat) (s : State) : ((execLocation h s).stateOr s).tables = s.tables := by
  unfold execLocation
  simp only [Out.stateOr_next]
  rfl

@[simp] theorem State.getObject_tables (s : State) (tag id mode : Nat) : (s.getObject tag id mode).tables = s.tables := by
  unfold State.getObject
  split <;> simp

@[simp] theorem execGetObject_tables (tag id mode : Nat) (s : State) :
    ((execGetObject tag id mode s).stateOr s).tables = s.tables := by
  unfold execGetObject
  simp only [Out.stateOr_next]
  simp

@[simp] theorem execOperationSubmit_tables (p : Nat) (o : Op) (s : State) :
    ((execOperationSubmit p o s).stateOr s).tables = s.tables := by
  unfold execOperationSubmit
  simp only [Out.stateOr_next]
  simp

@[simp] theorem execDispatch_tables (p : Nat) (s : State) : ((execDispatch p s).stateOr s).tables = s.tables := by
  unfold execDispatch
  simp only [Out.stateOr_next]
  simp

@[simp] theorem execIdleTimerExpire_tables (p : Nat) (s : State) :
    ((execIdleTimerExpire p s).stateOr s).tables = s.tables := by
  unfold execIdleTimerExpire
  simp only [Out.stateOr_next]
  simp

@[simp] theorem State.setServiceFrame_tables (s : State) (tag selector f : Nat) (classes : List Nat) :
    (s.setServiceFrame tag selector f classes).tables = s.tables := by
  unfold State.setServiceFrame
  dsimp only
  repeat' split
  all_goals simp [State.each_tables fun s p => State.modChan_tables s p _]

@[simp] theorem execSetServiceFrame_tables (tag selector f : Nat) (classes : List Nat) (s : State) :
    ((execSetServiceFrame tag selector f classes s).stateOr s).tables = s.tables := by
  unfold execSetServiceFrame
  simp only [Out.stateOr_next]
  simp

@[simp] theorem State.putGrant_tables (s : State) (tag g : Nat) (albums : Albums) (notAfter : Time)
    (allowance : Option Nat) (limit : Nat) :
    (s.putGrant tag g albums notAfter allowance limit).tables = s.tables := by
  unfold State.putGrant
  simp

@[simp] theorem execPutGrant_tables (tag g : Nat) (albums : Albums) (notAfter : Time) (allowance : Option Nat)
    (limit : Nat) (s : State) :
    ((execPutGrant tag g albums notAfter allowance limit s).stateOr s).tables = s.tables := by
  unfold execPutGrant
  simp only [Out.stateOr_next]
  simp

@[simp] theorem State.getGrant_tables (s : State) (tag g : Nat) : (s.getGrant tag g).tables = s.tables := by
  unfold State.getGrant
  simp

@[simp] theorem execGetGrant_tables (tag g : Nat) (s : State) : ((execGetGrant tag g s).stateOr s).tables = s.tables := by
  unfold execGetGrant
  simp only [Out.stateOr_next]
  simp

@[simp] theorem State.setScrub_tables (s : State) (tag period : Nat) : (s.setScrub tag period).tables = s.tables := by
  unfold State.setScrub
  simp

@[simp] theorem execSetScrub_tables (tag period : Nat) (s : State) :
    ((execSetScrub tag period s).stateOr s).tables = s.tables := by
  unfold execSetScrub
  simp only [Out.stateOr_next]
  simp

@[simp] theorem State.startCheckpoint_tables (s : State) (why : CkptWhy) : (s.startCheckpoint why).tables = s.tables := by
  unfold State.startCheckpoint
  exact State.each_tables fun s i => State.modStream_tables s i _

@[simp] theorem State.writePiece_tables (s : State) (c : Ckpt) : (s.writePiece c).tables = s.tables := by
  unfold State.writePiece
  simp

@[simp] theorem State.startCopying_tables (s : State) (c : Ckpt) : (s.startCopying c).tables = s.tables := by
  unfold State.startCopying
  simp

@[simp] theorem execGraceExpire_tables (s : State) : ((execGraceExpire s).stateOr s).tables = s.tables := by
  unfold execGraceExpire
  simp only [Out.stateOr_next]
  simp

@[simp] theorem State.forgetTags_tables (s : State) : s.forgetTags.tables = s.tables := by
  unfold State.forgetTags
  rfl

@[simp] theorem State.goDark_tables (s : State) : s.goDark.tables = s.tables := by
  unfold State.goDark
  dsimp only
  split <;> simp

@[simp] theorem execSelfRefreshEntered_tables (s : State) : ((execSelfRefreshEntered s).stateOr s).tables = s.tables := by
  unfold execSelfRefreshEntered
  simp only [Out.stateOr_next]
  simp

@[simp] theorem execSelfRefreshExited_tables (s : State) : ((execSelfRefreshExited s).stateOr s).tables = s.tables := by
  unfold execSelfRefreshExited
  simp only [Out.stateOr_next]
  repeat' split
  all_goals simp

@[simp] theorem State.setAlarm_tables (s : State) (tag off : Nat) (t : Time) :
    (s.setAlarm tag off t).tables = s.tables := by
  unfold State.setAlarm
  simp

@[simp] theorem execSetAlarm_tables (tag off : Nat) (t : Time) (s : State) :
    ((execSetAlarm tag off t s).stateOr s).tables = s.tables := by
  unfold execSetAlarm
  simp only [Out.stateOr_next]
  simp

@[simp] theorem State.setPowerPolicy_tables (s : State) (tag i0 i1 i2 i3 limit grace : Nat) :
    (s.setPowerPolicy tag i0 i1 i2 i3 limit grace).tables = s.tables := by
  unfold State.setPowerPolicy
  simp

@[simp] theorem execSetPowerPolicy_tables (tag i0 i1 i2 i3 limit grace : Nat) (s : State) :
    ((execSetPowerPolicy tag i0 i1 i2 i3 limit grace s).stateOr s).tables = s.tables := by
  unfold execSetPowerPolicy
  simp only [Out.stateOr_next]
  simp

@[simp] theorem State.setStation_tables (s : State) (tag : Nat) (address : List Byte) (broadcast : Nat) :
    (s.setStation tag address broadcast).tables = s.tables := by
  unfold State.setStation
  simp

@[simp] theorem execSetStation_tables (tag : Nat) (address : List Byte) (broadcast : Nat) (s : State) :
    ((execSetStation tag address broadcast s).stateOr s).tables = s.tables := by
  unfold execSetStation
  simp only [Out.stateOr_next]
  simp

@[simp] theorem State.setWakePattern_tables (s : State) (tag number enabled offset length : Nat) (bytes : List Byte)
    (mask : BitVec 16) (interval : Nat) :
    (s.setWakePattern tag number enabled offset length bytes mask interval).tables = s.tables := by
  unfold State.setWakePattern
  simp

@[simp] theorem execSetWakePattern_tables (tag number enabled offset length : Nat) (bytes : List Byte) (mask : BitVec 16)
    (interval : Nat) (s : State) :
    ((execSetWakePattern tag number enabled offset length bytes mask interval s).stateOr s).tables = s.tables := by
  unfold execSetWakePattern
  simp only [Out.stateOr_next]
  simp

@[simp] theorem State.setLamps_tables (s : State) (tag mode : Nat) : (s.setLamps tag mode).tables = s.tables := by
  unfold State.setLamps
  split <;> simp

@[simp] theorem execSetLamps_tables (tag mode : Nat) (s : State) :
    ((execSetLamps tag mode s).stateOr s).tables = s.tables := by
  unfold execSetLamps
  simp only [Out.stateOr_next]
  simp

@[simp] theorem State.noticeMemory_tables (s : State) (c : MemoryCause) : (s.noticeMemory c).tables = s.tables := by
  unfold State.noticeMemory
  rfl

@[simp] theorem execMemoryInitDone_tables (size : Option Nat) (s : State) :
    ((execMemoryInitDone size s).stateOr s).tables = s.tables := by
  unfold execMemoryInitDone
  simp only [Out.stateOr_next]
  repeat' split
  all_goals simp

@[simp] theorem execRefreshTimerExpire_tables (busy : Bool) (s : State) :
    ((execRefreshTimerExpire busy s).stateOr s).tables = s.tables := by
  unfold execRefreshTimerExpire
  simp only [Out.stateOr_next]
  simp

@[simp] theorem State.corrected_tables (s : State) : s.corrected.tables = s.tables := by
  unfold State.corrected
  rfl

@[simp] theorem execReadBufferRequest_tables (a : BufAsker) (n : Nat) (s : State) :
    ((execReadBufferRequest a n s).stateOr s).tables = s.tables := by
  unfold execReadBufferRequest
  simp only [Out.stateOr_next]
  simp

@[simp] theorem execReadBufferReturn_tables (a : BufAsker) (n : Nat) (s : State) :
    ((execReadBufferReturn a n s).stateOr s).tables = s.tables := by
  unfold execReadBufferReturn
  simp only [Out.stateOr_next]
  simp

@[simp] theorem State.askMap_tables (s : State) (b c : Nat) : (s.askMap b c).tables = s.tables := by
  unfold State.askMap
  split <;> simp

@[simp] theorem State.askMarker_tables (s : State) : s.askMarker.tables = s.tables := by
  unfold State.askMarker
  split <;> simp

@[simp] theorem execRegionMapRequest_tables (b c : Nat) (s : State) :
    ((execRegionMapRequest b c s).stateOr s).tables = s.tables := by
  unfold execRegionMapRequest
  simp only [Out.stateOr_next]
  simp

@[simp] theorem execMarkerRequest_tables (s : State) : ((execMarkerRequest s).stateOr s).tables = s.tables := by
  unfold execMarkerRequest
  simp only [Out.stateOr_next]
  simp

@[simp] theorem State.bind_tables (s : State) (p : Nat) (bay : Option Nat) (m : Member) :
    (s.bind p bay m).tables = s.tables := by
  unfold State.bind
  simp

@[simp] theorem State.beginForming_tables (s : State) (tag : Nat) (l : Layout) (bays : List Nat) (buckets : Nat) :
    (s.beginForming tag l bays buckets).tables = s.tables := by
  unfold State.beginForming
  rw [State.submitAll_tables, State.each_tables fun s p => by split <;> simp]
  simp

@[simp] theorem State.formArray_tables (s : State) (tag layout count : Nat) (bays : List Nat) (buckets : Nat) :
    (s.formArray tag layout count bays buckets).tables = s.tables := by
  unfold State.formArray
  repeat' split
  all_goals simp

@[simp] theorem execFormArray_tables (tag layout count : Nat) (bays : List Nat) (buckets : Nat) (s : State) :
    ((execFormArray tag layout count bays buckets s).stateOr s).tables = s.tables := by
  unfold execFormArray
  simp only [Out.stateOr_next]
  simp

@[simp] theorem State.checkpoint_tables (s : State) (tag : Nat) : (s.checkpoint tag).tables = s.tables := by
  unfold State.checkpoint
  simp

@[simp] theorem execCheckpoint_tables (tag : Nat) (s : State) : ((execCheckpoint tag s).stateOr s).tables = s.tables := by
  unfold execCheckpoint
  simp only [Out.stateOr_next]
  simp

@[simp] theorem execCheckpointSealed_tables (s : State) : ((execCheckpointSealed s).stateOr s).tables = s.tables := by
  unfold execCheckpointSealed
  simp only [Out.stateOr_next]
  split <;> simp

@[simp] theorem State.beginAttach_tables (s : State) (tag : Nat) : (s.beginAttach tag).tables = s.tables := by
  unfold State.beginAttach
  simp

@[simp] theorem State.attachArray_tables (s : State) (tag : Nat) : (s.attachArray tag).tables = s.tables := by
  unfold State.attachArray
  simp

@[simp] theorem execAttachArray_tables (tag : Nat) (s : State) :
    ((execAttachArray tag s).stateOr s).tables = s.tables := by
  unfold execAttachArray
  simp only [Out.stateOr_next]
  simp

@[simp] theorem State.rebind_tables (s : State) (ls : List (Nat × Label)) : (s.rebind ls).tables = s.tables := by
  unfold State.rebind
  simp only [State.limitFalls_tables, State.each_tables, State.bayOff_tables, State.idleUpdate_tables, implies_true]
  exact (State.each_tables fun _ _ => by split <;> simp).trans (by simp)

@[simp] theorem State.setAttach_tables (s : State) (a : Attach) : (s.setAttach a).tables = s.tables := by
  unfold State.setAttach
  rfl

@[simp] theorem State.readHeaders_tables (s : State) (a : Attach) : (s.readHeaders a).tables = s.tables := by
  unfold State.readHeaders
  simp

@[simp] theorem State.chooseWarm_tables (s : State) (a : Attach) (l : Label) :
    (s.chooseWarm a l).1.tables = s.tables := by
  unfold State.chooseWarm
  repeat' split
  all_goals simp

@[simp] theorem State.takeLabels_tables (s : State) (a : Attach) (ls : List (Nat × Label)) :
    (s.takeLabels a ls).tables = s.tables := by
  unfold State.takeLabels
  dsimp only
  repeat' split
  all_goals simp

@[simp] theorem execAttachLabelsRead_tables (s : State) : ((execAttachLabelsRead s).stateOr s).tables = s.tables := by
  unfold execAttachLabelsRead
  simp only [Out.stateOr_next]
  split <;> simp

@[simp] theorem execFrameSync_tables (s : State) : ((execFrameSync s).stateOr s).tables = s.tables := by
  unfold execFrameSync
  simp only [Out.stateOr_next]
  simp

@[simp] theorem State.frameDiscarded_tables (s : State) : s.frameDiscarded.tables = s.tables := by
  unfold State.frameDiscarded
  rfl

@[simp] theorem execFrameSkipped_tables (s : State) : ((execFrameSkipped s).stateOr s).tables = s.tables := by
  unfold execFrameSkipped
  simp only [Out.stateOr_next]
  simp

@[simp] theorem execLineBreak_tables (s : State) : ((execLineBreak s).stateOr s).tables = s.tables := by
  unfold execLineBreak
  simp only [Out.stateOr_next]
  simp

@[simp] theorem State.frameOffered_tables (s : State) (h : Header) (payload : List Byte) (crc : Crc) :
    (s.frameOffered h payload crc).tables = s.tables := by
  unfold State.frameOffered
  split <;> simp

@[simp] theorem execFrameReceived_tables (payload : List Byte) (crc : Crc) (s : State) :
    ((execFrameReceived payload crc s).stateOr s).tables = s.tables := by
  unfold execFrameReceived
  simp only [Out.stateOr_next]
  split <;> simp

@[simp] theorem State.begin_tables (s : State) (m : OutMsg) : (s.begin_ m).tables = s.tables := by
  unfold State.begin_
  rfl

@[simp] theorem State.beginNotice_tables (s : State) (n : Nat) (fs : List Field) :
    (s.beginNotice n fs).tables = s.tables := by
  unfold State.beginNotice
  simp

@[simp] theorem State.beginData_tables (s : State) (i off : Nat) (bs : List Byte) :
    (s.beginData i off bs).tables = s.tables := by
  unfold State.beginData
  rfl

@[simp] theorem State.arbitrate_tables (s : State) : s.arbitrate.tables = s.tables := by
  unfold State.arbitrate
  repeat' split
  all_goals simp

@[simp] theorem execMessageBegin_tables (s : State) : ((execMessageBegin s).stateOr s).tables = s.tables := by
  unfold execMessageBegin
  simp only [Out.stateOr_next]
  simp

@[simp] theorem execReplySent_tables (s : State) : ((execReplySent s).stateOr s).tables = s.tables := by
  unfold execReplySent
  simp only [Out.stateOr_next]
  split <;> simp

@[simp] theorem execNoticeSent_tables (s : State) : ((execNoticeSent s).stateOr s).tables = s.tables := by
  unfold execNoticeSent
  simp only [Out.stateOr_next]
  split <;> simp

@[simp] theorem State.getStatus_tables (s : State) (tag figures : Nat) : (s.getStatus tag figures).tables = s.tables := by
  unfold State.getStatus
  split <;> simp

@[simp] theorem execGetStatus_tables (tag figures : Nat) (s : State) :
    ((execGetStatus tag figures s).stateOr s).tables = s.tables := by
  unfold execGetStatus
  simp only [Out.stateOr_next]
  simp

end Sys2Proof.Machine
namespace Sys2Proof.Machine

/-- Only which words of the tables are bad differs (R180). -/
def Tables.SameButBad (t u : Tables) : Prop := u = { t with bad := u.bad }

theorem Tables.SameButBad.of_eq {t u : Tables} (h : u = t) : t.SameButBad u := by subst h; rfl

theorem Tables.SameButBad.trans {t u v : Tables} (h : t.SameButBad u) (k : u.SameButBad v) : t.SameButBad v := by
  unfold Tables.SameButBad at *
  rw [k, h]

theorem State.uncorrectable_sameButBad (s : State) (w : Nat) : s.tables.SameButBad (s.uncorrectable w).tables := by
  unfold State.uncorrectable
  split
  · rw [State.noticeMemory_tables, State.onMec_tables]
    split
    · exact .of_eq rfl
    · unfold State.wordLost; split <;> rfl
  · exact .of_eq (by simp)

theorem State.checkWords_sameButBad (s : State) (b : Burst) (ws : List Nat) :
    s.tables.SameButBad (s.checkWords b ws).1.tables := by
  induction ws generalizing s with
  | nil => rfl
  | cons w ws ih =>
    unfold State.checkWords
    split
    · exact (s.uncorrectable_sameButBad w).trans (ih _)
    · exact (Tables.SameButBad.of_eq s.corrected_tables).trans (ih _)
    · exact ih _

theorem State.storeBurst_sameButBad (s : State) (b : Burst) : s.tables.SameButBad (s.storeBurst b).tables := by
  unfold State.storeBurst
  split
  · rfl
  · exact .of_eq (by simp)

theorem State.carryBurst_sameButBad (s : State) (b : Burst) : s.tables.SameButBad (s.carryBurst b).tables := by
  have hread := s.checkWords_sameButBad b b.wordsRead
  have hstore := hread.trans ((s.checkWords b b.wordsRead).1.storeBurst_sameButBad b)
  unfold State.carryBurst
  dsimp only
  rw [State.onMec_tables]
  split <;> split <;> assumption

theorem execMemoryBurst_sameButBad (b : Option Burst) (s : State) :
    s.tables.SameButBad ((execMemoryBurst b s).stateOr s).tables := by
  unfold execMemoryBurst
  dsimp only
  split
  · exact .of_eq (by simp)
  · split
    · exact .of_eq (by simp)
    · obtain ⟨x, rest, -, h⟩ | h | ⟨f, h⟩ := State.carryNext_stateOr (s.onMec fun m => { m with bursts := m.bursts ++ b.toList })
      · rw [h]; exact State.carryBurst_sameButBad _ x
      · rw [h]; rfl
      · rw [h]; rfl
  · exact .of_eq (by simp)

/-- Settles O9: the commands listed change no table, but for a burst which words are bad. -/
theorem tablesStand : Obligations.TablesStand := by
  refine ⟨fun c s t h hc => ?_, fun c s t h hc hw => exec_entries h hc, fun c s t h hp hf hs => ?_⟩
  · rw [exec_stateOr h]
    by_cases hb : ∃ b, c = .memoryBurst b
    · obtain ⟨b, rfl⟩ := hb
      exact ⟨execMemoryBurst_sameButBad b s, fun h => absurd rfl (h b)⟩
    · suffices (Out.stateOr (exec c s) s).tables = s.tables from
        ⟨Tables.SameButBad.of_eq this, fun _ => this⟩
      cases c
      case memoryBurst b => exact absurd ⟨b, rfl⟩ hb
      all_goals first | exact absurd hc.symm Bool.noConfusion | simp [exec]
  · exact (exec_core h).identity_of hp hf hs

end Sys2Proof.Machine

/-! # Proofs: the link -/

namespace Sys2Proof.Machine

/-! ## The link's receiver -/

/-- What hunting again after a bad header leaves of LNK's record (R197). -/
theorem Lnk.rehunt_eq (l : Lnk) (bytes : List Byte) : ∃ r g b, r ≠ .payload ∧
    l.rehunt bytes = { l with receiver := r, gathered := g, lastSync := b, header := none } := by
  unfold Lnk.rehunt
  split
  · refine ⟨_, _, _, ?_, rfl⟩
    split <;> decide
  · exact ⟨.hunting, _, _, by decide, rfl⟩

/-- With no placement waiting there is none to try again (R79). -/
theorem State.retryWaiting_of_none {s : State} (h : s.ctm.waiting = []) : s.retryWaiting = s := by
  unfold State.retryWaiting
  rw [h, List.foldl_nil, ← h]
  rfl

theorem State.noticeWake_eq (s : State) : s.noticeWake = { s with lnk := s.noticeWake.lnk } := by
  unfold State.noticeWake
  split <;> rfl

/-- A recorded wake cause is noticed (R160, R202). -/
theorem State.noticeWake_noticed {s : State} (h : s.pwc.cause.isSome = true) :
    s.noticeWake.lnk.notices[32].isSome = true := by
  obtain ⟨c, hc⟩ := Option.isSome_iff_exists.1 h
  unfold State.noticeWake
  rw [hc]
  simp [State.notice, State.onLnk, slotWake]

/-- With no placement waiting, waking ends with the box in RUN (R160). -/
theorem State.backToRun_of_none_waiting {s : State} (h : s.ctm.waiting = []) : s.backToRun =
    s.noticeWake.onPwc fun w => { w with
      box := .run, entryStep := none, graceTimer := none, cause := none, laterCauses := 0, lateCause := none,
      standbyAsks := w.standbyAsks.map fun a => if a = some .held then none else a } :=
  State.retryWaiting_of_none (by rw [State.noticeWake_eq]; exact h)

/-- A header is complete with its eighth byte. -/
theorem execHeaderReceived_of_complete {s : State} {bs : List Byte} (hr : s.lnk.receiver = .header)
    (hl : 8 ≤ (s.lnk.gathered ++ bs).length) :
    execHeaderReceived bs s = .next (s.headerComplete ((s.lnk.gathered ++ bs).take 8)) := by
  have hg : s.lnk.gathering = true := by simp [Lnk.gathering, hr]
  unfold execHeaderReceived
  rw [if_pos hg]
  dsimp only
  rw [if_neg (by omega)]

/-- A good header outside a skipped frame is kept (R197). -/
theorem State.headerComplete_of_good {s : State} {bs : List Byte} {h : Header} (hr : s.lnk.receiver = .header)
    (hh : headerOf bs = some h) : s.headerComplete bs =
      s.wakingEnd.onLnk fun l => { l with receiver := .payload, gathered := [], header := some h } := by
  simp [State.headerComplete, hh, hr]

/-- A bad header outside a skipped frame is counted and noticed, and the receiver hunts again (R197). -/
theorem State.headerComplete_of_bad {s : State} {bs : List Byte} (hr : s.lnk.receiver = .header)
    (hh : headerOf bs = none) : s.headerComplete bs =
      ((s.onLnk fun l => { l with headerErrors := tallyUp 0 l.headerErrors }).noticeLink).onLnk
        fun l => l.rehunt (0x3C :: bs) := by
  simp [State.headerComplete, hh, hr]

/-- Settles O13: each move of the receiver by its own command. -/
theorem receiverReadsHeaders : Obligations.ReceiverReadsHeaders := by
  refine ⟨fun s hp hr => ?_, fun s hr hh => ?_, fun s hr => ?_, fun s hr => ?_, fun s bs h hr hl hh hb => ?_,
    fun s bs h hr hl hh hb hw => ?_, fun s bs hr hl hh => ?_⟩
  · exact congrArg Host.Outcome.next (if_pos ⟨hp, hr⟩)
  · refine ⟨_, congrArg Host.Outcome.next (if_pos ⟨hr, hh⟩), rfl, rfl, rfl, ?_, rfl, rfl⟩
    simp [State.frameDiscarded, State.noticeLink, State.notice, State.onLnk, Lnk.hunt, slotLink]
  · exact ⟨_, congrArg Host.Outcome.next (if_pos hr), by simp [State.onLnk, Lnk.hunt, hr], rfl⟩
  · refine ⟨_, congrArg Host.Outcome.next (if_neg hr), rfl, rfl, ?_, rfl, rfl⟩
    simp [State.noticeLink, State.notice, State.onLnk, Lnk.hunt, slotLink]
  · refine (execHeaderReceived_of_complete hr hl).trans ?_
    rw [State.headerComplete_of_good hr hh, State.wakingEnd, if_neg hb]
    rfl
  · refine ⟨_, execHeaderReceived_of_complete hr hl, ?_⟩
    rw [State.headerComplete_of_good hr hh, State.wakingEnd, if_pos hb, State.backToRun_of_none_waiting hw]
    exact ⟨rfl, rfl, rfl, rfl, rfl, fun h => State.noticeWake_noticed h⟩
  · obtain ⟨r, g, b, hr', h⟩ := Lnk.rehunt_eq
      ((s.onLnk fun l => { l with headerErrors := tallyUp 0 l.headerErrors }).noticeLink).lnk
      (0x3C :: (s.lnk.gathered ++ bs).take 8)
    refine ⟨_, execHeaderReceived_of_complete hr hl, ?_⟩
    rw [State.headerComplete_of_bad hr hh, State.onLnk, h]
    refine ⟨rfl, hr', rfl, ?_, rfl, rfl⟩
    simp [State.noticeLink, State.notice, State.onLnk, slotLink]

/-! ## Fields of bytes -/

@[simp] theorem length_leBytes (n v : Nat) : (leBytes n v).length = n := by
  induction n generalizing v with
  | zero => rfl
  | succ n ih => simp [leBytes, ih]

theorem leValue_leBytes (n v : Nat) : leValue (leBytes n v) = v % 256 ^ n := by
  induction n generalizing v with
  | zero => simp [leBytes, leValue, Nat.mod_one]
  | succ n ih =>
    simp only [leBytes, leValue, ih, BitVec.toNat_ofNat]
    rw [Nat.pow_succ' (m := 256), Nat.mod_mul (a := 256) (b := 256 ^ n)]

theorem leValue_leBytes_of_lt {n v : Nat} (h : v < 256 ^ n) : leValue (leBytes n v) = v := by
  rw [leValue_leBytes, Nat.mod_eq_of_lt h]

/-- A field that was written is read back from the front of the bytes. -/
theorem readFields_leBytes {n v : Nat} (h : v < 256 ^ n) (ns : List Nat) (rest : List Byte) :
    readFields (n :: ns) (leBytes n v ++ rest) = v :: readFields ns rest := by
  rw [readFields, List.take_left' (length_leBytes n v), List.drop_left' (length_leBytes n v), leValue_leBytes_of_lt h]

@[simp] theorem readFields_nil (bs : List Byte) : readFields [] bs = [] := rfl

/-- The six bytes of a header before its check (R197). -/
def headBytes (kind flags tag len : Nat) : List Byte :=
  leBytes 1 kind ++ (leBytes 1 flags ++ (leBytes 2 tag ++ leBytes 2 len))

theorem length_headBytes (kind flags tag len : Nat) : (headBytes kind flags tag len).length = 6 := by
  simp [headBytes]

/-- A header whose check is that of its six bytes is good. -/
theorem headerOf_headBytes {kind flags tag len : Nat} (hk : kind < 256) (hf : flags < 256) (ht : tag < 65536)
    (hl : len ≤ 16384) :
    headerOf (headBytes kind flags tag len ++ leBytes 2 (crc32 (headBytes kind flags tag len)).toNat) =
      some { kind := kind, flags := flags, tag := tag, length := len } := by
  have hcheck (v : Nat) : readFields [2] (leBytes 2 v) = [v % 65536] := by
    rw [readFields, List.take_of_length_le (by simp), leValue_leBytes]; rfl
  have hfields : readFields [1, 1, 2, 2, 2]
      (headBytes kind flags tag len ++ leBytes 2 (crc32 (headBytes kind flags tag len)).toNat) =
        [kind, flags, tag, len, (crc32 (headBytes kind flags tag len)).toNat % 65536] := by
    rw [headBytes]
    simp only [List.append_assoc]
    rw [readFields_leBytes (by omega), readFields_leBytes (by omega), readFields_leBytes (by omega),
      readFields_leBytes (by omega), hcheck]
  unfold headerOf
  rw [hfields, List.take_left' (length_headBytes ..)]
  exact if_pos ⟨rfl, hl⟩

theorem frameBytes_eq (kind flags tag : Nat) (payload : List Byte) : frameBytes kind flags tag payload =
    syncBytes ++ (headBytes kind flags tag payload.length ++
      leBytes 2 (crc32 (headBytes kind flags tag payload.length)).toNat) ++
      (payload ++ if payload.isEmpty then [] else leBytes 4 (crc32 payload).toNat) := by
  simp only [frameBytes, headBytes, List.append_assoc]

/-- Settles O14: the eight bytes after the sync are the header's six and their check. -/
theorem headerRoundTrip : Obligations.HeaderRoundTrip := by
  intro kind flags tag payload hk hf ht hl
  rw [frameBytes_eq]
  refine ⟨rfl, ?_⟩
  have hhead : ((headBytes kind flags tag payload.length ++
      leBytes 2 (crc32 (headBytes kind flags tag payload.length)).toNat).length) = 8 := by simp [length_headBytes]
  rw [List.append_assoc, List.drop_left' (by rfl), List.take_left' hhead]
  exact headerOf_headBytes hk hf ht hl

theorem isRequestKind_iff (k : Nat) : isRequestKind k = true ↔ 1 ≤ k ∧ k ≤ 0x1C := by
  simp [isRequestKind]

/-- The checks of a frame as their conditions (R198): no check fails, or the first one that does gives the refusal. -/
theorem State.checkFrame_eq (s : State) (h : Header) (payload : List Byte) (crc : Crc) :
    s.checkFrame h payload crc =
      if (0 < h.length ∧ crc32 payload ≠ crc) ∨ h.flags ≠ 0 then some .malformed
      else if h.kind = 0 ∨ 0x1C < h.kind then some .unknownKind
      else if ∃ e ∈ s.lnk.entries, e.refusal = false ∧ e.tag = h.tag then some .tagInUse
      else if lengthGood h.kind h.length = false then some .malformed
      else if s.ctm.state = .failed ∧ h.kind ≠ 0x1B ∧ h.kind ≠ 0x06 ∧ h.kind ≠ 0x17 then some .arrayFailed
      else none := by
  have hkind : (!isRequestKind h.kind) = true ↔ h.kind = 0 ∨ 0x1C < h.kind := by
    rw [Bool.not_eq_true', ← Bool.not_eq_true, isRequestKind_iff]; omega
  unfold State.checkFrame
  simp only [hkind]
  simp only [kindGetStatus, kindGetObject, kindSetLamps, List.any_eq_true, Bool.and_eq_true, Bool.not_eq_true',
    decide_eq_true_eq]
  congr

theorem execFrameReceived_of_payload {s : State} {h : Header} {payload : List Byte} {crc : Crc}
    (hr : s.lnk.receiver = .payload) (hh : s.lnk.header = some h) (hl : payload.length = h.length) :
    execFrameReceived payload crc s = .next ((s.onLnk Lnk.hunt).frameOffered h payload crc) := by
  unfold execFrameReceived
  rw [hr, hh]
  dsimp only
  rw [if_pos hl]

/-- A frame whose checks leave a status is answered with it, and one that they pass has none (R198). -/
theorem State.checkFrame_of_status {s : State} {h : Header} {payload : List Byte} {crc : Crc} {st : Status}
    (hst : st = if (0 < h.length ∧ crc32 payload ≠ crc) ∨ h.flags ≠ 0 then .malformed
      else if h.kind = 0 ∨ 0x1C < h.kind then .unknownKind
      else if ∃ e ∈ s.lnk.entries, e.refusal = false ∧ e.tag = h.tag then .tagInUse
      else if lengthGood h.kind h.length = false then .malformed
      else if s.ctm.state = .failed ∧ h.kind ≠ 0x1B ∧ h.kind ≠ 0x06 ∧ h.kind ≠ 0x17 then .arrayFailed
      else .ok) (hne : st ≠ .ok) : s.checkFrame h payload crc = some st := by
  subst hst
  revert hne
  rw [State.checkFrame_eq]
  repeat' split
  all_goals simp

/-- Settles O15: the checks in their order, and what taking an entry leaves. -/
theorem frameTakesEntry : Obligations.FrameTakesEntry := by
  refine ⟨fun s h payload crc hr hh hl hf hc hk hk' he hg hs => ?_, fun s h payload crc st hr hh hl hst hne => ?_⟩
  · have hcrc : ¬((0 < h.length ∧ crc32 payload ≠ crc) ∨ h.flags ≠ 0) := by
      rintro (⟨h₁, h₂⟩ | h₁)
      · exact hc.elim (by omega) h₂
      · exact h₁ hf
    have hfree : ¬∃ e ∈ (s.onLnk Lnk.hunt).lnk.entries, e.refusal = false ∧ e.tag = h.tag := by
      rintro ⟨e, hm, hrefusal, htag⟩
      exact (he e hm).elim (by simp [hrefusal]) fun hne => hne htag
    have hstate : ¬((s.onLnk Lnk.hunt).ctm.state = .failed ∧ h.kind ≠ 0x1B ∧ h.kind ≠ 0x06 ∧ h.kind ≠ 0x17) := by
      rintro ⟨h₁, h₂, h₃, h₄⟩
      obtain h | h | h | h := hs <;> contradiction
    have hcheck : (s.onLnk Lnk.hunt).checkFrame h payload crc = none := by
      rw [State.checkFrame_eq, if_neg hcrc, if_neg (by omega), if_neg hfree, if_neg (by simp [hg]), if_neg hstate]
    refine ⟨_, execFrameReceived_of_payload hr hh hl, ?_⟩
    rw [State.frameOffered, hcheck]
    exact ⟨rfl, rfl, rfl, rfl, rfl, rfl, rfl⟩
  · have hcheck : (s.onLnk Lnk.hunt).checkFrame h payload crc = some st :=
      State.checkFrame_of_status (s := s.onLnk Lnk.hunt) hst hne
    refine ⟨_, execFrameReceived_of_payload hr hh hl, ?_⟩
    rw [State.frameOffered, hcheck]
    by_cases hm : st = .malformed
    · subst hm; exact ⟨rfl, rfl, rfl, ⟨_, rfl, rfl, rfl, rfl⟩, rfl, rfl, rfl⟩
    · simp [State.onLnk, Lnk.takeEntry, Lnk.countMalformed, hm, Lnk.hunt]

theorem execMessageBegin_of_free {s : State} (hl : s.lnk.lane = none) (hp : s.lnk.hostPowered = true)
    (hb : s.pwc.box ≠ .waking) : execMessageBegin s = .next s.arbitrate := by
  have hmay : s.mayBegin = true := by simp [State.mayBegin, hl, hp, hb]
  rw [execMessageBegin, if_pos hmay]

/-- The first of some numbers at which a figure is found (R201). -/
theorem findSome?_range_of_first {α : Type} {f : Nat → Option α} {n k : Nat} {a : α} (hn : n < k) (hf : f n = some a)
    (hm : ∀ m < n, f m = none) : (List.range k).findSome? f = some a := by
  obtain ⟨d, rfl⟩ : ∃ d, k = n + (d + 1) := ⟨k - n - 1, by omega⟩
  rw [List.range_add, List.findSome?_append]
  have hnone : (List.range n).findSome? f = none := by simpa using hm
  rw [hnone, List.range_succ_eq_map]
  simp [hf]

theorem Lnk.nextNotice_of_lowest {l : Lnk} {n : Nat} {fs : List Field} (hn : n < 37) (h : l.notices[n]? = some (some fs))
    (hm : ∀ m < n, l.notices[m]? = some none) : l.nextNotice = some (n, fs) := by
  refine findSome?_range_of_first hn ?_ fun m hlt => ?_
  · rw [h]; rfl
  · rw [hm m hlt]; rfl

theorem Lnk.nextNotice_of_none {l : Lnk} (h : ∀ n < 37, l.notices[n]? = some none) : l.nextNotice = none := by
  unfold Lnk.nextNotice
  simp only [List.findSome?_eq_none_iff, List.mem_range]
  intro n hn
  rw [h n hn]; rfl

/-- The first stream in the round-robin order with bytes in hand is served (R201). -/
theorem State.nextData_of_first {s : State} {i off : Nat} {bs : List Byte} {len : Nat} (hi : i < 16)
    (ho : (s.reader i).offered = some { offset := off, length := len, bytes := some bs })
    (hk : ∀ k < (i + 15 - s.lnk.roundRobin) % 16,
      ((s.reader ((s.lnk.roundRobin + 1 + k) % 16)).offered.bind fun o => o.bytes) = none)
    (hr : s.lnk.roundRobin < 16) : s.nextData = some (i, off, bs) := by
  unfold State.nextData Lnk.streamOrder
  rw [List.findSome?_map]
  refine findSome?_range_of_first (n := (i + 15 - s.lnk.roundRobin) % 16) (Nat.mod_lt _ (by omega)) ?_ fun k hlt => ?_
  · have hat : (s.lnk.roundRobin + 1 + (i + 15 - s.lnk.roundRobin) % 16) % 16 = i := by omega
    simp [hat, ho]
  · have h := hk k hlt
    dsimp only [Function.comp_apply]
    cases ho : (s.reader ((s.lnk.roundRobin + 1 + k) % 16)).offered with
    | none => rfl
    | some o => rw [ho] at h; simpa using h

theorem State.reader_modReader (s : State) (i j : Nat) (f : ReadStream → ReadStream) :
    (s.modReader i f).reader j = if i = j ∧ i < 16 then f (s.reader i) else s.reader j :=
  State.reader_setReader ..

theorem ReadStream.offerNext_eq (r : ReadStream) : ∃ o, r.offerNext = { r with offered := o } := by
  unfold ReadStream.offerNext
  split
  · split
    · split
      · exact ⟨_, rfl⟩
      · exact ⟨r.offered, rfl⟩
    · exact ⟨r.offered, rfl⟩
  · exact ⟨r.offered, rfl⟩

/-- A stream with chunks in flight does not end with its settling: at most its next message is offered (R131). -/
theorem State.readerSettle_of_flights {s : State} {i : Nat} (hi : i < 16) (hf : (s.reader i).flights ≠ []) :
    ∃ o, s.readerSettle i = s.setReader i { s.reader i with offered := o } := by
  obtain ⟨o, ho⟩ := (s.reader i).offerNext_eq
  have hmod : s.modReader i ReadStream.offerNext = s.setReader i { s.reader i with offered := o } := by
    rw [State.modReader, ho]
  have hnot : ((s.setReader i { s.reader i with offered := o }).reader i).finished = false := by
    rw [State.reader_setReader, if_pos ⟨rfl, hi⟩]
    simp [ReadStream.finished, ReadStream.drained, hf]
  refine ⟨o, ?_⟩
  unfold State.readerSettle
  dsimp only
  rw [hmod, hnot]
  rfl

/-- The count of bytes delivered under a grant moves on, and not for the owner's access (R116, R131). -/
def State.deliveredMore (s : State) (g len : Nat) : State :=
  if g = ownerAccess then s else s.setGrant g { s.grant g with delivered := deliveredUp (s.grant g).delivered len }

theorem State.deliveredMore_eq (s : State) (g len : Nat) :
    s.deliveredMore g len = { s with rds := { s.rds with grants := (s.deliveredMore g len).rds.grants } } := by
  unfold State.deliveredMore
  split <;> rfl

theorem State.reader_deliveredMore (s : State) (g len i : Nat) : (s.deliveredMore g len).reader i = s.reader i := by
  rw [State.deliveredMore_eq]; rfl

theorem State.grant_deliveredMore {s : State} {g len : Nat} (hg : g < 64) :
    ((s.deliveredMore g len).grant g).delivered = deliveredUp (s.grant g).delivered len := by
  have hne : g ≠ ownerAccess := by simp only [ownerAccess]; omega
  rw [State.deliveredMore, if_neg hne, State.grant_setGrant, if_pos ⟨rfl, hg⟩]

/-- A stream's record after one of its DATA messages has been sent (R131). -/
def ReadStream.sentMore (r : ReadStream) (past len : Nat) (f : Flight) (fs : List Flight) : ReadStream :=
  { r with sending := none, delivered := past, sent := r.sent + len, flights := { f with sent := past } :: fs }

/-- A DATA message that leaves more of its chunk to deliver moves the delivered-to offset and the counts on (R131). -/
theorem State.messageSent_of_more {s : State} {i past len g : Nat} {f : Flight} {fs : List Flight} (hi : i < 16)
    (hs : (s.reader i).state = .running) (hf : (s.reader i).flights = f :: fs) (hg : (s.reader i).grant = some g)
    (hu : past < f.upto) : s.messageSent i past len =
      ((s.setReader i ((s.reader i).sentMore past len f fs)).deliveredMore g len).readerSettle i := by
  have hmore : ¬f.upto ≤ past := by omega
  unfold State.messageSent
  simp only [State.modReader, hf, State.reader_setReader, hi, and_self, if_true, hg, hs, hmore, reduceCtorEq, or_self,
    if_false, State.deliveredMore, ReadStream.sentMore]

/-- Settles O16: the arbiter's choice, and what each kind of message leaves when it has been sent. -/
theorem outboundLane : Obligations.OutboundLane := by
  refine ⟨fun s r rest hl hp hb hq => ?_, fun s n fs hl hp hb hq hn hs hm => ?_,
    fun s i off bs hl hp hb hq hn hi ho hk hr => ?_, fun s r hl => ?_, fun s n fs hl => ?_,
    fun s i off bs f fs g hl hi hs hf hg hu => ?_, fun s i o f fs hi ho hb hf => ?_⟩
  · refine (execMessageBegin_of_free hl hp hb).trans ?_
    rw [State.arbitrate, hq]
    rfl
  · refine ⟨_, execMessageBegin_of_free hl hp hb, ?_⟩
    rw [State.arbitrate, hq, Lnk.nextNotice_of_lowest hn hs hm]
    by_cases h31 : n = 31
    · subst h31; exact ⟨rfl, rfl, rfl⟩
    · have h31' : ¬n = slotScrub := h31
      dsimp only [State.beginNotice]
      rw [if_neg h31', if_neg h31]
      exact ⟨rfl, rfl, rfl⟩
  · refine ⟨_, execMessageBegin_of_free hl hp hb, ?_⟩
    rw [State.arbitrate, hq, Lnk.nextNotice_of_none hn, State.nextData_of_first hi ho hk hr]
    dsimp only [State.beginData]
    refine ⟨rfl, rfl, ?_, ?_, fun j hj => ?_, rfl⟩
    · rw [State.reader_modReader, if_pos ⟨rfl, hi⟩]
    · rw [State.reader_modReader, if_pos ⟨rfl, hi⟩]
    · rw [State.reader_modReader, if_neg fun h => hj h.1.symm]
      rfl
  · change execReplySent s = _
    rw [execReplySent, hl]
    rfl
  · change execNoticeSent s = _
    rw [execNoticeSent, hl]
    rfl
  · have hexec : execDataMessageSent s = .next
        ((s.onLnk fun l => { l with lane := none, laneBytes := [] }).messageSent i (off + bs.length) bs.length) := by
      rw [execDataMessageSent, hl]
    have hsent := State.messageSent_of_more (s := s.onLnk fun l => { l with lane := none, laneBytes := [] })
      (len := bs.length) hi hs hf hg hu
    generalize hu₁ : (s.onLnk fun l => { l with lane := none, laneBytes := [] }) = u at hexec hsent
    have hreader : u.reader i = s.reader i := by rw [← hu₁]; rfl
    have hat : ((u.setReader i ((u.reader i).sentMore (off + bs.length) bs.length f fs)).deliveredMore g bs.length).reader i =
        (s.reader i).sentMore (off + bs.length) bs.length f fs := by
      rw [State.reader_deliveredMore, State.reader_setReader, if_pos ⟨rfl, hi⟩, hreader]
    obtain ⟨o, ho⟩ := State.readerSettle_of_flights hi (by rw [hat]; simp [ReadStream.sentMore])
    rw [hsent, ho, hat] at hexec
    refine ⟨_, hexec, ?_⟩
    simp only [State.reader_setReader, hi, and_self, if_true]
    refine ⟨?_, hs, rfl, rfl, rfl, rfl, fun hg => ?_, ?_⟩
    · rw [State.deliveredMore_eq]; subst hu₁; rfl
    · rw [State.grant_setReader, State.grant_deliveredMore hg]; subst hu₁; rfl
    · rw [State.deliveredMore_eq]; subst hu₁; rfl
  · have hexec : execDataBytesRead i false s = .next (s.setReader i { s.reader i with
        offered := some { o with bytes := some ((f.bytes.drop (o.offset - f.base)).take o.length) } }) := by
      simp [execDataBytesRead, ho, hf, hb]
    refine ⟨_, hexec, ?_, rfl⟩
    rw [State.reader_setReader, if_pos ⟨rfl, hi⟩]

end Sys2Proof.Machine

/-! # Proofs: the drive formats -/

namespace Sys2Proof.Machine

/-! ## What is written to a drive -/

theorem fieldBytes_cons (f : Field) (fs : List Field) :
    fieldBytes (f :: fs) = leBytes f.size f.value ++ fieldBytes fs := rfl

theorem length_fieldBytes (fs : List Field) : (fieldBytes fs).length = (fs.map Field.size).sum := by
  induction fs with
  | nil => rfl
  | cons f fs ih => simp [fieldBytes_cons, ih]

/-- Fields that fit their sizes are read back as written. -/
theorem readFields_fieldBytes {fs : List Field} (h : ∀ f ∈ fs, f.value < 256 ^ f.size) (rest : List Byte) :
    readFields (fs.map Field.size) (fieldBytes fs ++ rest) = fs.map Field.value := by
  induction fs with
  | nil => rfl
  | cons f fs ih =>
    rw [fieldBytes_cons, List.append_assoc, List.map_cons, readFields_leBytes (h f (by simp)),
      ih fun g hg => h g (by simp [hg]), List.map_cons]

/-- A run of bytes with its CRC-32 behind it checks. -/
theorem crcHolds_withCrc (bs : List Byte) : crcHolds (withCrc bs) = true := by
  have hlen : (withCrc bs).length - 4 = bs.length := by simp [withCrc]
  unfold crcHolds
  rw [hlen, withCrc, List.take_left' rfl, List.drop_left' rfl,
    leValue_leBytes_of_lt (BitVec.isLt (crc32 bs))]
  simp

theorem length_withCrc (bs : List Byte) : (withCrc bs).length = bs.length + 4 := by simp [withCrc]

/-- The fields of a recipe record (R52). -/
def RecipeRec.layout : RecipeRec → List Field
  | .segment o ord hs => [⟨2, 0⟩, ⟨2, o⟩, ⟨2, ord⟩, ⟨2, hs.length⟩] ++ hs.map fun h => ⟨4, h⟩
  | .closing o len chunks kind owner al segs =>
    [⟨2, 1⟩, ⟨2, o⟩, ⟨6, len⟩, ⟨4, chunks⟩, ⟨1, kind⟩, ⟨1, owner⟩, ⟨4, al.toNat⟩, ⟨4, segs⟩]
  | .albums o al => [⟨2, 2⟩, ⟨2, o⟩, ⟨4, al.toNat⟩]
  | .release o => [⟨2, 3⟩, ⟨2, o⟩]

theorem fieldBytes_append (fs gs : List Field) : fieldBytes (fs ++ gs) = fieldBytes fs ++ fieldBytes gs := by
  simp [fieldBytes]

theorem RecipeRec.bytes_eq (r : RecipeRec) : r.bytes = withCrc (fieldBytes r.layout) := by
  cases r with
  | segment o ord hs =>
    rw [RecipeRec.layout, fieldBytes_append, RecipeRec.bytes]
    simp [fieldBytes, Function.comp_def]
  | closing => simp [RecipeRec.bytes, RecipeRec.layout, fieldBytes]
  | albums => simp [RecipeRec.bytes, RecipeRec.layout, fieldBytes]
  | release => simp [RecipeRec.bytes, RecipeRec.layout, fieldBytes]

theorem RecipeRec.length_bytes (r : RecipeRec) : r.bytes.length = r.size := by
  rw [RecipeRec.bytes_eq, length_withCrc, length_fieldBytes]
  cases r with
  | segment o ord hs => simp [RecipeRec.layout, RecipeRec.size, Function.comp_def, List.map_const']; omega
  | closing => rfl
  | albums => rfl
  | release => rfl

/-- The bytes of a record begin with its fields. -/
theorem RecipeRec.readFields_bytes {r : RecipeRec} (h : ∀ f ∈ r.layout, f.value < 256 ^ f.size) (rest : List Byte) :
    readFields (r.layout.map Field.size) (r.bytes ++ rest) = r.layout.map Field.value := by
  rw [RecipeRec.bytes_eq, withCrc, List.append_assoc, readFields_fieldBytes h]

/-- The first field of a record is the number of its kind. -/
theorem RecipeRec.bytes_kind (r : RecipeRec) : ∃ more, r.bytes = leBytes 2 r.kind ++ more := by
  obtain ⟨fs, hfs⟩ : ∃ fs, r.layout = ⟨2, r.kind⟩ :: fs := by cases r <;> exact ⟨_, rfl⟩
  exact ⟨_, by rw [RecipeRec.bytes_eq, hfs, withCrc, fieldBytes_cons, List.append_assoc]⟩

theorem readFields_of_kind (k : Nat) (hk : k < 65536) (ns : List Nat) (more : List Byte) :
    readFields (2 :: ns) (leBytes 2 k ++ more) = k :: readFields ns more := readFields_leBytes (by omega) ns more

theorem RecipeRec.kind_lt (r : RecipeRec) : r.kind < 65536 := by cases r <;> simp [RecipeRec.kind]

/-- A SEGMENT record is its four fields, its handles and its CRC. -/
theorem segment_bytes (o ord : Nat) (hs : List Nat) : ∃ crc, (RecipeRec.segment o ord hs).bytes =
    fieldBytes [⟨2, 0⟩, ⟨2, o⟩, ⟨2, ord⟩, ⟨2, hs.length⟩] ++
      (fieldBytes (hs.map fun h => ⟨4, h⟩) ++ leBytes 4 crc) :=
  ⟨_, by rw [RecipeRec.bytes_eq, withCrc, RecipeRec.layout, fieldBytes_append, List.append_assoc]⟩

theorem readFields_segment {o ord : Nat} {hs : List Nat}
    (h : ∀ f ∈ (RecipeRec.segment o ord hs).layout, f.value < 256 ^ f.size) (rest : List Byte) :
    readFields [2, 2, 2, 2] ((RecipeRec.segment o ord hs).bytes ++ rest) = [0, o, ord, hs.length] := by
  obtain ⟨crc, hb⟩ := segment_bytes o ord hs
  rw [hb, List.append_assoc]
  exact readFields_fieldBytes (fs := [⟨2, 0⟩, ⟨2, o⟩, ⟨2, ord⟩, ⟨2, hs.length⟩])
    (fun f hf => h f (List.mem_append_left _ hf)) _

/-- The handles of a SEGMENT record are read back from behind its four fields. -/
theorem readFields_handles {o ord : Nat} {hs : List Nat}
    (h : ∀ f ∈ (RecipeRec.segment o ord hs).layout, f.value < 256 ^ f.size) :
    readFields (List.replicate hs.length 4) ((RecipeRec.segment o ord hs).bytes.drop 8) = hs := by
  obtain ⟨crc, hb⟩ := segment_bytes o ord hs
  have hfit : ∀ f ∈ hs.map fun h => (⟨4, h⟩ : Field), f.value < 256 ^ f.size :=
    fun f hf => h f (List.mem_append_right _ hf)
  have hread := readFields_fieldBytes hfit (leBytes 4 crc)
  rw [hb, List.drop_left' (show _ = 8 by simp [length_fieldBytes])]
  simpa [Function.comp_def, List.map_const'] using hread

/-- The size of a record is found from its own bytes. -/
theorem recordSizeAt_bytes {r : RecipeRec} (h : ∀ f ∈ r.layout, f.value < 256 ^ f.size) (rest : List Byte) :
    recordSizeAt (r.bytes ++ rest) = r.size := by
  cases r with
  | segment o ord hs =>
    rw [recordSizeAt, readFields_segment h]
    rfl
  | closing =>
    obtain ⟨more, hm⟩ := RecipeRec.bytes_kind (.closing _ _ _ _ _ _ _)
    rw [recordSizeAt, hm, List.append_assoc, readFields_of_kind _ (RecipeRec.kind_lt _)]
    rfl
  | albums =>
    obtain ⟨more, hm⟩ := RecipeRec.bytes_kind (.albums _ _)
    rw [recordSizeAt, hm, List.append_assoc, readFields_of_kind _ (RecipeRec.kind_lt _)]
    rfl
  | release =>
    obtain ⟨more, hm⟩ := RecipeRec.bytes_kind (.release _)
    rw [recordSizeAt, hm, List.append_assoc, readFields_of_kind _ (RecipeRec.kind_lt _)]
    rfl

/-- What `RecipeRec.parse` reads of a record's own bytes, once the size and the CRC check. -/
theorem RecipeRec.parse_bytes {r : RecipeRec} (h : ∀ f ∈ r.layout, f.value < 256 ^ f.size)
    (hs : ∀ o ord hs, r = .segment o ord hs → 1 ≤ hs.length ∧ hs.length ≤ 4096) (rest : List Byte) :
    RecipeRec.parse (r.bytes ++ rest) = some r := by
  have htake : (r.bytes ++ rest).take r.size = r.bytes := List.take_left' r.length_bytes
  have hcrc : crcHolds r.bytes = true := by rw [RecipeRec.bytes_eq]; exact crcHolds_withCrc _
  have hkind : readFields [2] r.bytes = [r.kind] := by
    obtain ⟨more, hm⟩ := r.bytes_kind
    rw [hm, readFields_of_kind _ r.kind_lt]; rfl
  have hread := RecipeRec.readFields_bytes h []
  rw [List.append_nil] at hread
  unfold RecipeRec.parse
  rw [recordSizeAt_bytes h]
  dsimp only
  rw [htake, if_neg (by simp [hcrc, RecipeRec.length_bytes]), hkind]
  cases r with
  | segment o ord hs' =>
    obtain ⟨hl, hm⟩ := hs _ _ _ rfl
    have hhead := readFields_segment h []
    rw [List.append_nil] at hhead
    simp only [RecipeRec.kind, hhead, readFields_handles h]
    rw [if_pos ⟨hl, hm⟩]
  | closing o len chunks kind owner al segs =>
    simp only [RecipeRec.kind, RecipeRec.layout, List.map_cons, List.map_nil] at hread ⊢
    rw [hread]
    simp
  | albums o al =>
    simp only [RecipeRec.kind, RecipeRec.layout, List.map_cons, List.map_nil] at hread ⊢
    rw [hread]
    simp
  | release o =>
    simp only [RecipeRec.kind, RecipeRec.layout, List.map_cons, List.map_nil] at hread ⊢
    rw [hread]

/-- A unit that begins with checked fields. -/
theorem crcHolds_padTo {n k : Nat} {bs : List Byte} (hk : (withCrc bs).length = k) (hn : k ≤ n) :
    crcHolds ((padTo n (withCrc bs)).take k) = true := by
  have hpad : (padTo n (withCrc bs)).take k = withCrc bs := by
    rw [padTo, List.take_of_length_le (l := withCrc bs) (by omega), List.take_left' hk]
  rw [hpad, crcHolds_withCrc]

theorem readFields_padTo {n : Nat} {fs : List Field} (h : ∀ f ∈ fs, f.value < 256 ^ f.size)
    (hn : (withCrc (fieldBytes fs)).length ≤ n) :
    readFields (fs.map Field.size) (padTo n (withCrc (fieldBytes fs))) = fs.map Field.value := by
  rw [padTo, List.take_of_length_le hn, withCrc, List.append_assoc, readFields_fieldBytes h]

theorem layoutOf_code (l : Layout) : layoutOf l.code = some l := by cases l <;> rfl


/-- The fields of a member label (R184). -/
def Label.fields (l : Label) : List Field :=
  [⟨4, l.number⟩, ⟨1, l.layout.code⟩, ⟨1, l.layout.members⟩, ⟨1, l.position⟩, ⟨4, l.reserved⟩, ⟨4, l.containers⟩,
   ⟨4, l.buckets⟩, ⟨6, l.memory⟩, ⟨1, if l.incomplete then 1 else 0⟩, ⟨1, if l.adoption.isSome then 1 else 0⟩,
   ⟨6, l.adoption.getD 0⟩]

theorem Label.bytes_eq (l : Label) : l.bytes = padTo unitSize (withCrc (fieldBytes l.fields)) := rfl

theorem memorySizes_le {m : Nat} (h : memorySizes.contains m = true) : m ≤ 4294967296 := by
  simp [memorySizes] at h
  omega

theorem bucketCountGood_le {b : Nat} (h : bucketCountGood b = true) : b ≤ 4194304 := by
  simp [bucketCountGood, bucketCounts] at h
  omega

theorem Label.parse_bytes (l : Label) (hn : l.number < 4294967296) (hp : l.position < l.layout.members)
    (hc : 1 ≤ l.containers) (hc' : l.containers ≤ 67108864) (hr : l.reserved = reservedFor l.memory)
    (hm : memorySizes.contains l.memory = true) (hb : bucketCountGood l.buckets = true)
    (ha : ∀ q, l.adoption = some q → q < 281474976710656) : Label.parse l.bytes = some l := by
  have hmem := memorySizes_le hm
  have hbuckets := bucketCountGood_le hb
  have hcode : l.layout.code < 256 := by cases l.layout <;> decide
  have hmembers : l.layout.members < 256 := by cases l.layout <;> decide
  have hreserved : l.reserved < 4294967296 := by
    have h : reservedFor l.memory = l.memory / 65536 - 175 := rfl
    omega
  have hadopt : l.adoption.getD 0 < 281474976710656 := by
    cases h : l.adoption with
    | none => decide
    | some q => exact ha q h
  have hfit : ∀ f ∈ l.fields, f.value < 256 ^ f.size := by
    simp only [Label.fields, List.forall_mem_cons]
    refine ⟨hn, hcode, hmembers, by omega, hreserved, by omega, by omega, by omega, ?_, ?_, hadopt, by simp⟩
    · cases l.incomplete <;> decide
    · cases l.adoption.isSome <;> decide
  have hlen : (withCrc (fieldBytes l.fields)).length = 37 := by rw [length_withCrc, length_fieldBytes]; rfl
  have hread := readFields_padTo (n := unitSize) hfit (by rw [hlen]; decide)
  unfold Label.parse
  rw [Label.bytes_eq, crcHolds_padTo hlen (by decide), if_neg (by decide)]
  simp only [Label.fields, List.map_cons, List.map_nil] at hread ⊢
  rw [hread]
  simp only [layoutOf_code]
  have hincomplete : (if l.incomplete = true then 1 else 0) ≤ 1 := by split <;> omega
  have hadoption : (if l.adoption.isSome = true then 1 else 0) ≤ 1 := by split <;> omega
  rw [if_pos ⟨trivial, hp, hc, hc', hb, hm, hr, hincomplete, hadoption⟩]
  obtain ⟨number, layout, position, reserved, containers, buckets, memory, incomplete, adoption⟩ := l
  cases incomplete <;> cases adoption <;> rfl

/-- The fields of a slot header (R185). -/
def SlotHeader.layout (h : SlotHeader) : List Field :=
  [⟨4, h.number⟩, ⟨6, h.seq⟩, ⟨6, h.q⟩, ⟨4, h.buckets⟩, ⟨4, h.containers⟩, ⟨4, h.pool⟩, ⟨4, h.fence⟩, ⟨4, h.cursor⟩,
   ⟨4, h.pass⟩, ⟨4, h.freeHead⟩, ⟨4, h.freeLength⟩, ⟨4, h.quarantineHead⟩, ⟨4, h.quarantineLength⟩, ⟨6, h.bodyLength⟩,
   ⟨4, h.bodyCrc.toNat⟩]

theorem SlotHeader.parse_bytes (h : SlotHeader) (hfit : ∀ f ∈ h.layout, f.value < 256 ^ f.size) :
    SlotHeader.parse h.bytes = some h := by
  have hbytes : h.bytes = padTo unitSize (withCrc (fieldBytes h.layout)) := rfl
  have hlen : (withCrc (fieldBytes h.layout)).length = 70 := by rw [length_withCrc, length_fieldBytes]; rfl
  have hread := readFields_padTo (n := unitSize) hfit (by rw [hlen]; decide)
  unfold SlotHeader.parse
  rw [hbytes, crcHolds_padTo hlen (by decide), if_neg (by decide)]
  simp only [SlotHeader.layout, List.map_cons, List.map_nil] at hread ⊢
  rw [hread]
  simp

/-- Settles O41: each format's fields fit their sizes, and the CRC behind them checks. -/
theorem driveFormatsRoundTrip : Obligations.DriveFormatsRoundTrip := by
  refine ⟨fun o ord hs rest ho hord hl hm hh => ?_, fun o len chunks kind owner al segs rest ho hlen hc hk how hsg => ?_,
    fun o al rest ho => ⟨?_, ?_⟩, fun l hn hp hc hc' hr hm hb ha => ?_, fun h h1 h2 h3 h4 h5 h6 h7 h8 h9 h10 h11 h12 h13 h14 => ?_⟩
  · refine RecipeRec.parse_bytes ?_ ?_ rest
    · simpa [RecipeRec.layout, ho, hord] using ⟨by omega, hh⟩
    · rintro _ _ _ ⟨⟩; exact ⟨hl, hm⟩
  · refine RecipeRec.parse_bytes ?_ (by simp) rest
    simpa [RecipeRec.layout] using ⟨ho, hlen, hc, hk, how, al.isLt, hsg⟩
  · refine RecipeRec.parse_bytes ?_ (by simp) rest
    simpa [RecipeRec.layout] using ⟨ho, al.isLt⟩
  · refine RecipeRec.parse_bytes ?_ (by simp) rest
    simpa [RecipeRec.layout] using ho
  · exact Label.parse_bytes l hn hp hc hc' hr hm hb ha
  · refine SlotHeader.parse_bytes h ?_
    simpa [SlotHeader.layout] using ⟨h1, h2, h3, h4, h5, h6, h7, h8, h9, h10, h11, h12, h13, h14, h.bodyCrc.isLt⟩

end Sys2Proof.Machine

/-! # Proofs: Ingest: opening, filling, ending -/

namespace Sys2Proof.Machine

/-- A command that answers a known next state completes with what holds of that state. -/
theorem completes_of_eq {c : Instr} {s u : State} {P : State → Prop} (h : exec c s = .next u) (hp : ∀ t, t = u → P t) :
    Completes c s P := ⟨u, h, hp u rfl⟩

theorem State.setObj_tables_self (s : State) (o : Nat) (v : Option Obj) :
    (s.setObj o v).tables = s.tables.setObj o ((s.setObj o v).obj o) := by
  rw [State.obj_setObj, if_pos rfl]; rfl

/-! ## Streams -/

theorem State.stream_modStream (s : State) (i j : Nat) (f : Stream → Stream) :
    (s.modStream i f).stream j = if i = j ∧ i < 8 then f (s.stream i) else s.stream j := State.stream_setStream ..

theorem State.stream_setStream_same {s : State} {i : Nat} (hi : i < 8) (v : Stream) :
    (s.setStream i v).stream i = v := by rw [State.stream_setStream, if_pos ⟨rfl, hi⟩]

theorem State.stream_setStream_other {s : State} {i j : Nat} (h : j ≠ i) (v : Stream) :
    (s.setStream i v).stream j = s.stream j := by rw [State.stream_setStream, if_neg fun hc => h hc.1.symm]

/-- The lowest FREE stream is the one that is taken (R2). -/
theorem State.freeStreamNo_of_lowest {s : State} {i : Nat} (hi : i < 8) (hf : (s.stream i).state = .free)
    (hm : ∀ j < i, (s.stream j).state ≠ .free) : s.freeStreamNo = some i := by
  unfold State.freeStreamNo
  rw [List.find?_range_eq_some]
  exact ⟨by simpa using hf, by simpa using hi, fun j hj => by simpa using hm j hj⟩

theorem State.running_iff (s : State) : s.running = true ↔ s.pwc.box = .run ∧ s.ctm.state.attached = true := by
  simp [State.running]

theorem State.not_failed_of_running {s : State} (h : s.running = true) : s.ctm.state ≠ .failed := by
  intro hf
  have hattached := ((State.running_iff s).1 h).2
  rw [hf] at hattached
  cases hattached

theorem State.maxOrder_eq (s : State) : s.maxOrder =
    if s.inUse = true ∧ (s.tables.array.map fun a => a.layout) = some .mirror2 then 13 else 14 := by
  unfold State.maxOrder State.layout State.arr
  cases s.inUse <;> cases s.tables.array <;> simp

theorem State.running_taken (s : State) (c : Instr) : (s.taken c).running = s.running := rfl

/-- Settles O18: the equations of the two requests. -/
theorem ingestOpens : Obligations.IngestOpens := by
  refine ⟨fun s tag kind owner albums i o hk hr hi hf hm ho => ?_, fun s tag k => ?_⟩
  · have hexec : exec (.openIngest tag kind owner albums) s = .next
        ((s.taken (.openIngest tag kind owner albums)).openIngest tag kind owner albums) := rfl
    have hstream : (s.taken (.openIngest tag kind owner albums)).freeStreamNo = some i :=
      State.freeStreamNo_of_lowest hi hf hm
    have hid : (s.taken (.openIngest tag kind owner albums)).freeId = some o := ho
    rw [State.openIngest, if_neg (by omega), if_neg (by exact State.not_failed_of_running hr),
      if_neg (by rw [State.running_taken, hr]; decide), hstream] at hexec
    dsimp only at hexec
    rw [hid] at hexec
    dsimp only at hexec
    rw [State.answer_of_handedOver rfl] at hexec
    refine completes_of_eq hexec fun t ht => ?_
    have htables : t.tables = s.tables.setObj o (t.obj o) := by rw [ht]; exact State.setObj_tables_self s o _
    refine ⟨?_, fun j hj => ?_, ?_, fun p hp => ?_, ?_, ?_, ?_, ?_⟩
    · rw [ht]; exact State.stream_setStream_same hi _
    · rw [ht]; exact State.stream_setStream_other hj _
    · rw [ht]; exact (State.obj_setObj ..).trans (if_pos rfl)
    · rw [ht]; exact (State.obj_setObj ..).trans (if_neg hp)
    · rw [ht]; rfl
    · rw [ht]; rfl
    · rw [ht]; rfl
    · rw [← htables, ht]; rfl
  · intro top hs
    change Host.Outcome.next ((s.taken _).setChunking tag k) = _
    rw [State.setChunking]
    dsimp only
    rw [if_neg (by exact hs), State.answer_of_handedOver rfl, State.maxOrder_eq]
    rfl

/-! ## Rings in the memory (R6) -/

theorem Memory.get_ringWrite_other {i a : Nat} {bs : List Byte} {m : List Host.Cell} {o : Nat}
    (h : ∀ n < bs.length, a ≠ ringAddress i (o + n)) : Memory.get (ringWrite i m o bs) a = Memory.get m a := by
  induction bs generalizing m o with
  | nil => rfl
  | cons b bs ih =>
    have hhead : a ≠ ringAddress i o := h 0 (by simp)
    rw [ringWrite, ih fun n hn => ?_, Memory.get_put, if_neg hhead]
    have := h (n + 1) (by simp; omega)
    rwa [show o + 1 + n = o + (n + 1) by omega]

/-- Ring offsets less than the ring's size apart lie at addresses of their own. -/
theorem ringAddress_ne {i o m n : Nat} (hmn : m < n) (hn : n < m + ringSize) :
    ringAddress i (o + m) ≠ ringAddress i (o + n) := by
  simp only [ringAddress, ringSize] at *
  omega

theorem Memory.get_ringWrite {i n : Nat} {bs : List Byte} {m : List Host.Cell} {o : Nat} (hl : bs.length ≤ ringSize)
    (hn : n < bs.length) : Memory.get (ringWrite i m o bs) (ringAddress i (o + n)) = bs[n]?.getD 0 := by
  induction bs generalizing m o n with
  | nil => simp at hn
  | cons b bs ih =>
    simp only [List.length_cons] at hl hn
    cases n with
    | zero =>
      rw [Nat.add_zero, ringWrite, Memory.get_ringWrite_other fun k hk => ?_, Memory.get_put, if_pos rfl]
      · rfl
      · rw [show o + 1 + k = o + (k + 1) by omega]
        exact ringAddress_ne (m := 0) (by omega) (by omega)
    | succ n =>
      rw [ringWrite, show o + (n + 1) = o + 1 + n by omega, ih (by omega) (by omega)]
      rfl

/-- Giving bad words their bytes leaves every byte outside them (R180). -/
theorem Memory.get_rewords {s : State} {touch : Nat → Bool} {a : Nat}
    (h : ∀ x ∈ s.mec.bad, touch x = true → a < x ∨ x + 8 ≤ a) :
    Memory.get (s.rewords touch).mem a = Memory.get s.mem a := by
  have hbad : ∀ x ∈ s.mec.bad.filter touch, a < x ∨ x + 8 ≤ a := fun x hx =>
    h x (List.mem_filter.1 hx).1 (List.mem_filter.1 hx).2
  unfold State.rewords
  dsimp only
  generalize s.mec.bad.filter touch = bad at hbad
  generalize s.mem = m
  induction bad generalizing m with
  | nil => rfl
  | cons x xs ih =>
    rw [List.foldl_cons, ih fun y hy => hbad y (by simp [hy]), Memory.get_write, if_neg]
    have := hbad x (by simp)
    simp only [List.length_map, List.length_range]
    omega

theorem State.writeRing_eq (s : State) (i o : Nat) (bs : List Byte) : s.writeRing i o bs = { s with
    mem := (s.writeRing i o bs).mem,
    mec := { s.mec with bad := s.mec.bad.filter fun x =>
      !((List.range bs.length).any fun n => wordTouches (ringAddress i (o + n)) 1 x) } } := rfl

/-- The branch of INGEST_DATA that its checks of the request lead to (R5, R6). -/
theorem State.ingestData_of_open {s : State} {tag i : Nat} {data : List Byte} (hi : i < 8) (hr : s.running = true)
    (ho : (s.stream i).state = .opened)
    (hl : (s.stream i).received + data.length ≤ byteLimit ((s.stream i).k.getD 13)) :
    s.ingestData tag i (s.stream i).received data =
      if (s.stream i).freeSpace < data.length then s.ingestReply tag i .busy
      else ((s.writeRing i (s.stream i).received data).setStream i
        { s.stream i with received := (s.stream i).received + data.length }).ingestReply tag i .ok := by
  unfold State.ingestData
  rw [if_neg (by omega), if_neg (State.not_failed_of_running hr), if_neg (by simp [hr]), if_neg (by simp [ho]),
    if_neg (by simp), if_neg (by omega)]

theorem State.ingestFigures_of_lt (s : State) {i : Nat} (hi : i < 8) :
    s.ingestFigures i = [⟨6, (s.stream i).received⟩, ⟨4, (s.stream i).freeSpace⟩] := if_neg (by omega)

/-- Settles O19: the bytes of the ring after the write, and the branch without room. -/
theorem ingestDataFillsRing : Obligations.IngestDataFillsRing := by
  refine ⟨fun s tag i data hi hr ho hl hf => ?_, fun s tag i data hi hr ho hl hf => ?_⟩
  · have hsize : data.length ≤ ringSize := by
      refine Nat.le_trans hf ?_
      simp only [Stream.freeSpace]; omega
    have hexec : exec (.ingestData tag i (s.stream i).received data) s = .next
        ((s.taken (.ingestData tag i (s.stream i).received data)).ingestData tag i (s.stream i).received data) := rfl
    have hopen := State.ingestData_of_open (s := s.taken (.ingestData tag i (s.stream i).received data)) (tag := tag) hi hr ho hl
    rw [if_neg (by exact Nat.not_lt.2 hf), State.ingestReply, State.answer_of_handedOver rfl] at hopen
    refine completes_of_eq (hexec.trans (congrArg _ hopen)) fun t ht => ?_
    have hstream : t.stream i = { s.stream i with received := (s.stream i).received + data.length } := by
      rw [ht]; exact State.stream_setStream_same hi _
    refine ⟨fun n hn => ?_, fun a hring hbad => ?_, ?_, hstream, fun j hj => ?_, ?_, ?_, ?_⟩
    · rw [ht]; exact Memory.get_ringWrite hsize hn
    · rw [ht]; exact (Memory.get_ringWrite_other hring).trans (Memory.get_rewords (s := s) hbad)
    · rw [ht]; rfl
    · rw [ht]; exact State.stream_setStream_other hj _
    · rw [ht]; rfl
    · rw [← State.ingestFigures_of_lt t hi, ht]
      exact congrArg (fun fs => s.lnk.answered _ (ownerReply tag kindIngestData .ok fs)) rfl
    · rw [ht]; rfl
  · have hopen := State.ingestData_of_open (s := s.taken (.ingestData tag i (s.stream i).received data)) (tag := tag) hi hr ho hl
    rw [if_pos (by exact hf), State.ingestReply, State.ingestFigures_of_lt _ hi, State.answer_of_handedOver rfl] at hopen
    exact congrArg Host.Outcome.next hopen

/-! ## How ingest streams end (R18 to R22) -/

theorem State.setStream_stream_self (s : State) (i : Nat) : s.setStream i (s.stream i) = s := by
  have hv : s.ing.streams.setIfInBounds i (s.stream i) = s.ing.streams := by
    apply Vector.ext
    intro j hj
    rw [Vector.getElem_setIfInBounds hj]
    split
    · next h => subst h; simp [State.stream, hj]
    · rfl
  unfold State.setStream
  rw [hv]

theorem Stream.freeSpan_eq (t : Stream) (start len : Nat) :
    t.freeSpan start len = { t with oldest := (t.freeSpan start len).oldest, freed := (t.freeSpan start len).freed } := by
  unfold Stream.freeSpan
  split <;> rfl

theorem State.withdrawVerifies_of_none {s : State} {i : Nat} (h : s.waitingReads (ReadWho.isVerifyOf i) = []) :
    s.withdrawVerifies i = s := by
  unfold State.withdrawVerifies
  rw [h]
  refine Eq.trans (congrArg (s.setStream i) ?_) (s.setStream_stream_self i)
  have hq : ((s.stream i).queue.map fun r =>
      if ([] : List Nat).contains r.no then { r with work := .drop .unreadable } else r) = (s.stream i).queue :=
    List.map_id' _
  exact congrArg (fun q => { s.stream i with queue := q }) hq

theorem State.filled_of_object {s : State} {i o : Nat} {r : Obj} (ho : (s.stream i).object = some o)
    (hg : (s.stream i).gone = false) (hr : s.obj o = some r) : s.filled i = some (o, r) := by
  simp [State.filled, hg, ho, hr]

theorem State.mem_joinRelease (s : State) (o : Nat) : o ∈ (s.joinRelease o).oru.queue := by
  change o ∈ (if s.oru.queue.contains o then s.oru.queue else s.oru.queue ++ [o])
  split
  · next h => simpa using h
  · simp

/-- The end of an abort's work: the stream's object, which is not LOST, is sent into release (R21). -/
theorem State.abortSettle_of_object {s : State} {i o : Nat} {r : Obj} (ht : (s.stream i).state = .aborting)
    (hq : (s.stream i).queue = []) (hn : (s.stream i).queued = false) (ho : (s.stream i).object = some o)
    (hg : (s.stream i).gone = false) (hr : s.obj o = some r) (hs : r.state ≠ .lost) :
    s.abortSettle i = ((s.setStream i { s.stream i with queued := true, recipe := [] }).setObj o (some { r with
      state := .releasing, stream := none, tail := some (s.stream i).recipe, walk := some Walk.start })).joinRelease o := by
  unfold State.abortSettle
  dsimp only
  rw [if_pos ⟨ht, hq, hn⟩, State.filled_of_object ho hg hr]
  exact if_neg hs

/-- The stream of an abort whose resolve queue is empty, as it stands before the abort settles (R21). -/
def Stream.abortBegun (t : Stream) (tag : Nat) : Stream :=
  let u := { t.chunkStart with
    state := .aborting, closeTag := none, abortTag := some tag, writingOut := false, chunked := t.received,
    cause := none, queue := [] }
  if t.chunked - t.curLen < t.received then u.freeSpan (t.chunked - t.curLen) (t.received - (t.chunked - t.curLen)) else u

theorem Stream.abortBegun_eq (t : Stream) (tag : Nat) : t.abortBegun tag = { t.chunkStart with
    state := .aborting, closeTag := none, abortTag := some tag, writingOut := false, chunked := t.received,
    cause := none, queue := [], oldest := (t.abortBegun tag).oldest, freed := (t.abortBegun tag).freed } := by
  unfold Stream.abortBegun
  dsimp only
  split
  · rw [Stream.freeSpan_eq]
  · rfl

/-- An abort of a stream with nothing in its resolve queue and no verify read waiting (R21). -/
theorem State.abortIngest_of_idle {s : State} {tag i : Nat} (hi : i < 8) (hf : s.ctm.state ≠ .failed)
    (ht : (s.stream i).state = .opened ∨ (s.stream i).state = .draining ∨ (s.stream i).state = .faulted)
    (hq : (s.stream i).queue = []) (hv : s.waitingReads (ReadWho.isVerifyOf i) = []) :
    ∃ l, s.abortIngest tag i =
      (({ s with lnk := l }.withdrawPlacements i).setStream i ((s.stream i).abortBegun tag)).abortSettle i := by
  unfold State.abortIngest
  dsimp only
  rw [if_neg (by omega), if_neg hf, if_neg (by grind), hq]
  simp only [List.map_nil, List.filterMap_nil, List.filter_nil, List.foldl_nil, State.each]
  cases (s.stream i).closeTag with
  | none =>
    refine ⟨s.lnk, ?_⟩
    dsimp only
    rw [State.withdrawVerifies_of_none (by exact hv)]
    rfl
  | some close =>
    refine ⟨{ s.lnk with replyQueue := s.lnk.queueAfter close kindCloseIngest .wrongState [] }, ?_⟩
    dsimp only
    rw [State.refuse, State.answer_eq, State.withdrawVerifies_of_none (by exact hv)]
    rfl

/-- A fault of an OPEN stream (R22). -/
theorem State.streamFault_of_opened {s : State} {i : Nat} {cause : FaultCause} (hi : i < 8)
    (ho : (s.stream i).state = .opened) : ∃ l : Lnk, (l.notices[7 + i]?.getD none).isSome = true ∧
    s.streamFault i cause = { (s.setStream i { s.stream i with
      state := .faulted, cause := some cause, closeTag := none, writingOut := false,
      queue := (s.stream i).queue.map ChunkRec.faulted }).withdrawPlacements i with lnk := l } := by
  unfold State.streamFault
  dsimp only
  rw [if_pos (by simp [Stream.active, ho])]
  have hnotice : ∀ fs, ((s.lnk.notices.setIfInBounds (7 + i) (some fs))[7 + i]?.getD none).isSome = true := fun fs => by
    rw [Vector.getElem?_setIfInBounds_self, if_pos (by omega)]; rfl
  cases (s.stream i).closeTag with
  | none => exact ⟨_, hnotice _, rfl⟩
  | some tag =>
    dsimp only
    rw [State.refuse, State.answer_eq]
    exact ⟨_, hnotice _, rfl⟩

/-- Settles O20: the five branches. -/
theorem streamsEnd : Obligations.StreamsEnd := by
  refine ⟨fun s tag i hi hf ho => ?_, fun s tag i o r hi hf ht hq hn hv ho hg hr hs => ?_, fun s i hi hr hc => ?_,
    fun s i q hi hw ho => ?_, fun s i q hw => ?_⟩
  · change Host.Outcome.next ((s.taken _).closeIngest tag i) = _
    rw [State.closeIngest, if_neg (by omega), if_neg (by exact hf), if_neg (by exact not_not_intro ho)]
    rfl
  · obtain ⟨l, hl⟩ : ∃ l, (s.taken (.abortIngest tag i)).abortIngest tag i = ((({ s with lnk := l }).withdrawPlacements i).setStream i
        ((s.stream i).abortBegun tag)).abortSettle i :=
      State.abortIngest_of_idle (s := s.taken (.abortIngest tag i)) hi hf ht hq hv
    have hexec : exec (.abortIngest tag i) s = .next ((s.taken (.abortIngest tag i)).abortIngest tag i) := rfl
    rw [hl] at hexec
    have hstream : ((({ s with lnk := l }).withdrawPlacements i).setStream i
        ((s.stream i).abortBegun tag)).stream i = (s.stream i).abortBegun tag := State.stream_setStream_same hi _
    have hbegun := (s.stream i).abortBegun_eq tag
    generalize (s.stream i).abortBegun tag = u at hbegun hexec hstream
    have hlive : r.state ≠ .lost := by rw [hs]; exact ObjState.noConfusion
    rw [State.abortSettle_of_object (o := o) (r := r) (by rw [hstream, hbegun]) (by rw [hstream, hbegun])
      (by rw [hstream, hbegun]; exact hn) (by rw [hstream, hbegun]; exact ho) (by rw [hstream, hbegun]; exact hg) (by exact hr) hlive,
      hstream] at hexec
    refine completes_of_eq hexec fun t ht => ?_
    have hsame : t.stream i = { u with queued := true, recipe := [] } := by rw [ht]; exact State.stream_setStream_same hi _
    have hobj : t.obj o = some { r with state := .releasing, stream := none, tail := some u.recipe, walk := some Walk.start } := by
      rw [ht]; exact (State.obj_setObj ..).trans (if_pos rfl)
    refine ⟨?_, ?_, ?_, ?_, ?_, fun j hj => ?_, fun p hp => ?_, ?_, ?_⟩
    · rw [hsame, hbegun]
    · rw [hsame, hbegun]
    · rw [hsame]
    · rw [hobj, hbegun]; rfl
    · rw [ht]; exact State.mem_joinRelease ..
    · rw [ht]; exact (State.stream_setStream_other hj _).trans (State.stream_setStream_other hj _)
    · rw [ht]; exact (State.obj_setObj ..).trans (if_neg hp)
    · rw [ht]; rfl
    · rw [ht]; rfl
  · have hstream : (s.modStream i fun t => { t with state := .sealing }).stream i = { s.stream i with state := .sealing } :=
      State.stream_setStream_same hi _
    change Host.Outcome.next (if _ then _ else _) = _
    dsimp only
    have hempty : (s.stream i).recipe.isEmpty = true := by rw [hc]; rfl
    rw [if_pos hr]
    simp only [hstream, hempty, Bool.true_or, if_true]
    rfl
  · have hexec : exec (.ringWordError i q) s = .next ((s.reportTaken .rings).streamFault i .memory) :=
      congrArg Host.Outcome.next (if_pos hw)
    obtain ⟨l, hl, hfault⟩ := State.streamFault_of_opened (s := s.reportTaken .rings) (cause := .memory) hi ho
    rw [hfault] at hexec
    refine completes_of_eq hexec fun t ht => ?_
    have hsame : t.stream i = { s.stream i with
        state := .faulted, cause := some .memory, closeTag := none, writingOut := false,
        queue := (s.stream i).queue.map ChunkRec.faulted } := by
      rw [ht]; exact State.stream_setStream_same hi _
    refine ⟨?_, ?_, ?_, fun j hj => ?_, ?_, ?_⟩
    · rw [hsame]
    · rw [hsame]
    · rw [ht]; exact hl
    · rw [ht]; exact State.stream_setStream_other hj _
    · rw [ht]; rfl
    · rw [ht]; rfl
  · exact ⟨_, congrArg Host.Outcome.next (if_neg (by exact ne_true_of_eq_false hw)), rfl, rfl⟩

end Sys2Proof.Machine

/-! # Proofs: Ingest: chunks -/

namespace Sys2Proof.Machine

/-! ## The rolling sums over a window (R7) -/

/-- The sum of bytes weighted by how many of them come from the one on. -/
def weightedSum : List Byte → Nat
  | [] => 0
  | x :: xs => (xs.length + 1) * x.toNat + weightedSum xs

theorem weightedSum_eq (l : List Byte) :
    ((List.range l.length).map fun n => (l.length - n) * (l.getD n 0).toNat).sum = weightedSum l := by
  induction l with
  | nil => rfl
  | cons x xs ih =>
    rw [List.length_cons, List.range_succ_eq_map, List.map_cons, List.sum_cons, List.map_map, weightedSum, ← ih]
    congr 1
    refine congrArg List.sum (List.map_congr_left fun n _ => ?_)
    simp [Nat.succ_eq_add_one]

theorem weightedSum_append (l : List Byte) (x : Byte) :
    weightedSum (l ++ [x]) = weightedSum l + (l.map fun y => y.toNat).sum + x.toNat := by
  induction l with
  | nil => simp [weightedSum]
  | cons y ys ih =>
    simp only [List.cons_append, weightedSum, ih, List.length_append, List.length_singleton, List.map_cons, List.sum_cons,
      Nat.succ_mul (ys.length + 1)]
    omega

theorem chunkWindow_length (bs : List Byte) : (chunkWindow bs).length = 32 := by
  rw [chunkWindow, List.length_drop, List.length_append, List.length_replicate, Nat.add_sub_cancel]

theorem chunkWindow_append (bs : List Byte) (x : Byte) : chunkWindow (bs ++ [x]) = (chunkWindow bs).drop 1 ++ [x] := by
  rw [chunkWindow, chunkWindow, List.drop_drop, ← List.append_assoc,
    List.drop_append_of_le_length (by simp), List.length_append]
  rfl

theorem chunkSumB_eq (bs : List Byte) : chunkSumB bs = weightedSum (chunkWindow bs) % 65536 := by
  rw [← weightedSum_eq, chunkWindow_length]; rfl

/-- The chunker's sums, window, running CRC and count are those of the chunk bytes `bs` (R7, R10). -/
structure Stream.Summed (t : Stream) (bs : List Byte) : Prop where
  length : bs.length = t.curLen
  window : t.window = chunkWindow bs
  sumA : t.sumA.toNat = chunkSumA bs
  sumB : t.sumB.toNat = chunkSumB bs
  crc : t.crc = crcRun crcStart bs

theorem Stream.Summed.closeChunk (t : Stream) : t.closeChunk.Summed [] :=
  ⟨rfl, rfl, (by decide : (0 : BitVec 16).toNat = chunkSumA []), (by decide : (0 : BitVec 16).toNat = chunkSumB []), rfl⟩

/-- The recurrences of the two sums when a byte enters the window and the oldest leaves it (R7). -/
theorem Stream.Summed.roll {t : Stream} {bs : List Byte} (h : t.Summed bs) (x : Byte) : (t.roll x).Summed (bs ++ [x]) := by
  obtain ⟨hlen, hwindow, hA, hB, hcrc⟩ := h
  obtain ⟨y, ys, hys⟩ := List.exists_cons_of_length_eq_add_one (chunkWindow_length bs)
  have hdrop := chunkWindow_append bs x
  rw [hys] at hdrop
  have hyslen : ys.length = 31 := by
    have := chunkWindow_length bs
    rw [hys, List.length_cons] at this
    omega
  have hA' : (t.roll x).sumA.toNat = chunkSumA (bs ++ [x]) := by
    rw [chunkSumA, hdrop]
    rw [chunkSumA, hys] at hA
    simp only [Stream.roll, hwindow, hys, List.headD_cons, List.drop_one, List.tail_cons, List.map_append, List.map_cons,
      List.map_nil, List.sum_append, List.sum_cons, List.sum_nil] at hA ⊢
    bv_omega
  refine ⟨by simp [Stream.roll, hlen], ?_, hA', ?_, ?_⟩
  · rw [hdrop, ← hys, ← hwindow]; simp [Stream.roll]
  · rw [chunkSumB_eq, hdrop]
    rw [chunkSumA, hdrop] at hA'
    rw [chunkSumB_eq, hys, weightedSum, hyslen] at hB
    have hroll : (t.roll x).sumB = t.sumB + (t.roll x).sumA - 32#16 * y.setWidth 16 := by
      simp [Stream.roll, hwindow, hys]
    rw [hroll]
    simp only [List.drop_one, List.tail_cons, weightedSum_append, List.map_append, List.map_cons, List.map_nil,
      List.sum_append, List.sum_cons, List.sum_nil] at hA' ⊢
    generalize (t.roll x).sumA = a at hA' ⊢
    bv_omega
  · simp [Stream.roll, hcrc, crcRun, List.foldl_append]

/-! ## Where chunks end (R8) -/

theorem Stream.boundary_iff {t : Stream} {bs : List Byte} {k : Nat} (h : t.Summed bs) (hk : t.k = some k) :
    t.boundary = true ↔ endsChunk k bs := by
  simp [Stream.boundary, hk, ← h.length, h.sumB, minChunk, maxChunk, endsChunk]

theorem noEnd_append {k n : Nat} {bs : List Byte} (x : Byte) (hn : n ≤ bs.length) (h : noEnd k n bs) : noEnd k n (bs ++ [x]) :=
  fun m hm => by
    rw [List.take_append_of_le_length (by omega)]
    exact h m hm

theorem noEnd_succ {k : Nat} {bs : List Byte} {x : Byte} (h : noEnd k bs.length bs) (hx : ¬ endsChunk k (bs ++ [x])) :
    noEnd k (bs.length + 1) (bs ++ [x]) := fun m hm => by
  rcases Nat.lt_succ_iff_lt_or_eq.1 hm with hlt | rfl
  · exact noEnd_append x (Nat.le_refl _) h m hlt
  · rwa [List.take_of_length_le (by simp)]

/-- A chunk that goes on is shorter than the longest (R8). -/
theorem length_lt_of_noEnd {k : Nat} {bs : List Byte} (h : noEnd k bs.length bs) : bs.length < min (2 ^ (k + 2)) 65536 := by
  have hpos : 0 < min (2 ^ (k + 2)) 65536 := Nat.lt_min.2 ⟨Nat.two_pow_pos _, by decide⟩
  refine Nat.not_le.1 fun hle => h (min (2 ^ (k + 2)) 65536 - 1) (by omega) (Or.inr ?_)
  rw [List.length_take]
  omega

theorem State.ringBytes_succ (s : State) (i a n : Nat) :
    s.ringBytes i a (n + 1) = s.ringBytes i a n ++ [s.ringByte i (a + n)] := by
  simp [State.ringBytes, List.range_succ]

theorem State.length_ringBytes (s : State) (i a n : Nat) : (s.ringBytes i a n).length = n := by simp [State.ringBytes]

theorem ChunkRun.append {a b : Nat} {rs : List ChunkRec} {r : ChunkRec} (h : ChunkRun a b rs) (hr : r.start = b) :
    ChunkRun a (b + r.len) (rs ++ [r]) := by
  induction rs generalizing a with
  | nil => obtain rfl : a = b := h; exact ⟨hr, rfl⟩
  | cons x xs ih => exact ⟨h.1, ih h.2⟩

/-! ## A run of the chunker -/

/-- What the chunker has made of the bytes it has taken, from where the stream `i` of `s` stood to the stream record `t`. -/
structure ChunksMade (s : State) (i k : Nat) (t : Stream) : Prop where
  order : t.k = some k ∧ 10 ≤ k ∧ k ≤ 14
  fixed : t.received = (s.stream i).received ∧ t.state = (s.stream i).state
  ahead : (s.stream i).chunked ≤ t.chunked ∧ t.chunked ≤ (s.stream i).received
  within : t.curLen ≤ t.chunked
  made : ∃ new, t.queue = (s.stream i).queue ++ new ∧ (∀ r ∈ new, ChunkMade s i k r) ∧
    ChunkRun ((s.stream i).chunked - (s.stream i).curLen) (t.chunked - t.curLen) new

/-- The chunker stands inside a chunk of the ring's bytes, none of which ended it. -/
structure ChunkGoesOn (s : State) (i k : Nat) (t : Stream) : Prop where
  summed : t.Summed (s.ringBytes i (t.chunked - t.curLen) t.curLen)
  goesOn : noEnd k t.curLen (s.ringBytes i (t.chunked - t.curLen) t.curLen)

theorem toNat_fingerprint (r : Crc) {n : Nat} (hn : n ≤ 65536) (hpos : 1 ≤ n) :
    (fingerprint r n).toNat = r.toNat * 65536 + (n - 1) := by
  have := r.isLt
  rw [fingerprint, BitVec.toNat_ofNat, Nat.mod_eq_of_lt]
  omega

/-- The record of the chunk that the chunker closes (R10). -/
def Stream.closedRec (t : Stream) : ChunkRec :=
  { no := t.nextNo, start := t.chunked - t.curLen, len := t.curLen, fp := fingerprint (crcFinish t.crc) t.curLen,
    stage := .waitingLookup, cand := none, result := none, work := .idle }

theorem Stream.closeChunk_queue (t : Stream) : t.closeChunk.queue = t.queue ++ [t.closedRec] := rfl

/-- A chunk is closed: its record joins the queue, and the next chunk begins (R8 to R10). -/
theorem ChunksMade.closeChunk {s : State} {i k : Nat} {t : Stream} (h : ChunksMade s i k t) (hpos : 1 ≤ t.curLen)
    (hs : t.Summed (s.ringBytes i (t.chunked - t.curLen) t.curLen))
    (hfirst : noEnd k (t.curLen - 1) (s.ringBytes i (t.chunked - t.curLen) t.curLen))
    (hmax : t.curLen ≤ min (2 ^ (k + 2)) 65536)
    (hwhole : endsChunk k (s.ringBytes i (t.chunked - t.curLen) t.curLen) ∨
      ((s.stream i).state = .draining ∧ t.chunked = (s.stream i).received)) :
    ChunksMade s i k t.closeChunk ∧ ChunkGoesOn s i k t.closeChunk := by
  obtain ⟨horder, hfixed, hahead, hwithin, new, hqueue, hnew, hrun⟩ := h
  refine ⟨⟨horder, hfixed, hahead, Nat.zero_le _, new ++ [t.closedRec], ?_, ?_, ?_⟩, ?_, ?_⟩
  · rw [← List.append_assoc, ← hqueue]; exact t.closeChunk_queue
  · intro r hr
    rcases List.mem_append.1 hr with hr | hr
    · exact hnew r hr
    · obtain rfl := List.mem_singleton.1 hr
      have hend : t.chunked - t.curLen + t.curLen = t.chunked := by omega
      refine ⟨hwhole.imp id fun hd => ⟨hd.1, hend.trans hd.2⟩, hfirst, ⟨hpos, hmax, ?_⟩, ?_, rfl, rfl, rfl, rfl⟩
      · change 2 ^ (k - 2) ≤ t.curLen ∨ _
        rcases hwhole with (hmin | hlong) | hd
        · rw [State.length_ringBytes] at hmin
          exact Or.inl hmin.1
        · rw [State.length_ringBytes] at hlong
          refine Or.inl ?_
          rw [hlong]
          obtain ⟨_, h10, h14⟩ := horder
          exact Nat.le_min.2 ⟨Nat.pow_le_pow_right (by decide) (by omega),
            Nat.le_trans (Nat.pow_le_pow_right (n := 2) (by decide) (by omega : k - 2 ≤ 12)) (by decide)⟩
        · exact Or.inr ⟨hd.1, hend.trans hd.2⟩
      · rw [Stream.closedRec, toNat_fingerprint _ (by omega) hpos, hs.crc]; rfl
  · have happ := hrun.append (r := t.closedRec) rfl
    have hend : t.chunked - t.curLen + t.curLen = t.chunked := by omega
    rw [show t.closeChunk.chunked - t.closeChunk.curLen = t.chunked - t.curLen + t.curLen from hend.symm]
    exact happ
  · exact Stream.Summed.closeChunk t
  · exact fun m hm => absurd hm (Nat.not_lt_zero m)

/-- One byte taken (R7, R8). -/
theorem ChunksMade.takeByte {s : State} {i k : Nat} {t : Stream} (h : ChunksMade s i k t) (hg : ChunkGoesOn s i k t)
    (hlt : t.chunked < t.received) :
    ChunksMade s i k (t.takeByte (s.ringByte i t.chunked)) ∧ ChunkGoesOn s i k (t.takeByte (s.ringByte i t.chunked)) := by
  obtain ⟨horder, hfixed, hahead, hwithin, hmade⟩ := h
  obtain ⟨hsummed, hgoes⟩ := hg
  have hstart : t.chunked + 1 - (t.curLen + 1) = t.chunked - t.curLen := by omega
  have hbytes : s.ringBytes i (t.chunked + 1 - (t.curLen + 1)) (t.curLen + 1) =
      s.ringBytes i (t.chunked - t.curLen) t.curLen ++ [s.ringByte i t.chunked] := by
    rw [hstart, State.ringBytes_succ, show t.chunked - t.curLen + t.curLen = t.chunked by omega]
  have hrolled : ChunksMade s i k (t.roll (s.ringByte i t.chunked)) := by
    refine ⟨horder, hfixed, ⟨Nat.le_succ_of_le hahead.1, ?_⟩, Nat.succ_le_succ hwithin, ?_⟩
    · rw [← hfixed.1]; exact hlt
    · obtain ⟨new, hq, hn, hr⟩ := hmade
      exact ⟨new, hq, hn, by rw [← hstart] at hr; exact hr⟩
  have hsum : (t.roll (s.ringByte i t.chunked)).Summed
      (s.ringBytes i (t.chunked + 1 - (t.curLen + 1)) (t.curLen + 1)) := by
    rw [hbytes]; exact hsummed.roll _
  have hlen : (s.ringBytes i (t.chunked - t.curLen) t.curLen).length = t.curLen := State.length_ringBytes ..
  have hshort := length_lt_of_noEnd (k := k) (bs := s.ringBytes i (t.chunked - t.curLen) t.curLen) (by rw [hlen]; exact hgoes)
  rw [hlen] at hshort
  unfold Stream.takeByte
  dsimp only
  split
  · next hb =>
    refine hrolled.closeChunk (Nat.succ_pos _) hsum ?_ hshort (Or.inl ((Stream.boundary_iff hsum horder.1).1 hb))
    exact hbytes ▸ noEnd_append _ (Nat.le_of_eq hlen.symm) hgoes
  · next hb =>
    refine ⟨hrolled, hsum, ?_⟩
    have hon : ¬ endsChunk k (s.ringBytes i (t.chunked - t.curLen) t.curLen ++ [s.ringByte i t.chunked]) := by
      rw [← hbytes]; exact fun he => hb ((Stream.boundary_iff hsum horder.1).2 he)
    have hsucc := noEnd_succ (by rw [hlen]; exact hgoes) hon
    rw [hlen] at hsucc
    exact hbytes ▸ hsucc

/-- The chunker takes bytes until none is left or the queue is full (R7, R9). -/
theorem ChunksMade.chunkerLoop {s : State} {i k fuel : Nat} {t : Stream} (h : ChunksMade s i k t) (hg : ChunkGoesOn s i k t)
    (hf : t.received - t.chunked ≤ fuel) :
    ChunksMade s i k (chunkerLoop (s.ringByte i) fuel t) ∧ ChunkGoesOn s i k (chunkerLoop (s.ringByte i) fuel t) ∧
      ((chunkerLoop (s.ringByte i) fuel t).chunked = (s.stream i).received ∨
        32 ≤ (chunkerLoop (s.ringByte i) fuel t).queue.length) := by
  induction fuel generalizing t with
  | zero =>
    refine ⟨h, hg, Or.inl ?_⟩
    have hreceived := h.fixed.1
    have hahead := h.ahead.2
    change t.chunked = _
    omega
  | succ fuel ih =>
    rw [Machine.chunkerLoop]
    split
    · next hc =>
      obtain ⟨hm, hgo⟩ := h.takeByte hg hc.1
      refine ih hm hgo ?_
      have htaken : (t.takeByte (s.ringByte i t.chunked)).chunked = t.chunked + 1 ∧
          (t.takeByte (s.ringByte i t.chunked)).received = t.received := by
        unfold Stream.takeByte; dsimp only; split <;> exact ⟨rfl, rfl⟩
      omega
    · next hc =>
      have hreceived := h.fixed.1
      have hahead := h.ahead.2
      exact ⟨h, hg, by omega⟩

/-- A draining stream whose bytes are all taken closes what is left as its last chunk (R9). -/
theorem ChunksMade.closeFinal {s : State} {i k : Nat} {t : Stream} (h : ChunksMade s i k t) (hg : ChunkGoesOn s i k t) :
    ChunksMade s i k t.closeFinal ∧ ChunkGoesOn s i k t.closeFinal := by
  unfold Stream.closeFinal
  split
  · next hc =>
    obtain ⟨hd, hall, hpos, _⟩ := hc
    have hlen : (s.ringBytes i (t.chunked - t.curLen) t.curLen).length = t.curLen := State.length_ringBytes ..
    have hshort := length_lt_of_noEnd (k := k) (bs := s.ringBytes i (t.chunked - t.curLen) t.curLen) (by rw [hlen]; exact hg.goesOn)
    refine h.closeChunk hpos hg.summed (fun m hm => hg.goesOn m (by omega)) (by omega) (Or.inr ⟨?_, ?_⟩)
    · rw [← h.fixed.2]; exact hd
    · rw [← h.fixed.1]; exact hall
  · exact ⟨h, hg⟩

theorem chunkInHand_iff {s : State} {i k : Nat} : ChunkInHand s i k ↔
    ((s.stream i).k = some k ∧ 10 ≤ k ∧ k ≤ 14) ∧ (s.stream i).curLen ≤ (s.stream i).chunked ∧
      ChunkGoesOn s i k (s.stream i) :=
  ⟨fun ⟨order, taken, window, sumA, sumB, crc, goesOn⟩ =>
    ⟨order, taken, ⟨State.length_ringBytes .., window, sumA, sumB, crc⟩, goesOn⟩,
   fun ⟨order, taken, ⟨_, window, sumA, sumB, crc⟩, goesOn⟩ => ⟨order, taken, window, sumA, sumB, crc, goesOn⟩⟩

/-- Settles O21, by induction on the bytes that the chunker takes. -/
theorem chunkerBounds : Obligations.ChunkerBounds := by
  intro s i k hi hactive hin hle
  obtain ⟨horder, htaken, hgoes⟩ := chunkInHand_iff.1 hin
  have hstart : ChunksMade s i k (s.stream i) :=
    ⟨horder, ⟨rfl, rfl⟩, ⟨Nat.le_refl _, hle⟩, htaken, [], by simp, by simp, rfl⟩
  obtain ⟨hmade, hgo, hend⟩ := hstart.chunkerLoop hgoes (Nat.le_refl _)
  obtain ⟨hm, hg⟩ := hmade.closeFinal hgo
  have hexec : exec (.chunkerRun i) s = .next (s.setStream i
      (chunkerLoop (s.ringByte i) ((s.stream i).received - (s.stream i).chunked) (s.stream i)).closeFinal) :=
    congrArg Host.Outcome.next (if_pos hactive)
  generalize chunkerLoop (s.ringByte i) ((s.stream i).received - (s.stream i).chunked) (s.stream i) = t at *
  refine completes_of_eq hexec fun u hu => ?_
  have hstream : u.stream i = t.closeFinal := by rw [hu]; exact State.stream_setStream_same hi _
  obtain ⟨⟨hk, h10, h14⟩, ⟨hreceived, hstate⟩, ⟨hahead, hwithin⟩, hcur, new, hqueue, hnew, hrun⟩ := hm
  have hgrown : t.closeFinal.chunked = t.chunked ∧ t.queue.length ≤ t.closeFinal.queue.length := by
    unfold Stream.closeFinal
    split
    · exact ⟨rfl, by simp [Stream.closeChunk]⟩
    · exact ⟨rfl, Nat.le_refl _⟩
  have hfull : t.closeFinal.chunked = (s.stream i).received ∨ 32 ≤ t.closeFinal.queue.length := by omega
  have hlast : (s.stream i).state = .draining → t.closeFinal.curLen = 0 ∨ 32 ≤ t.closeFinal.queue.length := by
    intro hd
    unfold Stream.closeFinal
    split
    · exact Or.inl rfl
    · next hc =>
      have := hmade.fixed
      rcases hend with he | he
      · grind
      · exact Or.inr he
  rw [hstream]
  refine ⟨hu, chunkInHand_iff.2 ?_, hfull, hahead, hwithin, hreceived, hstate, hlast, new, hqueue, hnew, hrun⟩
  rw [hstream]
  refine ⟨⟨hk, h10, h14⟩, hcur, ?_⟩
  rw [hu]
  exact ⟨hg.summed, hg.goesOn⟩

/-! ## Lookups and verifies (R12 to R16, R31 to R33) -/

theorem Tables.entry_eq_some {t : Tables} {h : Nat} {e : IdxEntry} :
    t.entry h = some e ↔ t.isHandle h = true ∧ getKey t.entries h = some e := by
  unfold Tables.entry
  split
  · next h => exact ⟨fun he => ⟨h, he⟩, fun he => he.2⟩
  · next h => exact ⟨fun he => absurd he (Option.some_ne_none e).symm, fun he => absurd he.1 h⟩

/-- An entry that a handle names takes what is written to it. -/
theorem Tables.entry_setEntry_of_entry {t : Tables} {h : Nat} {e : IdxEntry} (he : t.entry h = some e) (v : Option IdxEntry) :
    (t.setEntry h v).entry h = v := by
  rw [Tables.entry_setEntry, if_pos rfl, if_pos (Tables.entry_eq_some.1 he).1]

theorem Tables.entry_setEntry_other {t : Tables} {h p : Nat} (hp : p ≠ h) (v : Option IdxEntry) :
    (t.setEntry h v).entry p = t.entry p := by rw [Tables.entry_setEntry, if_neg hp]

theorem Tables.entry_setHolds (t : Tables) (hs : List Hold) (p : Nat) : (t.setHolds hs).entry p = t.entry p := rfl

theorem Tables.lookupHit_of_found {t : Tables} {f : Fp} {h : Nat} (hl : (t.header (t.bucketOf f)).lost = false)
    (hc : (t.searchOrder (t.bucketOf f)).find? (t.candidate f) = some h) : t.lookupHit f = some h := by
  simp [Tables.lookupHit, hl, hc]

theorem Tables.lookupHit_of_missed {t : Tables} {f : Fp} (h : (t.header (t.bucketOf f)).lost = true ∨
    (t.searchOrder (t.bucketOf f)).find? (t.candidate f) = none) : t.lookupHit f = none := by
  unfold Tables.lookupHit
  rcases h with h | h
  · exact if_pos h
  · dsimp only; split
    · rfl
    · exact h

theorem fp_of_lookup_sent {t : Stream} {f : Fp} {r : ChunkRec}
    (h : (t.queue.find? fun r => r.work = .lookupSent && r.fp = f) = some r) : r.fp = f := by
  have hr := List.find?_some h
  simp only [Bool.and_eq_true, decide_eq_true_eq] at hr
  exact hr.2

theorem exec_lookup_of_record {s : State} {f : Fp} {i : Nat} {r : ChunkRec}
    (h : ((s.stream i).queue.find? fun r => r.work = .lookupSent && r.fp = f) = some r) :
    exec (.lookup f i) s =
      .next (if (s.tables.lookupHit f).isSome ∧ 4 ≤ s.tables.holdsOf i then s else s.lookedUp i r) := by
  change execLookup f i s = _
  unfold execLookup
  rw [h]

theorem State.lookedUp_of_missed {s : State} {i : Nat} {r : ChunkRec} (h : s.tables.lookupHit r.fp = none) :
    s.lookedUp i r = (s.idxAnswer .miss).modStream i fun t => t.modRec r.no fun r => { r with work := .place } := by
  have hidx : s.idxLookup r.fp i = s.idxAnswer .miss := by unfold State.idxLookup; rw [h]
  unfold State.lookedUp
  dsimp only
  rw [hidx]
  rfl

theorem State.idxLookup_of_hit {s : State} {f : Fp} {i h : Nat} {e : IdxEntry} (hh : s.tables.lookupHit f = some h)
    (he : s.tables.entry h = some e) : s.idxLookup f i = (s.onTables fun t =>
      (t.setEntry h (some { e with refcount := raiseCount e.refcount })).setHolds
        (t.holds ++ [{ stream := i, handle := h }])).idxAnswer (.hit h e.state e.container e.offset) := by
  unfold State.idxLookup
  rw [hh]
  dsimp only
  rw [he]

theorem State.lookedUp_of_stored {s : State} {i h : Nat} {r : ChunkRec} {e : IdxEntry} (hh : s.tables.lookupHit r.fp = some h)
    (he : s.tables.entry h = some e) (hs : e.state = .stored) :
    s.lookedUp i r = ((s.idxLookup r.fp i).modStream i fun t => t.modRec r.no fun r =>
      { r with stage := .verifying, cand := some h, work := .reading }).onCtm fun m =>
        { m with chunkReqs := m.chunkReqs ++ [{ handle := h, fp := r.fp, cls := .verify, who := .verify i r.no }] } := by
  unfold State.lookedUp
  dsimp only
  have hans : (s.idxLookup r.fp i).idx.answer = .hit h .stored e.container e.offset := by
    rw [State.idxLookup_of_hit hh he, ← hs]; rfl
  generalize s.idxLookup r.fp i = u at hans ⊢
  rw [hans]

theorem State.returnBuffers_of_none_waiting {s : State} (h : s.mec.bufferQueue = []) (a : BufAsker) (n : Nat) :
    s.returnBuffers a n = { s with mec := s.mec.setHeld a (s.mec.heldBy a - n) } := by
  have hq : (s.mec.setHeld a (s.mec.heldBy a - n)).bufferQueue = [] := h
  unfold State.returnBuffers
  dsimp only
  rw [hq]
  rfl

/-- A verify's answer: the report is taken, the read buffer given back, and the record changed by the outcome (R16). -/
theorem exec_verifyComplete_of_report {s : State} {i no : Nat} {r : ChunkRec} {rep : ReadReport} {o : VerifyOutcome}
    (hi : i < 8) (hrep : (s.reportFor fun w => w = .chunk (.verify i no)) = some rep) (hr : (s.stream i).record no = some r)
    (hw : r.work = .reading) (ht : (s.stream i).state ≠ .aborting) (hb : s.mec.bufferQueue = [])
    (ho : (∃ bs, rep.answer = .bytes bs ∧ o = if bs = s.ringBytes i r.start r.len then .match_ else .difference) ∨
      (rep.answer = .dataLost none ∧ o = .unreadable)) :
    Completes (.verifyComplete i no) s fun t =>
      t.stream i = (s.stream i).modRec no (fun r => r.verified false o) ∧ t.tables = s.tables ∧ t.mem = s.mem := by
  have hrunning : decide ((s.stream i).state = .aborting) = false := decide_eq_false ht
  have hverified : ∀ u : State, u.ing = s.ing → (u.verified i no o).stream i =
      (s.stream i).modRec no (fun r => r.verified false o) ∧ (u.verified i no o).tables = u.tables ∧
      (u.verified i no o).mem = u.mem := fun u hu => by
    have hstream : u.stream i = s.stream i := by rw [State.stream, hu]; rfl
    refine ⟨?_, rfl, rfl⟩
    unfold State.verified
    rw [State.stream_modStream, if_pos ⟨rfl, hi⟩, hstream, hrunning]
  change ∃ t, execVerifyComplete i no s = .next t ∧ _
  unfold execVerifyComplete
  rw [hrep]
  dsimp only
  have hsame : ∀ u : State, u.ing = s.ing → (u.stream i).record no = some r := fun u hu => by
    rw [State.stream, hu]; exact hr
  rcases ho with ⟨bs, ha, rfl⟩ | ⟨ha, rfl⟩
  · have hdone : ((s.dropReport rep).bufferDone rep.job).ing = s.ing := by
      rw [State.bufferDone, State.returnBuffers_of_none_waiting (by exact hb)]; rfl
    simp only [ha, hsame (s.dropReport rep) rfl, hsame _ hdone, if_pos hw]
    refine ⟨_, rfl, ?_⟩
    obtain ⟨hstream, htables, hmem⟩ := hverified _ hdone
    refine ⟨hstream, htables.trans ?_, hmem.trans ?_⟩ <;>
      rw [State.bufferDone, State.returnBuffers_of_none_waiting (by exact hb)] <;> rfl
  · simp only [ha, hsame (s.dropReport rep) rfl, if_pos hw]
    exact ⟨_, rfl, hverified (s.dropReport rep) rfl⟩

/-- Settles O22: the branches of the lookup stage and of a verify's answer. -/
theorem lookupsAndVerifies : Obligations.LookupsAndVerifies := by
  refine ⟨fun s i r hm hn hs => ?_, fun s f i r hi hr hmiss => ?_, fun s f i h r e hi hr hl hc he hst hh => ?_,
    fun s f i h hl hc hh => ?_, fun s i no r rep hi hrep hr hw ht hb => ⟨fun bs ha hbs => ?_, fun bs ha hbs => ?_, fun ha => ?_⟩⟩
  · change execLookupIssue i s = _
    unfold execLookupIssue
    dsimp only
    rw [if_pos (by rw [hm, hs]; rfl), hn]
  · have hfp : r.fp = f := by simpa using (And.right (by simpa using List.find?_some hr) : r.fp = f)
    subst hfp
    have hnone := Tables.lookupHit_of_missed hmiss
    have hexec := exec_lookup_of_record hr
    rw [hnone, if_neg (by simp), State.lookedUp_of_missed hnone] at hexec
    exact ⟨_, hexec, rfl, State.stream_setStream_same hi _, rfl⟩
  · have hfp : r.fp = f := by simpa using (And.right (by simpa using List.find?_some hr) : r.fp = f)
    subst hfp
    have hhit := Tables.lookupHit_of_found hl hc
    have hexec := exec_lookup_of_record hr
    rw [if_neg (by rintro ⟨_, h4⟩; exact absurd hh (Nat.not_lt.2 h4)), State.lookedUp_of_stored hhit he hst,
      State.idxLookup_of_hit hhit he] at hexec
    refine ⟨_, hexec, ?_, (Tables.entry_setHolds ..).trans (Tables.entry_setEntry_of_entry he _),
      fun p hp => (Tables.entry_setHolds ..).trans (Tables.entry_setEntry_other hp _), rfl,
      State.stream_setStream_same hi _, rfl⟩
    rw [← hst]; rfl
  · change execLookup f i s = _
    unfold execLookup
    rw [Tables.lookupHit_of_found hl hc]
    split
    · rw [if_pos ⟨rfl, hh⟩]
    · rfl
  · exact exec_verifyComplete_of_report hi hrep hr hw ht hb (Or.inl ⟨bs, ha, (if_pos hbs).symm⟩)
  · exact exec_verifyComplete_of_report hi hrep hr hw ht hb (Or.inl ⟨bs, ha, (if_neg hbs).symm⟩)
  · exact exec_verifyComplete_of_report hi hrep hr hw ht hb (Or.inr ⟨ha, rfl⟩)

/-! ## Insertions (R34 to R36) -/

theorem Tables.joinChain_holds (t : Tables) (h : Nat) (f : Fp) : (t.joinChain h f).holds = t.holds := by
  unfold Tables.joinChain; split <;> rfl

theorem Tables.joinChain_containers (t : Tables) (h : Nat) (f : Fp) : (t.joinChain h f).containers = t.containers := by
  unfold Tables.joinChain; split <;> rfl

/-- The entry that an insertion makes (R34). -/
def IdxEntry.placed (f : Fp) (c off : Nat) : IdxEntry :=
  { state := .pending, fp := f, container := c, offset := off, refcount := 1, move := none }

theorem State.idxInsert_of_chosen {s : State} {f : Fp} {c off h : Nat} (hc : s.tables.chooseEntry f = some h) :
    s.idxInsert f c off = ((s.onTables fun t => (t.joinChain h f).setEntry h (some (.placed f c off))).liveRaise c
      (fpLength f)).idxAnswer (.inserted h) := by
  unfold State.idxInsert
  rw [hc]
  rfl

theorem State.inserted_of_chosen {s : State} {i c off place h : Nat} {r : ChunkRec} (hc : s.tables.chooseEntry r.fp = some h) :
    s.inserted i r c off place =
      (s.idxInsert r.fp c off).modStream i fun t => t.modRec r.no fun r => { r with work := .copy h c off place } := by
  unfold State.inserted
  dsimp only
  have hans : (s.idxInsert r.fp c off).idx.answer = .inserted h := by rw [State.idxInsert_of_chosen hc]; rfl
  generalize s.idxInsert r.fp c off = u at hans ⊢
  rw [hans]

/-- What an insertion leaves (R34). -/
theorem State.inserted_spec {s : State} {i c off place h : Nat} {r : ChunkRec} (hi : i < 8)
    (hc : s.tables.chooseEntry r.fp = some h) : ∀ t, t = s.inserted i r c off place →
      t.idx = { s.idx with answer := .inserted h } ∧
      getKey t.tables.entries h = some (.placed r.fp c off) ∧
      (∀ p, p ≠ h → getKey t.tables.entries p = getKey s.tables.entries p) ∧
      (∀ v, s.cont c = some v → t.cont c = some { v with live := v.live + fpLength r.fp }) ∧
      t.stream i = (s.stream i).modRec r.no (fun r => { r with work := .copy h c off place }) ∧
      (∀ j, j ≠ i → t.stream j = s.stream j) ∧ t.mem = s.mem ∧ t.tables.holds = s.tables.holds := by
  intro t ht
  rw [State.inserted_of_chosen hc, State.idxInsert_of_chosen hc, State.liveRaise] at ht
  have hmod := State.modCont_eq (s.onTables fun t => (t.joinChain h r.fp).setEntry h (some (.placed r.fp c off))) c
    fun v => { v with live := v.live + fpLength r.fp }
  have hcont := State.cont_modCont (s.onTables fun t => (t.joinChain h r.fp).setEntry h (some (.placed r.fp c off))) c c
    fun v => { v with live := v.live + fpLength r.fp }
  generalize (s.onTables fun t => (t.joinChain h r.fp).setEntry h (some (.placed r.fp c off))).modCont c _ = u at *
  have hentries : t.tables.entries = setKey s.tables.entries h (some (.placed r.fp c off)) := by
    rw [ht, ← Tables.joinChain_entries s.tables h r.fp]; exact congrArg (fun u => u.tables.entries) hmod
  refine ⟨?_, ?_, fun p hp => ?_, fun v hv => ?_, ?_, fun j hj => ?_, ?_, ?_⟩
  · rw [ht]; exact congrArg (fun u : State => { u.idx with answer := IdxAnswer.inserted h }) hmod
  · rw [hentries, getKey_setKey, if_pos rfl]
  · rw [hentries, getKey_setKey, if_neg hp]
  · rw [ht]
    refine hcont.trans ?_
    rw [if_pos rfl, show (s.onTables fun t => (t.joinChain h r.fp).setEntry h (some (.placed r.fp c off))).cont c = some v from
      (congrArg (fun m => getKey m c) (Tables.joinChain_containers s.tables h r.fp)).trans hv]
    rfl
  · have hstream : u.stream i = s.stream i := congrArg (fun u => u.stream i) hmod
    rw [ht, State.stream_modStream, if_pos ⟨rfl, hi⟩]
    exact congrArg (fun t => Stream.modRec t r.no _) hstream
  · rw [ht]; exact (State.stream_setStream_other hj _).trans (congrArg (fun u => u.stream j) hmod)
  · rw [ht]; exact (congrArg State.mem hmod).trans rfl
  · rw [ht, ← Tables.joinChain_holds s.tables h r.fp]; exact congrArg (fun u => u.tables.holds) hmod

theorem Stream.inserting_fp {t : Stream} {f : Fp} {c off : Nat} {collision : Bool} {r : ChunkRec} {place : Nat}
    (h : t.inserting f c off collision = some (r, place)) : r.fp = f := by
  have hmem := List.mem_of_head? h
  obtain ⟨x, _, hx⟩ := List.mem_filterMap.1 hmem
  split at hx
  · split at hx
    · next hc => cases hx; exact hc.1
    · cases hx
  · cases hx

/-- Settles O23: both requests insert in the same way. -/
theorem insertsCreateEntries : Obligations.InsertsCreateEntries := by
  intro s f c off i place h r collision hi hr hc
  obtain rfl := Stream.inserting_fp hr
  have hexec : exec (if collision then .collisionInsert r.fp c off i else .insert r.fp c off i) s =
      .next (s.inserted i r c off place) := by
    cases collision with
    | true =>
      change execCollisionInsert r.fp c off i s = _
      unfold execCollisionInsert
      rw [hr]
    | false =>
      change execInsert r.fp c off i s = _
      unfold execInsert
      rw [hr]
  exact completes_of_eq hexec (State.inserted_spec hi hc)

/-! ## Writes of a block (R175, R180) -/

theorem Memory.get_writeMem {s : State} {a p : Nat} {bs : List Byte} (hp : p < a ∨ a + bs.length ≤ p)
    (hbad : ∀ x ∈ s.mec.bad, wordTouches a bs.length x = true → p < x ∨ x + 8 ≤ p) :
    Memory.get (s.writeMem a bs).mem p = Memory.get s.mem p := by
  refine (Memory.get_write _ a p bs).trans ?_
  rw [if_neg (by omega)]
  exact Memory.get_rewords hbad

theorem Memory.read_congr {m m' : List Host.Cell} {a n : Nat} (h : ∀ p, a ≤ p → p < a + n → Memory.get m p = Memory.get m' p) :
    Memory.read m a n = Memory.read m' a n :=
  List.map_congr_left fun k hk => h _ (by omega) (by have := List.mem_range.1 hk; omega)

theorem State.writeMem_mec (s : State) (a : Nat) (bs : List Byte) : (s.writeMem a bs).mec =
    { s.mec with bad := s.mec.bad.filter fun x => !wordTouches a bs.length x } := rfl

/-- Finishing a stripe leaves the bytes below its directory, but in a bad word (R82). -/
theorem Memory.get_finishStripe {s : State} {b p : Nat} {k : ContKind} {seq : Nat} {l : Layout}
    (hp : p < bufferAddress b l.chunkSpace) (hbad : ∀ x ∈ s.mec.bad, p < x ∨ x + 8 ≤ p) :
    Memory.get (s.finishStripe b k seq l).1.mem p = Memory.get s.mem p := by
  have hunits : p < bufferAddress b (l.dataUnits * unitSize) :=
    Nat.lt_of_lt_of_le hp (Nat.add_le_add_left (Nat.sub_le _ _) _)
  refine (Memory.get_writeMem (Or.inl hunits) fun x hx _ => ?_).trans
    (Memory.get_writeMem (Or.inl hp) fun x hx _ => hbad x hx)
  rw [State.writeMem_mec] at hx
  exact hbad x (List.mem_filter.1 hx).1

/-! ## Copies into stripe buffers (R79) -/

theorem State.buffer_setBuffer {s : State} {b : Nat} (hb : b < 4) (x : Option StripeBuf) : (s.setBuffer b x).buffer b = x := by
  change (s.ctm.buffers.setIfInBounds b x)[b]?.getD none = x
  rw [Vector.getElem?_setIfInBounds_self, if_pos hb]; rfl

theorem State.copyChunk_of_buffer {s : State} {c off place h b : Nat} {moved : Bool} {f : Fp} {bytes : List Byte}
    {x : StripeBuf} (hb : s.bufferOf c = some b) (hx : s.buffer b = some x) :
    s.copyChunk c off place moved h f bytes = ((s.writeMem (bufferAddress b off) bytes).setBuffer b
      (some { x with places := x.places.set place (.chunk moved h f off) })).lateCopy c b := by
  unfold State.copyChunk
  rw [hb]
  dsimp only
  rw [show (s.writeMem (bufferAddress b off) bytes).buffer b = some x from hx]

/-- The channels hold the same operations, whatever data they carry. -/
def State.sameJobs (s t : State) : Prop :=
  ∀ p < 4, (t.chan p).current.map (fun o => o.job) = (s.chan p).current.map (fun o => o.job) ∧
    ∀ k, ((t.chan p).queue k).map (fun o => o.job) = ((s.chan p).queue k).map fun o => o.job

theorem State.sameJobs_modChan {s : State} {p : Nat} {f : Nat → Op → Op} (hf : ∀ q o, (f q o).job = o.job) :
    s.sameJobs (s.modChan p fun x => x.mapOps p f) := by
  intro q hq
  have hchan : (s.modChan p fun x => x.mapOps p f).chan q = if p = q ∧ p < 4 then (s.chan p).mapOps p f else s.chan q :=
    State.chan_setChan ..
  rw [hchan]
  split
  · next h =>
    obtain ⟨rfl, _⟩ := h
    refine ⟨?_, fun k => ?_⟩
    · rw [Channel.mapOps_current, Option.map_map]
      exact congrArg (fun g => Option.map g _) (funext fun o => hf p o)
    · have hqueue : ((s.chan p).mapOps p f).queue k = ((s.chan p).queue k).map (f p) := by
        simp only [Channel.queue, Channel.mapOps, Vector.getElem?_map]
        cases (s.chan p).queues[classNumber k]? <;> rfl
      rw [hqueue, List.map_map]
      exact congrArg (fun g => List.map g _) (funext fun o => hf p o)
  · exact ⟨rfl, fun _ => rfl⟩

theorem State.sameJobs_each {s : State} (ps : List Nat) {f : Nat → Op → Op} (hf : ∀ q o, (f q o).job = o.job) :
    s.sameJobs (s.each ps fun s p => s.modChan p fun x => x.mapOps p f) := by
  unfold State.each
  induction ps generalizing s with
  | nil => exact fun _ _ => ⟨rfl, fun _ => rfl⟩
  | cons p ps ih =>
    intro q hq
    obtain ⟨hcurrent, hqueues⟩ := ih (s := s.modChan p fun x => x.mapOps p f) q hq
    obtain ⟨hcurrent', hqueues'⟩ := State.sameJobs_modChan (s := s) (p := p) hf q hq
    exact ⟨hcurrent.trans hcurrent', fun k => (hqueues k).trans (hqueues' k)⟩

/-- A late copy into a SEALING container keeps the channels' operations, and of the memory the chunk bytes outside bad words
(log entry 11). -/
theorem State.lateCopy_of_sealing {s : State} {c b : Nat} {v : Container} {a : ArrayRec} (hv : s.cont c = some v)
    (ha : s.arr = some a) (hs : v.state = .sealing) : s.sameJobs (s.lateCopy c b) ∧
      ∀ p < bufferAddress b a.layout.chunkSpace, (∀ x ∈ s.mec.bad, p < x ∨ x + 8 ≤ p) →
        Memory.get (s.lateCopy c b).mem p = Memory.get s.mem p := by
  unfold State.lateCopy
  rw [hv, ha]
  dsimp only
  rw [if_pos hs]
  have hchans : (s.finishStripe b v.kind (v.seq.getD 0) a.layout).1.chans = s.chans := rfl
  have hmem := fun p (hp : p < bufferAddress b a.layout.chunkSpace) (hbad : ∀ x ∈ s.mec.bad, p < x ∨ x + 8 ≤ p) =>
    Memory.get_finishStripe (k := v.kind) (seq := v.seq.getD 0) hp hbad
  generalize s.finishStripe b v.kind (v.seq.getD 0) a.layout = f at hchans hmem ⊢
  have hjobs := State.sameJobs_each (s := f.1) (List.range 4)
    (f := fun q o => if o.job = .stripeWrite c then { o with data := unitFor a.layout c q f.2 } else o)
    (by intro q o; split <;> rfl)
  refine ⟨fun p hp => ?_, fun p hp hbad => ?_⟩
  · have h := hjobs p hp
    rwa [show f.1.chan p = s.chan p by rw [State.chan, hchans]; rfl] at h
  · obtain ⟨ch, h⟩ := f.1.each_modChan_frame (List.range 4) fun p x => x.mapOps p fun q o =>
        if o.job = .stripeWrite c then { o with data := unitFor a.layout c q f.2 } else o
    exact (congrArg (fun u : State => Memory.get u.mem p) h).trans (hmem p hp hbad)

theorem exec_chunkCopyDone_of_copy {s : State} {i no h c off place : Nat} {r : ChunkRec} (hr : (s.stream i).record no = some r)
    (hw : r.work = .copy h c off place) (ht : (s.stream i).state ≠ .aborting) :
    exec (.chunkCopyDone i no) s =
      .next ((s.copyChunk c off place false h r.fp (s.ringBytes i r.start r.len)).modStream i fun t =>
        (t.modRec no fun r => { r with stage := .resolved, cand := none, result := some h, work := .idle }).freeSpan
          r.start r.len) := by
  obtain ⟨m, bad, bs, ch, hcopy⟩ := s.copyChunk_frame c off place false h r.fp (s.ringBytes i r.start r.len)
  change execChunkCopyDone i no s = _
  unfold execChunkCopyDone
  rw [hr]
  dsimp only
  rw [hw]
  dsimp only
  rw [if_neg (by rw [hcopy]; exact ht)]

/-- The head of the queue leaves, its handle not filling the recipe buffer (R17). -/
theorem State.leaveOne_of_room {s : State} {i h o : Nat} {r : ChunkRec} {x : Obj} (hi : i < 8)
    (hlen : (s.stream i).recipe.length < 4095) (ho : (s.stream i).object = some o) (hx : s.obj o = some x) :
    s.leaveOne i r h = (s.modStream i fun t =>
      { t with queue := t.queue.drop 1, recipe := t.recipe ++ [h] }.freeSpan r.start r.len).setObj o
        (some { x with chunks := x.chunks + 1 }) := by
  have hstream := State.stream_modStream s i i fun t =>
    { t with queue := t.queue.drop 1, recipe := t.recipe ++ [h] }.freeSpan r.start r.len
  rw [if_pos ⟨rfl, hi⟩, Stream.freeSpan_eq] at hstream
  unfold State.leaveOne
  dsimp only
  have hobj : ((s.modStream i fun t =>
      { t with queue := t.queue.drop 1, recipe := t.recipe ++ [h] }.freeSpan r.start r.len).stream i).object.bind
        (fun o => ((s.modStream i fun t =>
          { t with queue := t.queue.drop 1, recipe := t.recipe ++ [h] }.freeSpan r.start r.len).obj o).map fun x => (o, x)) =
      some (o, x) := by
    rw [hstream, ho]
    exact congrArg (Option.map fun x => (o, x)) hx
  generalize (s.modStream i fun t =>
    { t with queue := t.queue.drop 1, recipe := t.recipe ++ [h] }.freeSpan r.start r.len) = u at hstream hobj ⊢
  rw [hobj]
  dsimp only
  rw [show (u.setObj o (some { x with chunks := x.chunks + 1 })).stream i = u.stream i from rfl, hstream, if_neg]
  simp only [List.length_append, List.length_singleton]
  omega

/-- Settles O24. -/
theorem chunksAreCopiedAndLeave : Obligations.ChunksAreCopiedAndLeave := by
  refine ⟨fun s i no h c off place b r x v hi hr hw ht hb hx hb4 hv hs => ?_,
    fun s i no h c off place b r x v a hi hr hw ht hb hx hb4 hv hs ha hfit => ?_,
    fun s i h o r x hi hact hq hst hw hres hlen hwo ho hx => ?_⟩
  · have hexec := exec_chunkCopyDone_of_copy hr hw ht
    rw [State.copyChunk_of_buffer hb hx, State.lateCopy_of_not_sealing] at hexec
    · have hlen : (s.ringBytes i r.start r.len).length = r.len := State.length_ringBytes ..
      refine ⟨_, hexec, ?_, fun p hp hbad => ?_, ?_, State.buffer_setBuffer hb4 _, State.stream_setStream_same hi _, rfl⟩
      · have hread := State.read_writeMem s (bufferAddress b off) (s.ringBytes i r.start r.len)
        rw [hlen] at hread
        exact hread
      · exact Memory.get_writeMem (by rw [hlen]; exact hp) fun x hx _ => hbad x hx
      · exact (State.writeMem_mec ..).trans (by rw [hlen])
    · intro w hw
      obtain rfl : v = w := Option.some.inj (hv.symm.trans hw)
      rw [hs]
      exact ContState.noConfusion
  · have hexec := exec_chunkCopyDone_of_copy hr hw ht
    have hlen : (s.ringBytes i r.start r.len).length = r.len := State.length_ringBytes ..
    have hread := State.read_writeMem s (bufferAddress b off) (s.ringBytes i r.start r.len)
    have hbad : ∀ y ∈ (s.writeMem (bufferAddress b off) (s.ringBytes i r.start r.len)).mec.bad,
        wordTouches (bufferAddress b off) r.len y = false := fun y hy => by
      rw [State.writeMem_mec, hlen] at hy
      simpa using (List.mem_filter.1 hy).2
    rw [hlen] at hread
    have hbuffer : ((s.writeMem (bufferAddress b off) (s.ringBytes i r.start r.len)).setBuffer b
        (some { x with places := x.places.set place (.chunk false h r.fp off) })).buffer b =
          some { x with places := x.places.set place (.chunk false h r.fp off) } := State.buffer_setBuffer hb4 _
    rw [State.copyChunk_of_buffer hb hx] at hexec
    generalize hu : (s.writeMem (bufferAddress b off) (s.ringBytes i r.start r.len)).setBuffer b
      (some { x with places := x.places.set place (.chunk false h r.fp off) }) = u at hexec hbuffer
    have hframe : u = { s with ctm := u.ctm, mec := u.mec, mem := u.mem } := by rw [← hu]; rfl
    have hjobs : s.sameJobs u := by rw [hframe]; exact fun _ _ => ⟨rfl, fun _ => rfl⟩
    obtain ⟨hlate, hmem⟩ := State.lateCopy_of_sealing (s := u) (c := c) (b := b) (a := a)
      (by rw [hframe]; exact hv) (by rw [hframe]; exact ha) hs
    obtain ⟨m, bad, ch, hcopied⟩ := u.lateCopy_frame c b
    refine ⟨_, hexec, ?_, ?_, ?_, fun p hp => ?_, ?_⟩
    · refine (Memory.read_congr fun p hlo hhi => ?_).trans hread
      refine (hmem p ?_ fun y hy => ?_).trans (by rw [← hu]; rfl)
      · exact Nat.lt_of_lt_of_le hhi (by rw [bufferAddress, bufferAddress]; omega)
      · have hfree := hbad y (by rw [← hu] at hy; exact hy)
        simp only [wordTouches, Bool.and_eq_false_iff, decide_eq_false_iff_not] at hfree
        omega
    · exact (congrArg (fun t => State.buffer t b) hcopied).trans hbuffer
    · refine (State.stream_setStream_same hi _).trans ?_
      rw [hcopied, hframe]; rfl
    · exact ⟨(hlate p hp).1.trans (hjobs p hp).1, fun k => ((hlate p hp).2 k).trans ((hjobs p hp).2 k)⟩
    · rw [hcopied, hframe]; rfl
  · have hexec : exec (.queueLeave i) s = .next (s.leaveLoop i 1) :=
      congrArg Host.Outcome.next (congrArg (fun q => s.leaveLoop i (List.length q)) hq)
    rw [State.leaveLoop] at hexec
    rw [if_pos ⟨hact, by omega, hwo⟩, hq] at hexec
    simp only [hst, hw, hres] at hexec
    rw [State.leaveLoop, State.leaveOne_of_room hi hlen ho hx] at hexec
    have hstream := State.stream_modStream s i i fun t =>
      { t with queue := t.queue.drop 1, recipe := t.recipe ++ [h] }.freeSpan r.start r.len
    rw [if_pos ⟨rfl, hi⟩, Stream.freeSpan_eq] at hstream
    refine completes_of_eq hexec fun t ht => ?_
    have hsame : (t.stream i).queue = (s.stream i).queue.drop 1 ∧ (t.stream i).recipe = (s.stream i).recipe ++ [h] := by
      rw [ht]; exact ⟨congrArg Stream.queue hstream, congrArg Stream.recipe hstream⟩
    refine ⟨?_, ?_, ?_, fun p hp => ?_, fun j hj => ?_, ?_, ?_, ?_⟩
    · rw [hsame.1, hq]; rfl
    · exact hsame.2
    · rw [ht]; exact (State.obj_setObj ..).trans (if_pos rfl)
    · rw [ht]; exact (State.obj_setObj ..).trans (if_neg hp)
    · rw [ht]; exact State.stream_setStream_other hj _
    · rw [ht]; rfl
    · rw [ht]; rfl
    · rw [ht]; rfl

end Sys2Proof.Machine

/-! # Proofs: The chunk index -/

namespace Sys2Proof.Machine

/-! ## Containers' live bytes (R86) -/

theorem State.modCont_of_cont {s : State} {c : Nat} {v : Container} (hv : s.cont c = some v) (f : Container → Container) :
    s.modCont c f = s.setCont c (some (f v)) := by
  unfold State.modCont; rw [hv]

theorem State.cont_setCont_same (s : State) (c : Nat) (v : Option Container) : (s.setCont c v).cont c = v :=
  (State.cont_setCont ..).trans (if_pos rfl)

theorem State.cont_setCont_other (s : State) {c d : Nat} (h : d ≠ c) (v : Option Container) :
    (s.setCont c v).cont d = s.cont d := (State.cont_setCont ..).trans (if_neg h)

theorem State.testFree_of_held {s : State} {c : Nat} {v : Container} (hv : s.cont c = some v)
    (h : (v.spent && !s.isSource c && !s.beingReplayed c) = false) : s.testFree c = s := by
  unfold State.testFree
  rw [hv]
  exact if_neg (by rw [h]; exact Bool.noConfusion)

/-- A container gone FREE, at the tail of the quarantine list (R86). -/
def State.quarantined (s : State) (c : Nat) : State :=
  (s.setCont c none).onTables fun t => t.setLists t.freeList (t.quarantine ++ [c])

theorem State.cont_quarantined (s : State) (c d : Nat) : (s.quarantined c).cont d = if d = c then none else s.cont d :=
  State.cont_setCont s c d none

theorem State.quarantined_lists (s : State) (c : Nat) : (s.quarantined c).tables.quarantine = s.tables.quarantine ++ [c] ∧
    (s.quarantined c).tables.freeList = s.tables.freeList := ⟨rfl, rfl⟩

theorem State.testFree_of_spent {s : State} {c : Nat} {v : Container} (hv : s.cont c = some v) (hs : v.spent = true)
    (hr : s.isSource c = false) (hp : s.beingReplayed c = false) (hn : s.ctm.noFree = false) :
    s.testFree c = s.quarantined c := by
  unfold State.testFree
  rw [hv]
  dsimp only
  rw [if_pos (by rw [hs, hr, hp]; rfl), if_neg (by rw [hn]; exact Bool.noConfusion)]
  rfl

theorem Container.not_spent_of_live {v : Container} (hk : v.kind = .data) (hl : v.live ≠ 0) : v.spent = false := by
  simp [Container.spent, hk, hl]

theorem Container.spent_of_data {v : Container} (hs : v.state = .sealed) (hk : v.kind = .data) (hr : v.reads = 0)
    (hl : v.live = 0) : v.spent = true := by simp [Container.spent, hs, hk, hr, hl]

theorem State.liveLower_of_kept {s : State} {c n : Nat} {v : Container} (hv : s.cont c = some v) (hk : v.kind = .data)
    (hl : v.live - n ≠ 0) : s.liveLower c n = s.setCont c (some { v with live := v.live - n }) := by
  unfold State.liveLower
  rw [State.modCont_of_cont hv, State.testFree_of_held (State.cont_setCont_same ..)]
  rw [Container.not_spent_of_live (v := { v with live := v.live - n }) hk hl]; rfl

/-! ## Entries that go and come (R28, R34, R40) -/

theorem Tables.leaveChain_eq (t : Tables) (h : Nat) (f : Fp) : t.leaveChain h f =
    { t with headers := (t.leaveChain h f).headers, bad := (t.leaveChain h f).bad } := by
  unfold Tables.leaveChain; split <;> rfl

theorem Tables.joinChain_eq (t : Tables) (h : Nat) (f : Fp) : t.joinChain h f =
    { t with headers := (t.joinChain h f).headers, bad := (t.joinChain h f).bad } := by
  unfold Tables.joinChain; split <;> rfl

theorem Tables.header_setHeader (t : Tables) (b d : Nat) (x : BucketHeader) :
    (t.setHeader b x).header d = if d = b then x else t.header d := by
  change (getKey (if x = BucketHeader.blank then dropKey t.headers b else putKey t.headers b x) d).getD BucketHeader.blank = _
  by_cases hd : d = b <;> by_cases hx : x = BucketHeader.blank <;> simp [hd, hx, getKey_dropKey, getKey_putKey, Tables.header]

/-- An overflow entry joins the end of its bucket's chain (R28). -/
theorem Tables.chain_joinChain {t : Tables} {h : Nat} (f : Fp) (hh : overflowBase ≤ h) :
    ((t.joinChain h f).header (t.bucketOf f)).chain = (t.header (t.bucketOf f)).chain ++ [h - overflowBase] := by
  unfold Tables.joinChain
  rw [if_neg (Nat.not_lt.2 hh)]
  dsimp only
  rw [Tables.header_setHeader, if_pos rfl]

/-- The tables with an entry off its chain and empty. -/
def State.entryGone (s : State) (h : Nat) (e : IdxEntry) : State :=
  s.onTables fun t => (t.leaveChain h e.fp).setEntry h none

theorem State.removeEntry_eq (s : State) (h : Nat) (e : IdxEntry) :
    s.removeEntry h e = (s.entryGone h e).liveLower e.container (fpLength e.fp) := rfl

theorem State.entryGone_eq (s : State) (h : Nat) (e : IdxEntry) : s.entryGone h e =
    { s with tables := { s.tables with
      entries := setKey s.tables.entries h none, headers := (s.entryGone h e).tables.headers,
      bad := (s.entryGone h e).tables.bad } } := by
  unfold State.entryGone State.onTables
  dsimp only
  rw [Tables.leaveChain_eq]
  rfl

theorem State.entryGone_lists (s : State) (h : Nat) (e : IdxEntry) :
    (s.entryGone h e).tables.quarantine = s.tables.quarantine ∧ (s.entryGone h e).tables.freeList = s.tables.freeList := by
  rw [State.entryGone_eq]; exact ⟨rfl, rfl⟩

theorem State.cont_entryGone (s : State) (h : Nat) (e : IdxEntry) (c : Nat) : (s.entryGone h e).cont c = s.cont c := by
  rw [State.entryGone_eq]; rfl

theorem Tables.getKey_of_entries {t u : Tables} {h : Nat} {e : Option IdxEntry} (he : t.entries = setKey u.entries h e) :
    getKey t.entries h = e ∧ ∀ p, p ≠ h → getKey t.entries p = getKey u.entries p :=
  ⟨by rw [he, getKey_setKey, if_pos rfl], fun p hp => by rw [he, getKey_setKey, if_neg hp]⟩

theorem Tables.getKey_setEntry_other (t : Tables) {h p : Nat} (hp : p ≠ h) (v : Option IdxEntry) :
    getKey (t.setEntry h v).entries p = getKey t.entries p := (getKey_setKey t.entries h p v).trans (if_neg hp)

theorem Tables.entry_eq_none_of_getKey {t : Tables} {h : Nat} (hk : getKey t.entries h = none) : t.entry h = none := by
  unfold Tables.entry; rw [hk]; exact ite_self _

/-! ## Reference counts (R37 to R40) -/

theorem State.idxLower_of_entry {s : State} {h : Nat} {e : IdxEntry} (hl : s.tables.lostPart h = false)
    (he : s.tables.entry h = some e) : s.idxLower h =
      if e.refcount = pinned then s.idxAnswer .pinned
      else if e.refcount = 0 then s.idxAnswer .ok
      else if e.refcount = 1 then (s.removeEntry h e).idxAnswer .removed
      else (s.onTables fun t => t.setEntry h (some { e with refcount := e.refcount - 1 })).idxAnswer .ok := by
  unfold State.idxLower
  rw [if_neg (by rw [hl]; exact Bool.noConfusion), he]

theorem State.idxLower_of_shared {s : State} {h : Nat} {e : IdxEntry} (hl : s.tables.lostPart h = false)
    (he : s.tables.entry h = some e) (h2 : 2 ≤ e.refcount) (hp : e.refcount ≠ pinned) : s.idxLower h =
      (s.onTables fun t => t.setEntry h (some { e with refcount := e.refcount - 1 })).idxAnswer .ok := by
  rw [State.idxLower_of_entry hl he, if_neg hp, if_neg (by omega), if_neg (by omega)]

theorem State.idxLower_of_last {s : State} {h : Nat} {e : IdxEntry} (hl : s.tables.lostPart h = false)
    (he : s.tables.entry h = some e) (h1 : e.refcount = 1) : s.idxLower h = (s.removeEntry h e).idxAnswer .removed := by
  rw [State.idxLower_of_entry hl he, if_neg (by rw [h1]; decide), if_neg (by omega), if_pos h1]

/-- Settles O25: the branches of a lower, and the container test that the last one runs. -/
theorem referenceCounts : Obligations.ReferenceCounts := by
  refine ⟨fun s h => ⟨fun e hl he h2 hp => ?_, fun e v hl he h1 hv hlive hk => ?_, fun e hl he hp => ?_, fun e hl he h0 => ?_,
    fun hl => ?_, fun hl he => ?_⟩, fun s h e v hl he h1 hv hst hk hlive hr hsrc hrep hnf => ?_⟩
  · exact congrArg Host.Outcome.next (State.idxLower_of_shared hl he h2 hp)
  · have hexec : exec (.lower h) s = .next (s.idxLower h) := rfl
    have hcont : (s.entryGone h e).cont e.container = some v := (State.cont_entryGone ..).trans hv
    rw [State.idxLower_of_last hl he h1, State.removeEntry_eq,
      State.liveLower_of_kept (s := s.entryGone h e) hcont hk hlive] at hexec
    obtain ⟨hkey, hother⟩ := Tables.getKey_of_entries (t := (s.entryGone h e).tables) (u := s.tables) (h := h) (e := none)
      (by rw [State.entryGone_eq])
    exact ⟨_, hexec, rfl, Tables.entry_eq_none_of_getKey hkey, hother, State.cont_setCont_same ..,
      (s.entryGone_lists h e).1, rfl, rfl⟩
  · exact congrArg Host.Outcome.next ((State.idxLower_of_entry hl he).trans (if_pos hp))
  · refine congrArg Host.Outcome.next ((State.idxLower_of_entry hl he).trans ?_)
    rw [if_neg (by rw [h0]; decide), if_pos h0]
    rfl
  · exact congrArg Host.Outcome.next (if_pos hl)
  · change Host.Outcome.next (s.idxLower h) = _
    unfold State.idxLower
    rw [if_neg (by rw [hl]; exact Bool.noConfusion), he]
  · have hexec : exec (.lower h) s = .next (s.idxLower h) := rfl
    have hcont : (s.entryGone h e).cont e.container = some v := (State.cont_entryGone ..).trans hv
    have hspent : ({ v with live := v.live - fpLength e.fp } : Container).spent = true :=
      Container.spent_of_data hst hk hr (by dsimp only; omega)
    rw [State.idxLower_of_last hl he h1, State.removeEntry_eq, State.liveLower,
      State.modCont_of_cont hcont, State.testFree_of_spent (State.cont_setCont_same ..) hspent (by exact hsrc)
        (by exact hrep) (by exact hnf)] at hexec
    refine ⟨_, hexec, rfl, (State.cont_quarantined ..).trans (if_pos rfl), ?_, ?_, fun d hd => ?_⟩
    · exact congrArg (fun q => q ++ [e.container]) (s.entryGone_lists h e).1
    · exact (s.entryGone_lists h e).2
    · exact (State.cont_quarantined ..).trans ((if_neg hd).trans
        ((State.cont_setCont_other _ hd _).trans (State.cont_entryGone ..)))

/-! ## Holds (R33) -/

theorem contains_hold {hs : List Hold} {x : Hold} : x ∈ hs → hs.contains x = true := fun h => by simpa using h

theorem State.idxConfirm_of_listed {s : State} {h i : Nat} (hm : ({ stream := i, handle := h } : Hold) ∈ s.tables.holds) :
    s.idxConfirm h i = { s with
      tables := s.tables.setHolds (s.tables.holds.erase { stream := i, handle := h }),
      idx := { s.idx with answer := .ok } } := if_pos (contains_hold hm)

theorem State.idxConfirm_of_unlisted {s : State} {h i : Nat}
    (hm : ({ stream := i, handle := h } : Hold) ∉ s.tables.holds) : s.idxConfirm h i = s.idxAnswer .noEntry :=
  if_neg fun hc => hm (by simpa using hc)

theorem State.idxDrop_of_unlisted {s : State} {h i : Nat} {reason : HoldReason}
    (hm : ({ stream := i, handle := h } : Hold) ∉ s.tables.holds) : s.idxDrop h i reason = s.idxAnswer .noEntry :=
  if_neg fun hc => hm (by simpa using hc)

/-- A hold dropped as a collision, of an entry that others refer to (R33, R38). -/
theorem State.idxDrop_of_difference {s : State} {h i : Nat} {e : IdxEntry}
    (hm : ({ stream := i, handle := h } : Hold) ∈ s.tables.holds) (hl : s.tables.lostPart h = false)
    (he : s.tables.entry h = some e) (h2 : 2 ≤ e.refcount) (hp : e.refcount ≠ pinned) :
    s.idxDrop h i .difference = { s with
      tables := (s.tables.setHolds (s.tables.holds.erase { stream := i, handle := h })).setEntry h
        (some { e with refcount := e.refcount - 1 }),
      idx := { s.idx with answer := .ok, collisions := tallyUp 4 s.idx.collisions } } := by
  unfold State.idxDrop
  rw [if_pos (contains_hold hm), if_pos rfl]
  rw [State.idxLower_of_shared (s := s.onTables fun t => t.setHolds (dropFirstHold i h t.holds)) hl he h2 hp]
  rfl

/-- Settles O26. -/
theorem holdsConfirmOrDrop : Obligations.HoldsConfirmOrDrop := by
  refine ⟨fun s h i r hi hm hr => ?_, fun s h i r e hi hm hl he h2 hp hr hact => ?_, fun s h i reason hm => ⟨?_, fun hq ho => ?_⟩⟩
  · change execConfirmHold h i s = _
    unfold execConfirmHold
    dsimp only
    rw [State.idxConfirm_of_listed hm]
    rw [show State.stream { s with
      tables := s.tables.setHolds (s.tables.holds.erase { stream := i, handle := h }),
      idx := { s.idx with answer := .ok } } i = s.stream i from rfl, hr]
    rfl
  · have hexec : exec (.dropHold h i .difference) s = .next ((s.idxDrop h i .difference).setStream i
        ((s.stream i).modRec r.no fun r => { r with work := .place })) := by
      change execDropHold h i .difference s = _
      unfold execDropHold
      have hstream : (s.idxDrop h i .difference).stream i = s.stream i := by
        rw [State.idxDrop_of_difference hm hl he h2 hp]; rfl
      have hstate : (s.stream i).state ≠ .aborting := by
        intro ha; simp [Stream.active, ha] at hact
      dsimp only
      rw [hstream, hr]
      dsimp only
      unfold State.holdDropped
      dsimp only
      rw [hstream, if_neg hstate, if_pos hact]
    rw [State.idxDrop_of_difference hm hl he h2 hp] at hexec
    refine ⟨_, hexec, rfl, Tables.entry_setEntry_of_entry he _, fun p hp => ?_, rfl, State.stream_setStream_same hi _, rfl⟩
    exact Tables.getKey_setEntry_other _ hp _
  · change ∃ t, execConfirmHold h i s = .next t ∧ _
    unfold execConfirmHold
    dsimp only
    rw [State.idxConfirm_of_unlisted hm]
    refine ⟨_, rfl, ?_⟩
    split <;> exact ⟨rfl, rfl⟩
  · refine ⟨s.idxAnswer .noEntry, ?_, rfl, rfl⟩
    change execDropHold h i reason s = _
    unfold execDropHold
    dsimp only
    rw [State.idxDrop_of_unlisted hm, show (s.idxAnswer .noEntry).stream i = s.stream i from rfl, hq]
    rfl

/-! ## Raises, replay creates, and the states of an entry (R37, R40 to R42) -/

theorem State.idxRaise_of_entry {s : State} {h : Nat} {e : IdxEntry} (hl : s.tables.lostPart h = false)
    (he : s.tables.entry h = some e) : s.idxRaise h = if e.refcount = pinned then s.idxAnswer .pinned
      else (s.onTables fun t => t.setEntry h (some { e with refcount := raiseCount e.refcount })).idxAnswer .ok := by
  unfold State.idxRaise
  rw [if_neg (by rw [hl]; exact Bool.noConfusion), he]

/-- Settles O27. -/
theorem raisesAndReplayCreates : Obligations.RaisesAndReplayCreates := by
  refine ⟨fun s h => ⟨fun e hl he hp => ?_, fun e hl he hp => ?_, fun hl => ?_, fun hl he => ?_⟩,
    fun s h f c off => ⟨fun hh hl he => ?_, fun e hh hl he => ?_, fun hh hl => ?_, fun hh => ?_⟩⟩
  · refine congrArg Host.Outcome.next ((State.idxRaise_of_entry hl he).trans ?_)
    have hcount : raiseCount e.refcount = e.refcount + 1 := if_pos hp
    rw [if_neg (by exact Nat.ne_of_lt hp), hcount]
    rfl
  · exact congrArg Host.Outcome.next ((State.idxRaise_of_entry hl he).trans (if_pos hp))
  · exact congrArg Host.Outcome.next (if_pos hl)
  · change Host.Outcome.next (s.idxRaise h) = _
    unfold State.idxRaise
    rw [if_neg (by rw [hl]; exact Bool.noConfusion), he]
    rfl
  · have hexec : exec (.replayCreate h f c off) s = .next (((s.onTables fun t => (t.joinChain h f).setEntry h (some
        { state := .stored, fp := f, container := c, offset := off, refcount := 0, move := none })).liveRaise c
          (fpLength f)).idxAnswer .ok) := by
      change Host.Outcome.next (s.idxCreate h f c off) = _
      unfold State.idxCreate
      rw [if_neg (by rw [hh]; decide), if_neg (by rw [hl]; exact Bool.noConfusion), he]
    have hframe : ∀ u : State, u.liveRaise c (fpLength f) = { u with tables := { u.tables with
        containers := (u.liveRaise c (fpLength f)).tables.containers, bad := (u.liveRaise c (fpLength f)).tables.bad } } :=
      fun u => u.modCont_eq c _
    refine completes_of_eq hexec fun t ht => ?_
    have hentries : t.tables.entries = setKey s.tables.entries h (some
        { state := .stored, fp := f, container := c, offset := off, refcount := 0, move := none }) := by
      rw [ht, hframe, ← Tables.joinChain_entries s.tables h f]; rfl
    obtain ⟨hkey, hother⟩ := Tables.getKey_of_entries hentries
    refine ⟨?_, hkey, hother, fun v hv => ?_, fun ho => ?_, ?_⟩
    · rw [ht, hframe]; rfl
    · rw [ht]
      refine (State.cont_modCont _ c c _).trans ((if_pos rfl).trans ?_)
      exact congrArg (Option.map _) ((congrArg (fun m => getKey m c) (Tables.joinChain_containers s.tables h f)).trans hv)
    · rw [ht, hframe]; exact Tables.chain_joinChain f ho
    · rw [ht, hframe]; rfl
  · change Host.Outcome.next (s.idxCreate h f c off) = _
    unfold State.idxCreate
    rw [if_neg (by rw [hh]; decide), if_neg (by rw [hl]; exact Bool.noConfusion), he]
    rfl
  · change Host.Outcome.next (s.idxCreate h f c off) = _
    unfold State.idxCreate
    rw [if_neg (by rw [hh]; decide), if_pos hl]
    rfl
  · exact congrArg Host.Outcome.next (if_pos (by rw [hh]; rfl))

theorem State.idxStored_of_match {s : State} {h : Nat} {e : IdxEntry} (hl : s.tables.lostPart h = false)
    (he : s.tables.entry h = some e) :
    (e.state = .pending → s.idxStored h e.fp e.container e.offset =
      (s.onTables fun t => t.setEntry h (some { e with state := .stored })).idxAnswer .ok) ∧
    (e.state = .damaged → s.idxStored h e.fp e.container e.offset = s.idxAnswer .ok) := by
  unfold State.idxStored
  rw [if_neg (by rw [hl]; exact Bool.noConfusion), he]
  dsimp only
  rw [if_pos ⟨rfl, rfl, rfl⟩]
  exact ⟨fun hs => by rw [hs], fun hs => by rw [hs]⟩

theorem State.idxStored_of_mismatch {s : State} {h c off : Nat} {f : Fp} {e : IdxEntry} (hl : s.tables.lostPart h = false)
    (he : s.tables.entry h = some e) (hne : ¬ (e.fp = f ∧ e.container = c ∧ e.offset = off)) :
    s.idxStored h f c off = s.idxAnswer .noEntry := by
  unfold State.idxStored
  rw [if_neg (by rw [hl]; exact Bool.noConfusion), he]
  exact if_neg hne

theorem State.idxDamage_of_entry {s : State} {h : Nat} {f : Fp} {e : IdxEntry} (hl : s.tables.lostPart h = false)
    (he : s.tables.entry h = some e) : s.idxDamage h f = if e.fp = f then
        (s.onTables fun t => t.setEntry h (some { e with state := .damaged })).idxAnswer .ok
      else s.idxAnswer .noEntry := by
  unfold State.idxDamage
  rw [if_neg (by rw [hl]; exact Bool.noConfusion), he]

theorem State.idxRemoveIf_of_entry {s : State} {h : Nat} {e : IdxEntry} (hl : s.tables.lostPart h = false)
    (he : s.tables.entry h = some e) : s.idxRemoveIf h =
      if e.refcount = 0 then (s.removeEntry h e).idxAnswer .removed else s.idxAnswer .kept := by
  unfold State.idxRemoveIf
  rw [if_neg (by rw [hl]; exact Bool.noConfusion), he]

/-- Settles O28. -/
theorem entryStates : Obligations.EntryStates := by
  refine ⟨fun s h e hl he => ⟨fun h0 => ?_, fun h0 => ?_⟩,
    fun s h f c off e hl he => ⟨fun hf hc ho hs => ?_, fun hf hc ho hs => ?_, fun hne => ?_, fun hf => ?_, fun hf => ?_⟩⟩
  · have hexec : exec (.removeIfUnreferenced h) s = .next ((s.removeEntry h e).idxAnswer .removed) :=
      congrArg Host.Outcome.next ((State.idxRemoveIf_of_entry hl he).trans (if_pos h0))
    obtain ⟨hd, cs, q, b, d, hframe⟩ := s.removeEntry_frame h e
    rw [hframe] at hexec
    refine completes_of_eq hexec fun t ht => ?_
    obtain ⟨hkey, hother⟩ := Tables.getKey_of_entries (t := t.tables) (u := s.tables) (h := h) (e := none) (by rw [ht]; rfl)
    refine ⟨?_, Tables.entry_eq_none_of_getKey hkey, hother, ?_, ?_⟩ <;> rw [ht] <;> rfl
  · exact congrArg Host.Outcome.next ((State.idxRemoveIf_of_entry hl he).trans (if_neg h0))
  · subst hf hc ho
    exact congrArg Host.Outcome.next ((State.idxStored_of_match hl he).1 hs)
  · subst hf hc ho
    exact congrArg Host.Outcome.next ((State.idxStored_of_match hl he).2 hs)
  · refine congrArg Host.Outcome.next (State.idxStored_of_mismatch hl he ?_)
    rintro ⟨hf, hc, ho⟩
    exact hne.elim (fun n => n hf) fun n => n.elim (fun n => n hc) fun n => n ho
  · exact congrArg Host.Outcome.next ((State.idxDamage_of_entry hl he).trans (if_pos hf))
  · exact congrArg Host.Outcome.next ((State.idxDamage_of_entry hl he).trans (if_neg hf))

/-! ## Locations that move (R43, R92, R193) -/

theorem State.idxSetMove_of_entry {s : State} {h source dest : Nat} {f : Fp} {e : IdxEntry} (hl : s.tables.lostPart h = false)
    (he : s.tables.entry h = some e) : s.idxSetMove h f source dest = if e.fp = f ∧ e.container = source then
        (s.onTables fun t => t.setEntry h (some { e with move := some dest })).idxAnswer .ok
      else s.idxAnswer .noEntry := by
  unfold State.idxSetMove
  rw [if_neg (by rw [hl]; exact Bool.noConfusion), he]

theorem State.idxSwitch_of_entry {s : State} {h source dest off : Nat} {f : Fp} {e : IdxEntry}
    (hl : s.tables.lostPart h = false) (he : s.tables.entry h = some e) : s.idxSwitch h f source dest off =
      if e.fp = f ∧ e.container = source ∧ e.move = some dest then
        (((s.onTables fun t =>
          t.setEntry h (some { e with container := dest, offset := off, move := none })).liveRaise dest
            (fpLength f)).liveLower source (fpLength f)).idxAnswer .ok
      else s.idxAnswer .noEntry := by
  unfold State.idxSwitch
  rw [if_neg (by rw [hl]; exact Bool.noConfusion), he]

theorem State.idxReplayMove_of_entry {s : State} {h c off : Nat} {f : Fp} {e : IdxEntry} (hl : s.tables.lostPart h = false)
    (he : s.tables.entry h = some e) : s.idxReplayMove h f c off = if e.fp = f then
        (((s.onTables fun t => t.setEntry h (some { e with container := c, offset := off })).liveRaise c
          (fpLength f)).liveLower e.container (fpLength f)).idxAnswer .ok
      else s.idxAnswer .noEntry := by
  unfold State.idxReplayMove
  rw [if_neg (by rw [hl]; exact Bool.noConfusion), he]

/-- An entry written again: it alone changes, and no container. -/
theorem State.rewritten_spec (s : State) {h : Nat} {e : IdxEntry} (he : s.tables.entry h = some e) (v : IdxEntry) :
    (s.onTables fun t => t.setEntry h (some v)).tables.entry h = some v ∧
      (∀ p, p ≠ h → getKey (s.onTables fun t => t.setEntry h (some v)).tables.entries p = getKey s.tables.entries p) ∧
      ∀ c, (s.onTables fun t => t.setEntry h (some v)).cont c = s.cont c :=
  ⟨Tables.entry_setEntry_of_entry he _, fun _ hp => Tables.getKey_setEntry_other _ hp _, fun _ => rfl⟩

theorem getKey_map {α : Type} (g : α → α) (m : Assoc α) (k : Nat) :
    getKey (m.map fun e => (e.1, g e.2)) k = (getKey m k).map g := by
  induction m with
  | nil => rfl
  | cons e m ih =>
    simp only [List.map_cons, getKey, ih]
    split <;> rfl

/-- Settles O29. -/
theorem locationsMove : Obligations.LocationsMove := by
  refine ⟨fun s h f source dest off e hl he => ⟨fun hf hc => ?_, fun hne => ?_, fun v w hf hc hm hsd hv hk hlive hw => ?_,
    fun hne => ?_⟩, fun s h f c off e hl he hf => ?_, fun s => ?_⟩
  · exact congrArg Host.Outcome.next ((State.idxSetMove_of_entry hl he).trans (if_pos ⟨hf, hc⟩))
  · refine congrArg Host.Outcome.next ((State.idxSetMove_of_entry hl he).trans (if_neg ?_))
    rintro ⟨hf, hc⟩
    exact hne.elim (fun n => n hf) fun n => n hc
  · have hexec : exec (.switchLocation h f source dest off) s = .next _ := congrArg Host.Outcome.next
      ((State.idxSwitch_of_entry (off := off) hl he).trans (if_pos ⟨hf, hc, hm⟩))
    obtain ⟨hentry, hother, hcont⟩ := s.rewritten_spec he { e with container := dest, offset := off, move := none }
    generalize hu : (s.onTables fun t => t.setEntry h (some { e with container := dest, offset := off, move := none })) = u at *
    rw [State.liveRaise, State.modCont_of_cont (v := w) ((hcont dest).trans hw), State.liveLower_of_kept (v := v)
      ((State.cont_setCont_other _ hsd _).trans ((hcont source).trans hv)) hk hlive] at hexec
    refine ⟨_, hexec, ?_, hentry, hother, State.cont_setCont_same .., ?_, fun d hs hd => ?_, ?_⟩
    · rw [← hu]; rfl
    · exact (State.cont_setCont_other _ (Ne.symm hsd) _).trans (State.cont_setCont_same ..)
    · exact (State.cont_setCont_other _ hs _).trans ((State.cont_setCont_other _ hd _).trans (hcont d))
    · rw [← hu]; rfl
  · refine congrArg Host.Outcome.next ((State.idxSwitch_of_entry hl he).trans (if_neg ?_))
    rintro ⟨hf, hc, hm⟩
    exact hne.elim (fun n => n hf) fun n => n.elim (fun n => n hc) fun n => n hm
  · have hexec : exec (.replayMove h f c off) s = .next _ :=
      congrArg Host.Outcome.next ((State.idxReplayMove_of_entry hl he).trans (if_pos hf))
    obtain ⟨hentry, hother, _⟩ := s.rewritten_spec he { e with container := c, offset := off }
    generalize hu : (s.onTables fun t => t.setEntry h (some { e with container := c, offset := off })) = u at *
    obtain ⟨cs, q, b, d, hframe⟩ := (u.liveRaise c (fpLength f)).modCont_testFree_frame e.container e.container
      fun r => { r with live := r.live - fpLength f }
    rw [State.liveLower, hframe, State.liveRaise, State.modCont_eq] at hexec
    refine ⟨_, hexec, ?_, hentry, hother, ?_⟩ <;> rw [← hu] <;> rfl
  · exact ⟨_, rfl, fun h => getKey_map (fun e : IdxEntry => { e with move := none }) s.tables.entries h, rfl⟩

/-! ## Sums and lost buckets (R45, R182) -/

theorem Tables.sumOf_eq (t : Tables) (c : Nat) :
    t.sumOf c = (t.entries.map fun e => if e.2.container = c then fpLength e.2.fp else 0).sum := by
  have hfold : ∀ (es : List (Nat × IdxEntry)) (n : Nat),
      (es.filter fun e => e.2.container = c).foldl (fun n e => n + fpLength e.2.fp) n =
        n + (es.map fun e => if e.2.container = c then fpLength e.2.fp else 0).sum := fun es => by
    induction es with
    | nil => intro n; rfl
    | cons e es ih =>
      intro n
      by_cases hc : e.2.container = c <;> simp [hc, ih, Nat.add_assoc]
  simpa [Tables.sumOf] using hfold t.entries 0

theorem State.wordRewritten_eq (s : State) (rs : List Region) : s.wordRewritten rs = { s with
    mec := (s.wordRewritten rs).mec, tables := { s.tables with bad := (s.wordRewritten rs).tables.bad } } := by
  unfold State.wordRewritten; split <;> rfl

theorem State.bad_wordRewritten {s : State} {rs : List Region} {w : Nat} (h : w ∈ (s.wordRewritten rs).tables.bad) :
    w ∈ s.tables.bad := by
  unfold State.wordRewritten at h
  split at h
  · exact (List.mem_filter.1 h).1
  · exact h

/-- Settles O31. -/
theorem sumsAndLostBuckets : Obligations.SumsAndLostBuckets := by
  refine ⟨fun s c hr => ?_, fun s b w hb hl => ?_, fun s b copy => ?_, fun s h _ => rfl⟩
  · rw [← Tables.sumOf_eq]
    refine congrArg Host.Outcome.next (if_neg ?_)
    simpa using hr
  · have hexec : exec (.indexWordError (.way b w)) s = .next ((s.reportTaken .index).onTables fun t => t.loseBucket b) :=
      congrArg Host.Outcome.next (if_pos ⟨hb, hl⟩)
    refine ⟨_, hexec, ?_, fun d hd => ?_, rfl, rfl⟩
    · exact (Tables.header_setHeader ..).trans (if_pos rfl)
    · exact (Tables.header_setHeader ..).trans (if_neg hd)
  · exact ⟨s.wordRewritten [.index], rfl, s.wordRewritten_eq [.index], fun w hw => State.bad_wordRewritten hw⟩

end Sys2Proof.Machine

/-! # Proofs: Objects and their reads -/

namespace Sys2Proof.Machine

/-! ## Object requests (R55, R56) -/

theorem State.obj_taken (s : State) (c : Instr) (o : Nat) : (s.taken c).obj o = s.obj o := rfl

theorem State.getObject_of_asked {s : State} {tag id mode o : Nat} {r : Obj} (h : s.objectAsked id mode = some (o, r)) :
    s.getObject tag id mode = s.answer tag kindGetObject .ok (s.objectFields o r) := by
  unfold State.getObject; rw [h]

theorem State.getObject_of_missing {s : State} {tag id mode : Nat} (h : s.objectAsked id mode = none) :
    s.getObject tag id mode = s.refuse tag kindGetObject .noSuchObject := by
  unfold State.getObject; rw [h]

/-- A request of a running array for an object in a state in which its albums may be set (R55). -/
theorem State.setAlbums_of_object {s : State} {tag o : Nat} {albums : Albums} {r : Obj} (hr : s.running = true)
    (ho : s.obj o = some r) (hs : r.state = .opened ∨ r.state = .sealed) : s.setAlbums tag o albums =
      if r.state = .opened ∧ s.sealPlaced o = false then
        (s.setObj o (some { r with albums := albums })).answer tag kindSetAlbums .ok [⟨4, albums.toNat⟩]
      else s.onCtm fun m => { m with recordReqs := m.recordReqs ++ [.albums tag o albums] } := by
  unfold State.setAlbums
  rw [if_neg (State.not_failed_of_running hr), if_neg (by simp [hr]), ho]
  dsimp only
  rw [if_neg fun h => hs.elim h.1 h.2]

/-- Settles O32. -/
theorem objectRequests : Obligations.ObjectRequests := by
  refine ⟨fun s tag id r hu ho => ?_, fun s tag id o r hu ho => ?_, fun s tag id mode h => ?_,
    fun s tag o albums r hr ho hs hp => ?_, fun s tag o albums r hr ho hs => ?_⟩
  · have hasked : (s.taken (.getObject tag id 0)).objectAsked id 0 = some (id, r) := by
      simp [State.objectAsked, hu, State.obj_taken, ho]
    refine congrArg Host.Outcome.next ((State.getObject_of_asked hasked).trans ?_)
    exact State.answer_of_handedOver rfl ..
  · have hasked : (s.taken (.getObject tag id 1)).objectAsked id 1 = some (o, r) := by
      simp [State.objectAsked, hu, ho]
    refine congrArg Host.Outcome.next ((State.getObject_of_asked hasked).trans ?_)
    exact State.answer_of_handedOver rfl ..
  · have hasked : (s.taken (.getObject tag id mode)).objectAsked id mode = none := by
      rcases h with hu | ⟨rfl, ho⟩
      · simp [State.objectAsked, hu]
      · simp [State.objectAsked, State.obj_taken, ho]
    refine congrArg Host.Outcome.next ((State.getObject_of_missing hasked).trans ?_)
    exact State.answer_of_handedOver rfl ..
  · have hexec : exec (.setAlbums tag o albums) s = .next _ := congrArg Host.Outcome.next
      ((State.setAlbums_of_object (s := s.taken (.setAlbums tag o albums)) hr ho (Or.inl hs)).trans (if_pos ⟨hs, hp⟩))
    rw [State.answer_of_handedOver rfl] at hexec
    refine completes_of_eq hexec fun t ht => ?_
    have hobj : t.obj o = some { r with albums := albums } := by rw [ht]; exact (State.obj_setObj ..).trans (if_pos rfl)
    refine ⟨hobj, fun p hp => ?_, ?_, ?_⟩
    · rw [ht]; exact (State.obj_setObj ..).trans (if_neg hp)
    · rw [ht]; rfl
    · rw [hobj, ht]; rfl
  · refine congrArg Host.Outcome.next
      ((State.setAlbums_of_object (s := s.taken (.setAlbums tag o albums)) hr ho (Or.inr hs)).trans (if_neg ?_))
    rintro ⟨h, _⟩
    rw [hs] at h
    cases h

/-! ## Releases (R58 to R62) -/

theorem State.beginRelease_of_object {s : State} {o : Nat} {r : Obj} {tail : Option (List Nat)} (hr : s.obj o = some r) :
    s.beginRelease o tail = (s.setObj o (some { r with
      state := .releasing, stream := none, walk := some Walk.start, tail := tail, recorded := true })).joinRelease o := by
  unfold State.beginRelease; rw [hr]

theorem State.joinRelease_queue {s : State} {o : Nat} (h : o ∉ s.oru.queue) :
    (s.joinRelease o).oru.queue = s.oru.queue ++ [o] := if_neg fun hc => h (by simpa using hc)

theorem State.obj_setObj_same (s : State) (o : Nat) (v : Option Obj) : (s.setObj o v).obj o = v :=
  (State.obj_setObj ..).trans (if_pos rfl)

theorem State.obj_setObj_other (s : State) {o p : Nat} (h : p ≠ o) (v : Option Obj) : (s.setObj o v).obj p = s.obj p :=
  (State.obj_setObj ..).trans (if_neg h)

/-- A release asked for a SEALED object that no release has marked (R58). -/
theorem State.releaseObject_of_sealed {s : State} {tag o : Nat} {r : Obj} (hr : s.running = true) (ho : s.obj o = some r)
    (hs : r.state = .sealed) (hm : getKey s.oru.marks o = none) : s.releaseObject tag o =
      if s.readersOf o = 0 then (s.onOru fun u => { u with marks := putKey u.marks o tag }).beginRelease o none
      else (s.onOru fun u => { u with marks := putKey u.marks o tag }).setObj o (some { r with state := .releasePending }) := by
  unfold State.releaseObject
  rw [if_neg (State.not_failed_of_running hr), if_neg (by simp [hr]), ho]
  dsimp only
  rw [if_neg (by simp [hs]), if_neg (by simp [hm]), if_pos hs]
  rfl

theorem exec_walkStep_of_target {s : State} {o : Nat} {rest : List Nat} {r : Obj} {w : Walk} (hm : s.mayWalk = true)
    (ha : s.ckr.attach = none) (hq : s.oru.queue = o :: rest) (ho : s.obj o = some r) (hw : r.walk = some w) :
    exec .walkStep s = .next (s.walkStep o r w) := by
  have htarget : s.walkTarget = some o := by unfold State.walkTarget; rw [ha, hq]; rfl
  change execWalkStep s = _
  unfold execWalkStep
  rw [if_pos hm, htarget, Option.bind_some, ho, Option.map_some]
  dsimp only
  rw [hw]

/-- The walk lowers the handle at its index, one that is not the last of its segment (R61). -/
theorem State.walkStep_of_handle {s : State} {o h : Nat} {r : Obj} {w : Walk} {hs : List Nat} (hp : w.phase = .segments)
    (hl : w.ordinal < r.map.length) (hh : s.oru.handles = some hs) (hi : hs[w.index]? = some h)
    (hn : w.index + 1 < hs.length) :
    s.walkStep o r w = (s.idxLower h).setWalk o { w with index := w.index + 1, lowered := w.lowered + 1 } := by
  unfold State.walkStep
  rw [hp]
  dsimp only
  rw [if_neg (by omega), hh]
  dsimp only
  rw [hi]
  dsimp only
  rw [if_neg (by omega)]

/-- The walk of an empty tail list ends, with no attach in progress (R62). -/
theorem State.walkStep_of_done {s : State} {o : Nat} {r : Obj} {w : Walk} (hp : w.phase = .tail) (ht : r.tail.getD [] = [])
    (ha : s.ckr.attach = none) : s.walkStep o r w =
      (s.setObj o (some { r with walk := some { w with phase := .ended } })).afterWalk o r.recorded := by
  unfold State.walkStep
  rw [hp]
  dsimp only
  rw [ht]
  dsimp only
  unfold State.walkEnd
  dsimp only
  rw [show (s.setObj o (some { r with walk := some { w with phase := .ended } })).ckr.attach = none from ha]

/-- A walk that has ended with a RELEASE record to come asks for it (R62). -/
theorem State.afterWalk_of_recorded {s : State} {o : Nat} {recorded : Bool} (hr : recorded = true) (ha : s.ckr.attach = none)
    (h : o ∉ s.oru.recordAsked) : s.afterWalk o recorded =
      (s.onOru fun u => { u with recordAsked := u.recordAsked ++ [o] }).onCtm fun m =>
        { m with recordReqs := m.recordReqs ++ [.release o] } := by
  rw [State.afterWalk, hr, if_neg (by decide), if_neg (by rw [ha]; decide), State.askRelease, if_neg (by simpa using h)]

/-- What ORU keeps when an object's slot is freed (R62). -/
def Oru.released (u : Oru) (o : Nat) : Oru :=
  { u with
    marks := dropKey u.marks o, queue := u.queue.filter fun q => q ≠ o,
    recordAsked := u.recordAsked.filter fun q => q ≠ o,
    recordCopied := u.recordCopied.filter fun q => q ≠ o,
    handles := if u.queue.head? = some o then none else u.handles,
    walkRead := if u.queue.head? = some o ∧ u.walkRead ≠ .reading then .idle else u.walkRead }

theorem Oru.not_mem_released (u : Oru) (o : Nat) : o ∉ (u.released o).queue := fun h => by
  simpa using (List.mem_filter.1 h).2

theorem Oru.released_marks (u : Oru) (o : Nat) : getKey (u.released o).marks o = none := by
  change getKey (dropKey u.marks o) o = none
  rw [getKey_dropKey, if_pos rfl]

theorem State.each_segRefLower_frame (s : State) (cs : List Nat) : ∃ k q b d, s.each cs (fun s c => s.segRefLower c) =
    { s with tables := { s.tables with containers := k, quarantine := q, bad := b },
             ctm := { s.ctm with deferred := d } } := by
  unfold State.each
  induction cs generalizing s with
  | nil => exact ⟨s.tables.containers, s.tables.quarantine, s.tables.bad, s.ctm.deferred, rfl⟩
  | cons c cs ih =>
    obtain ⟨k, q, b, d, h⟩ := s.modCont_testFree_frame c c fun r => { r with segRefs := r.segRefs - 1 }
    obtain ⟨k', q', b', d', h'⟩ := ih (s.segRefLower c)
    exact ⟨k', q', b', d', h'.trans (by rw [State.segRefLower, h])⟩

/-- A released object's slot is freed and its RELEASE_OBJECT answered; no stream's abort waits for it (R62). -/
theorem State.finishRelease_of_marked {s : State} {o tag : Nat} {r : Obj} {w : Walk} (ho : s.obj o = some r)
    (hw : r.walk = some w) (hm : getKey s.oru.marks o = some tag) (hn : s.abortingStreamOf o = none) :
    ∃ k q b d, s.finishRelease o =
      { (({ s with tables := { s.tables with containers := k, quarantine := q, bad := b },
                   ctm := { s.ctm with deferred := d } }.setObj o none).onOru fun u => u.released o) with
        lnk := { s.lnk with replyQueue := s.lnk.queueAfter tag kindReleaseObject .ok [⟨2, o⟩, ⟨4, w.lowered⟩] },
        ing := { s.ing with streams := s.ing.streams.map fun t => t.objectFreed o } } := by
  obtain ⟨k, q, b, d, h⟩ := s.each_segRefLower_frame (r.map.map fun l => l.container)
  refine ⟨k, q, b, d, ?_⟩
  unfold State.finishRelease
  rw [ho]
  dsimp only
  rw [hn, hm, hw]
  dsimp only [Option.filter, Option.map, Option.getD]
  rw [State.answer_eq, h]
  rfl

/-- The slot of an aborted object with no segments is freed at once, with its stream (R21, R62). -/
theorem State.finishRelease_of_aborting {s : State} {o i tag : Nat} {r : Obj} (ho : s.obj o = some r) (hr : r.map = [])
    (hm : getKey s.oru.marks o = none) (hn : s.abortingStreamOf o = some i) (hq : (s.stream i).queued = true)
    (ht : (s.stream i).abortTag = some tag) : ∃ fs, s.finishRelease o =
      ({ ((s.setObj o none).onOru fun u => u.released o) with
        lnk := { s.lnk with
          notices := s.lnk.notices.setIfInBounds (slotIngestEnd i) (some fs),
          replyQueue := s.lnk.queueAfter tag kindAbortIngest .ok [] } }.freeStream i) := by
  obtain ⟨fs, hfs⟩ : ∃ fs, s.noticeIngestEnd i .aborted = s.notice (slotIngestEnd i) fs := ⟨_, rfl⟩
  refine ⟨fs, ?_⟩
  unfold State.finishRelease
  rw [ho]
  dsimp only
  rw [hn, hm, hr]
  dsimp only [Option.filter, List.map, State.each, List.foldl]
  rw [if_pos hq]
  dsimp only
  rw [hfs]
  generalize hu : ((s.notice (slotIngestEnd i) fs).setObj o none).onOru _ = u
  have hstream : u.stream i = s.stream i := by rw [← hu]; rfl
  rw [hstream, ht]
  dsimp only
  rw [State.answer_eq, ← hu]
  rfl

theorem State.abortingStreamOf_of_none {s : State} {o : Nat} (h : ∀ i < 8, (s.stream i).state ≠ .aborting) :
    s.abortingStreamOf o = none := by
  unfold State.abortingStreamOf
  rw [List.find?_eq_none]
  intro i hi
  simp [h i (List.mem_range.1 hi)]

theorem State.abortingStreamOf_of_only {s : State} {o i : Nat} (hi : i < 8) (hs : (s.stream i).state = .aborting)
    (ho : (s.stream i).object = some o) (hg : (s.stream i).gone = false)
    (hn : ∀ j < 8, j ≠ i → (s.stream j).object ≠ some o) : s.abortingStreamOf o = some i := by
  unfold State.abortingStreamOf
  rw [List.find?_range_eq_some]
  refine ⟨by simp [hs, ho, hg], by simpa using hi, fun j hj => ?_⟩
  simp [hn j (by omega) (by omega)]

/-- Settles O33. -/
theorem releasesRun : Obligations.ReleasesRun := by
  refine ⟨fun s tag o r hr ho hs hm hrd hq => ?_, fun s tag o r hr ho hs hm hrd => ?_, fun s o r ho hs hrd hq => ?_,
    fun s o rest r w hs h hm ha hq ho hw hp hl hh hi hn => ?_, fun s o rest r w hm ha hq ho hw hp ht => ⟨fun hrec hasked => ?_,
      fun i tag hrec hmap hi hst hobj hg hqd htag hother hmark => ?_⟩, fun s o tag r w hc ho hw hm hab hf => ?_, fun s o hf => ?_⟩
  · have hexec : exec (.releaseObject tag o) s = .next _ := congrArg Host.Outcome.next
      ((State.releaseObject_of_sealed (s := s.taken (.releaseObject tag o)) hr ho hs hm).trans (if_pos hrd))
    rw [State.beginRelease_of_object (r := r) (by exact ho)] at hexec
    refine completes_of_eq hexec fun t ht => ?_
    refine ⟨?_, fun p hp => ?_, ?_, ?_, ?_, ?_, ?_⟩
    · rw [ht]; exact State.obj_setObj_same ..
    · rw [ht]; exact State.obj_setObj_other _ hp _
    · rw [ht]; exact State.joinRelease_queue hq
    · rw [ht]; exact getKey_putKey_self ..
    · rw [ht]; rfl
    · rw [ht]; rfl
    · rw [ht]; rfl
  · have hexec : exec (.releaseObject tag o) s = .next _ := congrArg Host.Outcome.next
      ((State.releaseObject_of_sealed (s := s.taken (.releaseObject tag o)) hr ho hs hm).trans (if_neg hrd))
    exact ⟨_, hexec, State.obj_setObj_same .., rfl, getKey_putKey_self .., rfl⟩
  · have hlower : s.readerLower o = (s.setReaders o 0).beginRelease o none := by
      unfold State.readerLower
      dsimp only
      rw [hrd, if_neg (by decide), if_neg (by decide), show (s.setReaders o (1 - 1)).obj o = some r from ho]
      dsimp only
      rw [hs]
    rw [hlower, State.beginRelease_of_object (r := r) (by exact ho)]
    refine ⟨?_, State.joinRelease_queue hq, ?_⟩
    · exact congrArg (Option.map fun x => x.state) (State.obj_setObj_same (s.setReaders o 0) o (some { r with
        state := .releasing, stream := none, walk := some Walk.start, tail := none, recorded := true }))
    · change (getKey (dropKey s.oru.readers o) o).getD 0 = 0
      rw [getKey_dropKey, if_pos rfl]; rfl
  · have hexec := exec_walkStep_of_target hm ha hq ho hw
    obtain ⟨x, es, hd, cs, q, b, d, hframe⟩ := s.idxLower_frame h
    rw [State.walkStep_of_handle hp hl hh hi hn] at hexec
    generalize s.idxLower h = u at hexec hframe ⊢
    have hobj : u.obj o = some r := by rw [hframe]; exact ho
    rw [State.setWalk, hobj] at hexec
    refine ⟨_, hexec, State.obj_setObj_same .., rfl, rfl, ?_, fun p hp => ?_⟩
    · rw [hframe]; rfl
    · refine (State.obj_setObj_other _ hp _).trans ?_
      rw [hframe]; rfl
  · have hexec := exec_walkStep_of_target hm ha hq ho hw
    rw [State.walkStep_of_done hp ht ha, State.afterWalk_of_recorded hrec (by exact ha) (by exact hasked)] at hexec
    exact ⟨_, hexec, State.obj_setObj_same .., fun p hp => State.obj_setObj_other _ hp _, rfl, rfl, rfl, rfl⟩
  · have hexec := exec_walkStep_of_target hm ha hq ho hw
    rw [State.walkStep_of_done hp ht ha, State.afterWalk, if_pos hrec] at hexec
    obtain ⟨fs, hfin⟩ := State.finishRelease_of_aborting
      (s := s.setObj o (some { r with walk := some { w with phase := .ended } }))
      (State.obj_setObj_same ..) hmap hmark (State.abortingStreamOf_of_only hi hst hobj hg hother) hqd htag
    rw [hfin] at hexec
    refine completes_of_eq hexec fun t ht => ?_
    refine ⟨?_, fun p hp => ?_, ?_, ?_, fun j hj => ?_, ?_, ?_, ?_, ?_, ?_⟩
    · rw [ht]; exact State.obj_setObj_same ..
    · rw [ht]; exact (State.obj_setObj_other _ hp _).trans (State.obj_setObj_other _ hp _)
    · rw [ht]; exact Oru.not_mem_released _ _
    · rw [ht]; exact State.stream_setStream_same hi _
    · rw [ht]; exact State.stream_setStream_other hj _
    · rw [ht]
      change ((s.lnk.notices.setIfInBounds (7 + i) (some fs))[7 + i]?.getD none).isSome = true
      rw [Vector.getElem?_setIfInBounds_self, if_pos (by omega)]; rfl
    · rw [ht]; rfl
    · rw [ht]; rfl
    · rw [ht]; rfl
    · rw [ht]; rfl
  · have hexec : exec (.releaseRecordCopied o) s = .next (s.finishRelease o) :=
      congrArg Host.Outcome.next (if_pos ⟨by simpa using hc, hf⟩)
    obtain ⟨k, q, b, d, hfin⟩ := State.finishRelease_of_marked ho hw hm (State.abortingStreamOf_of_none hab)
    rw [hfin] at hexec
    refine ⟨_, hexec, State.obj_setObj_same .., fun p hp => ?_, Oru.not_mem_released _ _, Oru.released_marks _ _, fun i hi => ?_, rfl⟩
    · exact State.obj_setObj_other _ hp _
    · change (s.ing.streams.map fun t => t.objectFreed o)[i]?.getD Stream.freeRecord = _
      rw [Vector.getElem?_map, State.stream, Vector.getElem?_eq_getElem hi]; rfl
  · exact congrArg Host.Outcome.next (if_neg fun hc => hc.2 hf)

/-! ## Reads that begin (R87, R175) -/

/-- A read job reads what another one does, for the same asker. -/
def ReadJob.sameAs (j k : ReadJob) : Prop :=
  j.id = k.id ∧ j.who = k.who ∧ j.handle = k.handle ∧ j.cls = k.cls ∧ j.container = k.container ∧ j.offset = k.offset ∧
  j.length = k.length ∧ j.check = k.check

/-- What beginning or going on with a read leaves: all but the reads, the reports, the degraded-read tally, the channels with their
idle timers, and the returned operations. -/
def State.readsOnly (s t : State) : Prop := ∃ rd rp dg ch it sa rt, t = { s with
  ctm := { s.ctm with reads := rd, reports := rp, degradedReads := dg }, chans := ch,
  pwc := { s.pwc with idleTimers := it, standbyAsks := sa }, returns := rt }

theorem State.readJob_setReadJob (s : State) (id p : Nat) (j : Option ReadJob) :
    (s.setReadJob id j).readJob p = if p = id then j else s.readJob p := getKey_setKey s.ctm.reads id p j

theorem State.readJob_setReadJob_same (s : State) (id : Nat) (j : Option ReadJob) : (s.setReadJob id j).readJob id = j :=
  (State.readJob_setReadJob ..).trans (if_pos rfl)

theorem State.submitAll_ctm (s : State) (ops : List (Nat × Op)) : (s.submitAll ops).ctm = s.ctm := by
  obtain ⟨ch, it, sa, rt, h⟩ := s.submitAll_frame ops
  rw [h]

theorem State.submitParts_spec (s : State) (j : ReadJob) (ks : List Nat) : s.readsOnly (s.submitParts j ks) ∧
    ∃ k, (s.submitParts j ks).readJob j.id = some k ∧ k.sameAs j := by
  unfold State.submitParts
  dsimp only
  generalize (ks.map _).flatten = ops
  obtain ⟨ch, it, sa, rt, h⟩ := (s.setReadJob j.id (some { j with out := ops.length })).submitAll_frame ops
  refine ⟨⟨_, _, _, ch, it, sa, rt, h⟩, { j with out := ops.length }, ?_, rfl, rfl, rfl, rfl, rfl, rfl, rfl, rfl⟩
  rw [h]
  exact State.readJob_setReadJob_same ..

theorem State.reportReconstructing_eq (s : State) (j : ReadJob) : s.reportReconstructing j =
    { s with ctm := { s.ctm with reports := (s.reportReconstructing j).ctm.reports } } := by
  unfold State.reportReconstructing; split <;> rfl

theorem State.readFrom_spec (s : State) (j : ReadJob) (n : Nat) : s.readsOnly (s.readFrom j n) ∧
    ∃ k, (s.readFrom j n).readJob j.id = some k ∧ k.sameAs j := by
  unfold State.readFrom
  dsimp only
  generalize hparts : j.parts.take n ++ _ = parts
  have hparts : ∀ u : State, (∃ rp dg, u = { s with ctm := { s.ctm with reports := rp, degradedReads := dg } }) →
      s.readsOnly (u.submitParts { j with phase := .reading, parts := parts, buffered := none }
        ((List.range parts.length).drop n)) ∧
      ∃ k, (u.submitParts { j with phase := .reading, parts := parts, buffered := none }
        ((List.range parts.length).drop n)).readJob j.id = some k ∧ k.sameAs j := fun u ⟨rp, dg, hu⟩ => by
    obtain ⟨⟨rd, rp', dg', ch, it, sa, rt, h⟩, k, hk, hsame⟩ :=
      u.submitParts_spec { j with phase := .reading, parts := parts, buffered := none } ((List.range parts.length).drop n)
    exact ⟨⟨rd, rp', dg', ch, it, sa, rt, by rw [h, hu]⟩, k, hk, hsame⟩
  split
  · exact hparts _ ⟨_, _, rfl⟩
  · exact hparts _ ⟨_, _, State.reportReconstructing_eq ..⟩

/-- A read that has its buffers begins: its job stands, and of the state only what a read changes (R87). -/
theorem State.startRead_spec {s : State} {id : Nat} {j : ReadJob} (hj : s.readJob id = some j) (hid : j.id = id) :
    s.readsOnly (s.startRead id) ∧ ∃ k, (s.startRead id).readJob id = some k ∧ k.sameAs j := by
  have hset : ∀ v : ReadJob, v.sameAs j → s.readsOnly (s.setReadJob id (some v)) ∧
      ∃ k, (s.setReadJob id (some v)).readJob id = some k ∧ k.sameAs j := fun v hv =>
    ⟨⟨_, _, _, s.chans, s.pwc.idleTimers, s.pwc.standbyAsks, s.returns, rfl⟩, v,
      State.readJob_setReadJob_same .., hv⟩
  unfold State.startRead
  rw [hj]
  dsimp only
  split
  · exact hset _ ⟨rfl, rfl, rfl, rfl, rfl, rfl, rfl, rfl⟩
  · exact hset _ ⟨rfl, rfl, rfl, rfl, rfl, rfl, rfl, rfl⟩
  · subst hid
    obtain ⟨h, k, hk, hsame⟩ := s.readFrom_spec { j with parts := [] } 0
    exact ⟨h, k, hk, hsame⟩

/-- A waiting read asks for its buffers: it has them and begins, or it waits for them (R175). -/
theorem State.askBuffers_spec {u : State} {id need : Nat} {j : ReadJob} (hj : u.readJob id = some j) (hid : j.id = id)
    (hp : j.phase = .waiting) : ∃ le bq,
      ({ u with mec := { u.mec with lent := le, bufferQueue := bq } } : State).readsOnly (u.askBuffers (.readJob id) need) ∧
        ∃ k, (u.askBuffers (.readJob id) need).readJob id = some k ∧ k.sameAs j := by
  unfold State.askBuffers State.takeBuffers
  by_cases hroom : need ≤ u.mec.freeBuffers
  · rw [if_pos hroom]
    generalize hv : (u.onMec fun m => m.setHeld (.readJob id) (m.heldBy (.readJob id) + need)) = v
    have hjob : v.readJob id = some j := by rw [← hv]; exact hj
    refine ⟨v.mec.lent, v.mec.bufferQueue, ?_⟩
    rw [show ({ u with mec := { u.mec with lent := v.mec.lent, bufferQueue := v.mec.bufferQueue } } : State) = v by
      rw [← hv]; rfl]
    dsimp only
    unfold State.startAsker
    rw [if_pos (by simp [State.askerWaits, hjob, hp])]
    exact State.startRead_spec hjob hid
  · rw [if_neg hroom]
    exact ⟨u.mec.lent, u.mec.bufferQueue ++ [(.readJob id, need)],
      ⟨u.ctm.reads, u.ctm.reports, u.ctm.degradedReads, u.chans, u.pwc.idleTimers, u.pwc.standbyAsks, u.returns, rfl⟩,
      j, hj, rfl, rfl, rfl, rfl, rfl, rfl, rfl, rfl⟩

/-- The job of a read as it is begun (R87). -/
def ReadJob.begun (id : Nat) (again : Bool) (who : ReadWho) (handle : Option Nat) (cls : Cls) (c off len : Nat)
    (check : ReadCheck) : ReadJob :=
  { id := id, who := who, handle := handle, cls := cls, container := c, offset := off, length := len, check := check,
    phase := .waiting, parts := [], out := 0, reread := again, buffered := none }

theorem State.readRaise_eq (s : State) (c : Nat) : s.readRaise c = { s with tables := (s.readRaise c).tables } := by
  unfold State.readRaise State.modCont; split <;> rfl

theorem State.readRaise_onCtm (s : State) (c : Nat) (f : Ctm → Ctm) :
    (s.onCtm f).readRaise c = (s.readRaise c).onCtm f := by
  unfold State.readRaise State.modCont
  rw [show (s.onCtm f).cont c = s.cont c from rfl]
  split <;> rfl

theorem State.beginRead_eq (s : State) (id need : Nat) (again : Bool) (who : ReadWho) (handle : Option Nat) (cls : Cls)
    (c off len : Nat) (check : ReadCheck) : s.beginRead id need again who handle cls c off len check =
      ((s.readRaise c).setReadJob id (some (.begun id again who handle cls c off len check))).askBuffers
        (.readJob id) need := rfl

/-- What a new read leaves: its container counts it, its buffers are taken or waited for, and its job stands (R87, R175). -/
theorem State.beginRead_spec (s : State) (id need : Nat) (again : Bool) (who : ReadWho) (handle : Option Nat) (cls : Cls)
    (c off len : Nat) (check : ReadCheck) : ∃ le bq,
    ({ s.readRaise c with mec := { s.mec with lent := le, bufferQueue := bq } } : State).readsOnly
        (s.beginRead id need again who handle cls c off len check) ∧
      ∃ k, (s.beginRead id need again who handle cls c off len check).readJob id = some k ∧
        k.sameAs (.begun id again who handle cls c off len check) := by
  have hmec : (s.readRaise c).mec = s.mec := by rw [State.readRaise, State.modCont_eq]
  rw [State.beginRead_eq, ← hmec]
  obtain ⟨le, bq, ⟨rd, rp, dg, ch, it, sa, rt, h⟩, hk⟩ := State.askBuffers_spec (need := need)
    (State.readJob_setReadJob_same (s.readRaise c) id (some (.begun id again who handle cls c off len check))) rfl rfl
  exact ⟨le, bq, ⟨rd, rp, dg, ch, it, sa, rt, h⟩, hk⟩

/-- What is left by a read that a requester has begun: its number is used, its container counts it, and its job stands (R87). -/
theorem State.newRead_spec (s : State) (who : ReadWho) (handle : Option Nat) (cls : Cls) (c off len : Nat)
    (check : ReadCheck) : ∃ le bq rd rp dg ch it sa rt,
    (s.newRead who handle cls c off len check = { s with
      ctm := { s.ctm with nextRead := s.ctm.nextRead + 1, reads := rd, reports := rp, degradedReads := dg }, chans := ch,
      pwc := { s.pwc with idleTimers := it, standbyAsks := sa }, returns := rt,
      mec := { s.mec with lent := le, bufferQueue := bq }, tables := (s.readRaise c).tables }) ∧
    ∃ k, (s.newRead who handle cls c off len check).readJob s.ctm.nextRead = some k ∧
        k.sameAs (.begun s.ctm.nextRead false who handle cls c off len check) := by
  unfold State.newRead
  obtain ⟨le, bq, ⟨rd, rp, dg, ch, it, sa, rt, h⟩, hk⟩ := (s.onCtm fun m => { m with nextRead := s.ctm.nextRead + 1 }).beginRead_spec
    s.ctm.nextRead 2 false who handle cls c off len check
  refine ⟨le, bq, rd, rp, dg, ch, it, sa, rt, h.trans ?_, hk⟩
  rw [State.readRaise_onCtm, State.readRaise_eq]
  rfl

/-! ## Reads that end (R87, R175) -/

theorem State.readLower_eq (s : State) (c : Nat) : ∃ cs q b d, s.readLower c =
    { s with tables := { s.tables with containers := cs, quarantine := q, bad := b },
             ctm := { s.ctm with deferred := d } } := s.modCont_testFree_frame c c _

/-- The state with its reads and reports replaced. -/
def State.withReads (s : State) (rd : Assoc ReadJob) (rp : List ReadReport) : State :=
  { s with ctm := { s.ctm with reads := rd, reports := rp } }

theorem State.testFree_withReads (s : State) (c : Nat) (rd : Assoc ReadJob) (rp : List ReadReport) :
    (s.withReads rd rp).testFree c = (s.testFree c).withReads rd rp := by
  unfold State.testFree
  rw [show (s.withReads rd rp).cont c = s.cont c from rfl, show (s.withReads rd rp).isSource c = s.isSource c from rfl,
    show (s.withReads rd rp).beingReplayed c = s.beingReplayed c from rfl,
    show (s.withReads rd rp).ctm.noFree = s.ctm.noFree from rfl]
  split
  · rfl
  · split
    · split <;> rfl
    · rfl

theorem State.readLower_withReads (s : State) (c : Nat) (rd : Assoc ReadJob) (rp : List ReadReport) :
    (s.withReads rd rp).readLower c = (s.readLower c).withReads rd rp := by
  have hmod : ∀ f, (s.withReads rd rp).modCont c f = (s.modCont c f).withReads rd rp := fun f => by
    unfold State.modCont
    rw [show (s.withReads rd rp).cont c = s.cont c from rfl]
    split <;> rfl
  rw [State.readLower, hmod, State.testFree_withReads]
  rfl

theorem State.answerRead_withReads (s : State) (j : ReadJob) (a : ReadAnswer) : s.answerRead j a =
    ((s.withReads (setKey s.ctm.reads j.id none)
      (s.ctm.reports ++ [{ job := j.id, who := j.who, answer := a }])).readLower j.container).returnBuffers
        (.readJob j.id) (if a.keepsBuffer j.who then 1 else 2) := rfl

/-- A read answered, with no asker waiting for its buffers (R87, R175). -/
theorem State.answerRead_eq {s : State} (hq : s.mec.bufferQueue = []) (j : ReadJob) (a : ReadAnswer) :
    ∃ le, s.answerRead j a = { (s.readLower j.container).withReads (setKey s.ctm.reads j.id none)
        (s.ctm.reports ++ [{ job := j.id, who := j.who, answer := a }]) with mec := { s.mec with lent := le } } := by
  have hread := s.readLower_withReads j.container (setKey s.ctm.reads j.id none)
    (s.ctm.reports ++ [{ job := j.id, who := j.who, answer := a }])
  obtain ⟨cs, q, b, d, hframe⟩ := s.readLower_eq j.container
  rw [State.answerRead_withReads, hread, State.returnBuffers_of_none_waiting (by rw [hframe]; exact hq), hframe]
  exact ⟨_, rfl⟩

theorem State.reportFor_of_last {s : State} {f : ReadWho → Bool} {rs : List ReadReport} {rep : ReadReport}
    (hr : s.ctm.reports = rs ++ [rep]) (hn : ∀ r ∈ rs, f r.who = false) (hf : f rep.who = true) :
    s.reportFor f = some rep := by
  unfold State.reportFor
  rw [hr, List.find?_append, List.find?_eq_none.2 fun r h => by simp [hn r h]]
  simp [hf]

/-- The end of a read from a stripe buffer whose bytes are good, in an array that has not failed (R87). -/
theorem State.advanceRead_of_buffered {s : State} {j : ReadJob} {bs : List Byte} (hb : j.buffered = some bs)
    (hp : j.phase = .reading) (hparts : j.parts = []) (hf : s.ctm.state ≠ .failed)
    (hc : j.check.passes s.layout bs = true) : s.advanceRead j false =
      (s.dropReturned (readJobIs j.id)).answerRead j (.bytes bs) := by
  unfold State.advanceRead
  dsimp only
  rw [if_neg Bool.false_ne_true, if_neg (by exact hf), hp]
  dsimp only
  rw [if_neg Bool.false_ne_true, hb]
  dsimp only
  unfold State.checkRead
  rw [if_pos (by exact hc), State.repairErrors, hparts]
  rfl

/-- The state in which ORU's answer to a SEGMENT read from a stripe buffer is handed over: CTM's report is taken and the read's
buffers are back (R53, R87). -/
theorem exec_recordReadDone_of_buffered {s : State} {asker : SegAsker} {o ord : Nat} {hs : List Nat} {bs : List Byte}
    {j : ReadJob} (hj : (s.ctm.reads.map fun e => e.2).find? (fun j => j.who = .seg asker) = some j)
    (hb : j.buffered = some bs) (hp : j.phase = .reading) (ho : j.out = 0) (hparts : j.parts = [])
    (hc : j.check = .segment o ord) (hparse : RecipeRec.parse bs = some (.segment o ord hs)) (hf : s.ctm.state ≠ .failed)
    (hrep : ∀ rep ∈ s.ctm.reports, rep.who ≠ .seg asker) (hq : s.mec.bufferQueue = []) : ∃ cs q b d rd rp le rt,
      exec (.recordReadDone asker false) s = .next (State.segmentAnswered { s with
        tables := { s.tables with containers := cs, quarantine := q, bad := b },
        ctm := { s.ctm with deferred := d, reads := rd, reports := rp },
        mec := { s.mec with lent := le }, returns := rt } asker o ord (.handles hs)) := by
  have hwho : j.who = .seg asker := by simpa using List.find?_some hj
  have hpass : j.check.passes s.layout bs = true := by simp [hc, ReadCheck.passes, hparse]
  obtain ⟨le, hans⟩ := State.answerRead_eq (s := s.dropReturned (readJobIs j.id)) hq j (.bytes bs)
  obtain ⟨cs, q, b, d, hlow⟩ := (s.dropReturned (readJobIs j.id)).readLower_eq j.container
  rw [hlow] at hans
  change ∃ cs q b d rd rp le rt, execRecordReadDone asker false s = _
  unfold execRecordReadDone
  rw [hj]
  dsimp only
  rw [if_neg (by simp [State.readBack, hp, ho]), State.advanceRead_of_buffered hb hp hparts hf hpass]
  generalize (s.dropReturned (readJobIs j.id)).answerRead j (.bytes bs) = x at hans ⊢
  have hfind : x.reportFor (fun w => decide (w = .seg asker)) =
      some { job := j.id, who := j.who, answer := .bytes bs } :=
    State.reportFor_of_last (by rw [hans]; rfl) (fun r hr => by simpa using hrep r hr) (by simpa using hwho)
  rw [hfind]
  dsimp only
  rw [hc]
  dsimp only
  rw [State.bufferDone, State.returnBuffers_of_none_waiting (by rw [hans]; exact hq), hparse, hans]
  exact ⟨_, _, _, _, _, _, _, _, rfl⟩

/-! ## Segment reads and object words in error (R53, R61, R64, R125) -/

/-- A SEGMENT record that the object's map locates is read (R53). -/
theorem exec_recordRead_of_located {s : State} {asker : SegAsker} {o ord : Nat} {r : Obj} {l : SegLoc}
    (hw : s.segmentWanted asker = some (o, ord)) (ho : s.obj o = some r) (hs : r.state ≠ .lost)
    (hf : s.ctm.state ≠ .failed) (hl : r.map[ord]? = some l) : exec (.recordRead asker) s =
      .next ((s.segmentReading asker).newRead (.seg asker) none (segmentClass asker) l.container l.offset
        (s.layout.firstLength l.offset) (.segment o ord)) := by
  change execRecordRead asker s = _
  unfold execRecordRead
  rw [hw]
  dsimp only
  rw [ho]
  dsimp only
  rw [if_neg hs, if_neg hf, hl]

theorem State.readRaise_objects (s : State) (c : Nat) : (s.readRaise c).tables.objects = s.tables.objects := by
  rw [State.readRaise, State.modCont_eq]

/-- The release walk takes the handles of the segment that it is at (R61). -/
theorem State.walkAnswered_of_current {s : State} {o ord : Nat} {r : Obj} {w : Walk} {hs : List Nat}
    (ht : s.walkTarget = some o) (ho : s.obj o = some r) (hw : r.walk = some w) (hp : w.phase = .segments)
    (hord : w.ordinal = ord) : s.walkAnswered o ord (.handles hs) =
      s.onOru fun u => { u with walkRead := .idle, handles := some hs } := by
  unfold State.walkAnswered
  rw [ht, Option.bind_some, ho, Option.bind_some, hw, Option.map_some]
  dsimp only
  rw [if_pos ⟨rfl, hp, hord⟩]
  rfl

/-- A SEEKING read stream takes the handles of its next segment (R125). -/
theorem State.readerAnswered_of_seeking {s : State} {i ord : Nat} {hs : List Nat} (hi : i < 16)
    (hst : (s.reader i).state = .seeking) : s.readerAnswered i ord (.handles hs) =
      (s.modReader i fun r => { r with segRead := .idle }).setReader i { s.reader i with
        segRead := .idle, seg := some { ordinal := ord, first := (s.reader i).position, handles := hs } } := by
  have hreader : (s.modReader i fun r => { r with segRead := .idle }).reader i = { s.reader i with segRead := .idle } := by
    rw [State.reader_modReader, if_pos ⟨rfl, hi⟩]
  unfold State.readerAnswered
  dsimp only
  rw [hreader]
  dsimp only
  rw [hst]

theorem State.reader_setReader_same {s : State} {i : Nat} (hi : i < 16) (v : ReadStream) : (s.setReader i v).reader i = v :=
  (State.reader_setReader ..).trans (if_pos ⟨rfl, hi⟩)

theorem State.reader_setReader_other {s : State} {i k : Nat} (h : k ≠ i) (v : ReadStream) :
    (s.setReader i v).reader k = s.reader k := (State.reader_setReader ..).trans (if_neg fun hc => h hc.1.symm)

/-- Settles O34. -/
theorem recordReadsAndObjectErrors : Obligations.RecordReadsAndObjectErrors := by
  refine ⟨fun s o r w l hrd ht ho hw hs hf hl => ?_, fun s i o ord r l hi hrd hobj hord ho hs hf hl => ?_,
    fun s o ord r w hs bs j hj hb hp hout hparts hc hparse hf hrep hq ht ho hw hph hord => ?_,
    fun s i o ord hs bs j hi hj hb hp hout hparts hc hparse hf hrep hq hst => ?_, fun s o r hu ho hs => ?_, fun s o ho => ?_⟩
  · have hwanted : s.segmentWanted .walk = some (o, w.ordinal) := by simp [State.segmentWanted, hrd, ht, ho, hw]
    have hexec := exec_recordRead_of_located hwanted ho (by rw [hs]; exact ObjState.noConfusion) hf hl
    obtain ⟨le, bq, rd, rp, dg, ch, it, sa, rt, hnew, k, hk, hid, hwho, hhan, hcls, hcont, hoff, hlen, hchk⟩ :=
      (s.segmentReading .walk).newRead_spec (.seg .walk) none (segmentClass .walk) l.container l.offset
        (s.layout.firstLength l.offset) (.segment o w.ordinal)
    refine ⟨_, hexec, ⟨k, hk, hwho, hcont, hoff, hlen, hchk, hcls⟩, ?_, ?_, ?_, ?_⟩ <;> rw [hnew]
    · rfl
    · rfl
    · exact State.readRaise_objects ..
    · rfl
  · have hwanted : s.segmentWanted (.stream i) = some (o, ord) := by
      unfold State.segmentWanted
      dsimp only
      rw [if_pos hrd, hobj, hord]
      cases (s.reader i).seg <;> rfl
    have hexec := exec_recordRead_of_located hwanted ho hs hf hl
    obtain ⟨le, bq, rd, rp, dg, ch, it, sa, rt, hnew, k, hk, hid, hwho, hhan, hcls, hcont, hoff, hlen, hchk⟩ :=
      (s.segmentReading (.stream i)).newRead_spec (.seg (.stream i)) none (segmentClass (.stream i)) l.container l.offset
        (s.layout.firstLength l.offset) (.segment o ord)
    refine ⟨_, hexec, ⟨k, hk, hwho, hcont, hoff, hlen, hchk, hcls⟩, ?_, fun n hn => ?_, ?_, ?_, ?_, ?_⟩ <;> rw [hnew]
    · exact State.reader_setReader_same hi _
    · exact State.reader_setReader_other hn _
    · rfl
    · rfl
    · exact State.readRaise_objects ..
    · rfl
  · obtain ⟨cs, q, b, d, rd, rp, le, rt, hexec⟩ := exec_recordReadDone_of_buffered hj hb hp hout hparts hc hparse hf hrep hq
    rw [State.segmentAnswered] at hexec
    dsimp only at hexec
    rw [State.walkAnswered_of_current (r := r) (w := w) (by exact ht) (by exact ho) hw hph hord] at hexec
    exact ⟨_, hexec, rfl, rfl, rfl, rfl⟩
  · obtain ⟨cs, q, b, d, rd, rp, le, rt, hexec⟩ := exec_recordReadDone_of_buffered hj hb hp hout hparts hc hparse hf hrep hq
    rw [State.segmentAnswered] at hexec
    dsimp only at hexec
    rw [State.readerAnswered_of_seeking hi (by exact hst)] at hexec
    exact ⟨_, hexec, State.reader_setReader_same hi _, fun k hk => (State.reader_setReader_other hk _).trans
      (State.reader_setReader_other hk _), rfl, rfl, rfl⟩
  · have hexec : exec (.objectWordError o) s = .next ((s.reportTakenOf [.objects, .pool]).objectLost o r) := by
      change execObjectWordError o s = _
      unfold execObjectWordError
      rw [if_pos hu, ho]
      dsimp only
      rw [if_neg (by rw [hs]; exact ObjState.noConfusion)]
    unfold State.objectLost at hexec
    dsimp only at hexec
    rw [hs] at hexec
    exact ⟨_, hexec, State.obj_setObj_same .., fun p hp => State.obj_setObj_other _ hp _, rfl, rfl, rfl, rfl⟩
  · have hexec : exec (.objectWordError o) s = .next (s.wordRewritten [.objects, .pool]) := by
      change execObjectWordError o s = _
      unfold execObjectWordError
      rw [ho, ite_self]
    exact ⟨_, hexec, s.wordRewritten_eq _, fun w hw => State.bad_wordRewritten hw⟩

end Sys2Proof.Machine

/-! # Proofs: Containers: placements and stripe writes -/

namespace Sys2Proof.Machine

/-! ## Placements in an open container (R78 to R80) -/

theorem State.roomFor_of_fits {s : State} {k : ContKind} {c len : Nat} {v : Container} (ho : s.openOf k = some c)
    (hv : s.cont c = some v) (hf : v.fill + len ≤ s.layout.chunkSpace) (he : v.entries < 255) :
    s.roomFor k len = (s, .at_ c) := by
  unfold State.roomFor
  rw [ho]
  dsimp only
  rw [hv]
  exact if_pos (by simp [Container.fits, hf, he])

/-- The state in which a length has been taken in a container, with its directory place (R78). -/
def State.placedIn (s : State) (c b len : Nat) (v : Container) (ps : List Place) : State :=
  (s.setCont c (some { v with fill := v.fill + len, entries := v.entries + 1 })).setBuffer b
    (some { container := c, places := ps })

/-- A container's stripe buffer stays its own when its places change (R79). -/
theorem State.bufferOf_setBuffer {s : State} {b c : Nat} {x : StripeBuf} (hb : s.bufferOf c = some b) (hx : x.container = c) :
    (s.setBuffer b (some x)).bufferOf c = some b := by
  have hold := List.find?_some hb
  unfold State.bufferOf at hb ⊢
  refine Eq.trans (congrArg (fun f => List.find? f (List.range 4)) (funext fun k => ?_)) hb
  change decide ((((s.ctm.buffers.setIfInBounds b (some x))[k]?.getD none).map fun b => b.container) = some c) = _
  rw [Vector.getElem?_setIfInBounds]
  split
  · next h =>
    subst h
    split
    · rw [hold]; simp [hx]
    · next hn =>
      rw [Vector.getElem?_eq_none (by omega)]
  · rfl

theorem State.bufferOf_placedIn {s : State} {b c len : Nat} {v : Container} {ps : List Place} (hb : s.bufferOf c = some b) :
    (s.placedIn c b len v ps).bufferOf c = some b :=
  State.bufferOf_setBuffer (s := s.setCont c _) hb rfl

theorem State.take_of_open {s : State} {c b len : Nat} {v : Container} {x : StripeBuf} {content : Nat → Place}
    (hv : s.cont c = some v) (hb : s.bufferOf c = some b) (hx : s.buffer b = some x) :
    s.take c len content = (s.placedIn c b len v (x.places ++ [content v.fill]), v.fill, v.entries) := by
  unfold State.take
  rw [hv, hb]
  dsimp only
  rw [show (s.setCont c (some { v with fill := v.fill + len, entries := v.entries + 1 })).buffer b = some x from hx]
  rfl

theorem State.placeChunk_of_fits {s : State} {c b len : Nat} {v : Container} {x : StripeBuf}
    (ho : s.openOf .data = some c) (hv : s.cont c = some v) (hf : v.fill + len ≤ s.layout.chunkSpace) (he : v.entries < 255)
    (hb : s.bufferOf c = some b) (hx : s.buffer b = some x) :
    s.placeChunk len = (s.placedIn c b len v (x.places ++ [.empty]), .at_ c v.fill v.entries) := by
  unfold State.placeChunk
  rw [State.roomFor_of_fits ho hv hf he]
  dsimp only
  rw [State.take_of_open hv hb hx]

theorem State.placeRecord_of_fits {s : State} {c b : Nat} {r : RecipeRec} {v : Container} {x : StripeBuf}
    (ho : s.openOf .recipe = some c) (hv : s.cont c = some v) (hf : v.fill + r.size ≤ s.layout.chunkSpace)
    (he : v.entries < 255) (hb : s.bufferOf c = some b) (hx : s.buffer b = some x) : s.placeRecord r =
      ((s.placedIn c b r.size v (x.places ++ [.record r v.fill])).writeMem (bufferAddress b v.fill) r.bytes,
        .at_ c v.fill v.entries) := by
  unfold State.placeRecord
  rw [State.roomFor_of_fits ho hv hf he]
  dsimp only
  rw [State.take_of_open hv hb hx]
  dsimp only
  rw [State.bufferOf_placedIn hb]

/-- A RELEASE record placed at once, in the open RECIPE container (R62, R80). -/
theorem State.tryRecord_of_release {s : State} {o c b : Nat} {v : Container} {x : StripeBuf}
    (ho : s.openOf .recipe = some c) (hv : s.cont c = some v) (hf : v.fill + 8 ≤ s.layout.chunkSpace)
    (he : v.entries < 255) (hb : s.bufferOf c = some b) (hx : s.buffer b = some x) : s.tryRecord (.release o) =
      ((s.placedIn c b 8 v (x.places ++ [.record (.release o) v.fill])).writeMem (bufferAddress b v.fill)
        (RecipeRec.release o).bytes).onOru fun u => { u with recordCopied := u.recordCopied ++ [o] } := by
  unfold State.tryRecord
  rw [show s.recordFor (.release o) = some (.release o) from rfl]
  dsimp only
  rw [State.placeRecord_of_fits (r := .release o) ho hv hf he hb hx]
  rfl

theorem State.mustWait_of_running {s : State} {w : Waiter} (hb : s.pwc.box = .run) (ha : s.ctm.state.attached = true) :
    s.mustWait w = false := by
  unfold State.mustWait
  split
  · have hstate : s.ctm.state ≠ .attaching := fun h => by rw [h] at ha; cases ha
    simp [hb, hstate]
  · rfl

/-- Settles O35. -/
theorem placementsTakeRoom : Obligations.PlacementsTakeRoom := by
  refine ⟨fun s i no c b r v x hi hb4 ha hr hw hwait ho hv hf he hb hx => ?_,
    fun s o c b rest v x retry hb4 ha hbox hseal hreq ho hv hf he hb hx => ?_⟩
  · have hexec : exec (.chunkPlacement (.record i no)) s = .next (s.tryChunk (.record i no)) := by
      change execChunkPlacement (.record i no) s = _
      unfold execChunkPlacement
      rw [if_pos ⟨ha, by simp [State.placementNew, hr, hw]⟩, hwait]
      rfl
    have htry : s.tryChunk (.record i no) =
        (s.placedIn c b r.len v (x.places ++ [.empty])).placedAt (.record i no) c v.fill v.entries := by
      unfold State.tryChunk
      rw [show s.placementLength (.record i no) = some r.len by simp [State.placementLength, hr, hw]]
      dsimp only
      rw [State.placeChunk_of_fits ho hv hf he hb hx]
    rw [htry] at hexec
    exact ⟨_, hexec, State.stream_setStream_same hi _, State.cont_setCont_same .., fun d hd => State.cont_setCont_other _ hd _,
      State.buffer_setBuffer hb4 _, rfl, rfl, rfl⟩
  · have hexec : exec (if retry then .placementRetry else .recordPlacement) s =
        .next (State.tryRecord { s with ctm := { s.ctm with
          waiting := [], recordReqs := if retry then s.ctm.recordReqs else rest } } (.release o)) := by
      cases retry with
      | true =>
        have hwaiting : s.ctm.waiting = [.record (.release o)] := hreq
        change execPlacementRetry s = _
        unfold execPlacementRetry
        rw [if_pos ha, State.retryWaiting]
        rw [hwaiting, List.foldl_cons, List.foldl_nil, State.tryWaiter,
          if_neg (by rw [State.mustWait_of_running (by exact hbox) (by exact ha)]; decide)]
        dsimp only
        rw [if_neg (by exact ne_true_of_eq_false hseal)]
        rfl
      | false =>
        obtain ⟨hwaiting, hreqs⟩ : s.ctm.waiting = [] ∧ s.ctm.recordReqs = .release o :: rest := hreq
        change execRecordPlacement s = _
        unfold execRecordPlacement
        rw [hreqs]
        dsimp only
        rw [if_pos ⟨ha, hseal⟩, if_neg (by rw [State.mustWait_of_running (by exact hbox) (by exact ha)]; decide),
          if_neg (by simp [State.waitsFor, hwaiting]), ← hwaiting]
        rfl
    rw [State.tryRecord_of_release (v := v) (x := x) (by exact ho) (by exact hv) (by exact hf) he (by exact hb) (by exact hx)] at hexec
    have hlen : (RecipeRec.release o).bytes.length = 8 := RecipeRec.length_bytes _
    refine ⟨_, hexec, ?_, fun a hout hbad => ?_, State.buffer_setBuffer hb4 _, State.cont_setCont_same .., rfl, rfl, rfl⟩
    · have hread := State.read_writeMem (s.placedIn c b 8 v (x.places ++ [.record (.release o) v.fill]))
        (bufferAddress b v.fill) (RecipeRec.release o).bytes
      rw [hlen] at hread
      exact hread
    · exact Memory.get_writeMem (s := s.placedIn c b 8 v (x.places ++ [.record (.release o) v.fill]))
        (by rw [hlen]; exact hout) fun y hy _ => hbad y hy

/-! ## Sealing and stripe writes (R81 to R86) -/

theorem foldl_of_fixed {α β : Type} {f : α → β → α} {l : List β} (h : ∀ b ∈ l, ∀ a, f a b = a) (a : α) : l.foldl f a = a := by
  induction l with
  | nil => rfl
  | cons b l ih => rw [List.foldl_cons, h b (by simp), ih fun c hc => h c (by simp [hc])]

/-- Writers whose operations succeeded fail no member (R83). -/
theorem State.failWriters_of_good {s : State} {rs : List Returned} (h : ∀ r ∈ rs, r.result ≠ .error) : s.failWriters rs = s :=
  foldl_of_fixed (fun r hr _ => if_neg (h r hr)) s

theorem mem_putKey {α : Type} {m : Assoc α} {k : Nat} {v : α} {e : Nat × α} (h : e ∈ putKey m k v) : e = (k, v) ∨ e ∈ m := by
  induction m with
  | nil => simpa [putKey] using h
  | cons x m ih =>
    rw [putKey] at h
    split at h
    · rcases List.mem_cons.1 h with h | h
      · exact Or.inl h
      · exact Or.inr h
    · split at h
      · rcases List.mem_cons.1 h with h | h
        · exact Or.inl h
        · exact Or.inr (List.mem_cons_of_mem _ h)
      · rcases List.mem_cons.1 h with h | h
        · exact Or.inr (h ▸ List.mem_cons_self)
        · exact (ih h).imp id fun h => List.mem_cons_of_mem _ h

/-- A container that is not OPEN opens none of a kind that had none open (R76). -/
theorem State.openOf_setCont_of_none {s : State} {k : ContKind} {c : Nat} {v : Container} (h : s.openOf k = none)
    (hv : v.state ≠ .opened) : (s.setCont c (some v)).openOf k = none := by
  unfold State.openOf at h ⊢
  rw [Option.map_eq_none_iff, List.find?_eq_none] at h ⊢
  intro e he
  rcases mem_putKey he with rfl | he
  · simp [hv]
  · exact h e he

/-- What the sealing of an OPEN container leaves (R82). -/
theorem State.sealContainer_spec {s : State} {c b : Nat} {v : Container} {a : ArrayRec} (hv : s.cont c = some v)
    (hb : s.bufferOf c = some b) (ha : s.arr = some a) : ∃ m bad ch it sa rt, s.sealContainer c =
      { ((s.setCont c (some { v with state := .sealing, seq := some a.seq })).onArray fun a => { a with seq := sequenceUp a.seq }) with
        mem := m, mec := { s.mec with bad := bad }, chans := ch, pwc := { s.pwc with idleTimers := it, standbyAsks := sa },
        returns := rt, ctm := { s.ctm with writes := s.ctm.writes ++ [{
          container := c, seq := a.seq, written := 0,
          out := (List.range a.layout.members).filter fun p => s.member p ≠ .failed && s.member p ≠ .absent }] } } := by
  unfold State.sealContainer
  rw [hv, hb, ha]
  dsimp only
  generalize hu : (s.setCont c (some { v with state := .sealing, seq := some a.seq })).onArray _ = u
  have hmember : ∀ p, u.member p = s.member p := fun p => by rw [← hu]; rfl
  have hctm : u.ctm = s.ctm ∧ u.mec = s.mec ∧ u.pwc = s.pwc := by rw [← hu]; exact ⟨rfl, rfl, rfl⟩
  obtain ⟨hctm, hmec, hpwc⟩ := hctm
  unfold State.issueWrite
  dsimp only
  obtain ⟨m, bad, hf⟩ := u.finishStripe_frame b v.kind a.seq a.layout
  simp only [hmember]
  obtain ⟨ch, it, sa, rt, h⟩ := ((u.finishStripe b v.kind a.seq a.layout).1.onCtm fun m => { m with writes := m.writes ++ [{
          container := c, seq := a.seq, written := 0,
          out := (List.range a.layout.members).filter fun p => s.member p ≠ .failed && s.member p ≠ .absent }] }).submitAll_frame
    (((List.range a.layout.members).filter fun p => s.member p ≠ .failed && s.member p ≠ .absent).map fun p =>
      (p, writeOp .write c 0 (unitFor a.layout c p (u.finishStripe b v.kind a.seq a.layout).2) .ctm (.stripeWrite c)))
  refine ⟨m, bad, ch, it, sa, rt, h.trans ?_⟩
  rw [hf, ← hctm, ← hmec, ← hpwc]
  rfl

theorem State.arr_eq_some {s : State} {a : ArrayRec} (h : s.arr = some a) : s.inUse = true ∧ s.tables.array = some a := by
  unfold State.arr at h
  split at h
  · next hu => exact ⟨hu, h⟩
  · cases h

/-- A forced seal for sleep entry with an open DATA container that has taken something, and no open RECIPE container (R81). -/
theorem exec_forcedSeal_of_sleep {s : State} {rest : List SealBy} {c : Nat} {v : Container}
    (hreq : s.ctm.sealReqs = .sleepEntry :: rest) (hat : s.ctm.state.attached = true) (ho : s.openOf .data = some c)
    (hv : s.cont c = some v) (hfill : v.fill ≠ 0)
    (hrec : ((s.onCtm fun m => { m with sealReqs := rest }).sealContainer c).openOf .recipe = none) :
    exec .forcedSeal s = .next (((s.onCtm fun m => { m with sealReqs := rest }).sealContainer c).onCtm fun m =>
      { m with sealJobs := m.sealJobs ++ [(.sleepEntry, [c])] }) := by
  change execForcedSeal s = _
  unfold execForcedSeal
  rw [hreq]
  dsimp only
  rw [if_pos (Or.inl hat)]
  have hdata : (s.onCtm fun m => { m with sealReqs := rest }).forceSeal .data =
      ((s.onCtm fun m => { m with sealReqs := rest }).sealContainer c, [c]) := by
    unfold State.forceSeal
    rw [show (s.onCtm fun m => { m with sealReqs := rest }).openOf .data = some c from ho]
    dsimp only
    rw [show (s.onCtm fun m => { m with sealReqs := rest }).cont c = some v from hv]
    exact if_neg hfill
  generalize s.onCtm (fun m => { m with sealReqs := rest }) = u at hdata hrec ⊢
  unfold State.forcedSeal State.sealBoth
  dsimp only
  rw [hdata]
  dsimp only
  rw [State.forceSeal, hrec]
  rfl

/-- The state in which CTM has taken a completion up to the reports of the container's records (R84). -/
def State.containerSealed (s : State) (c b : Nat) (v : Container) : State :=
  (s.setCont c (some { v with state := .sealed })).setBuffer b none

/-- CTM takes a completion: the places settle, the container is SEALED with its buffer given up, its records are reported, and the
container is tested (R84, R86). -/
theorem State.containerWritten_of_sealing {s u : State} {w : StripeWrite} {b : Nat} {x : StripeBuf} {v : Container}
    (hb : s.bufferOf w.container = some b) (hx : s.buffer b = some x)
    (hu : x.places.foldl (fun s p => s.settlePlace w.container p) s = u) (hv : u.cont w.container = some v)
    (hs : v.state = .sealing) : s.containerWritten w =
      State.testFree (((x.places.foldl (fun s p => s.reportPlace w.container p)
        (u.containerSealed w.container b v)).sealJobsWritten w.container).onCtm fun m =>
          { m with reloc := m.reloc.map fun r => { r with destinations := r.destinations.filter fun k => k ≠ w.container } })
        w.container := by
  unfold State.containerWritten
  dsimp only
  rw [hb]
  dsimp only [Option.bind]
  rw [hx]
  dsimp only [Option.map, Option.getD]
  rw [hu, State.modCont_of_cont hv, if_pos hs]
  rfl

theorem exec_stripeWriteComplete_of_done {s : State} {w : StripeWrite} (hw : s.nextWrite = some w) (ho : w.out = [])
    (hf : s.ctm.state ≠ .failed) (hp : s.copyPending w.container = false) : exec .stripeWriteComplete s =
      .next ((s.onCtm fun m => { m with writes := m.writes.erase w }).containerWritten w) := by
  change execStripeWriteComplete s = _
  unfold execStripeWriteComplete
  rw [hw]
  dsimp only
  rw [if_pos ⟨by rw [ho]; rfl, Or.inr hp⟩, if_neg (by exact hf)]

theorem Place.recordNotSeal_iff {p : Place} (h : p.recordNotSeal = true) :
    (∀ (s : State) c, s.settlePlace c p = s) ∧ ∀ (s : State) c, s.reportPlace c p = s := by
  unfold Place.recordNotSeal at h
  split at h
  · cases h
  · next hne =>
    refine ⟨fun _ _ => rfl, fun s c => ?_⟩
    unfold State.reportPlace
    split
    · next heq => cases heq; exact (hne _ _ _ _ _ _ _ rfl).elim
    · rfl
  · cases h

/-- The container that a completed record write leaves is free to go or stays SEALED, as R86 has it. -/
theorem Container.spent_of_recipe {v : Container} (hs : v.state = .sealed) (hk : v.kind = .recipe) :
    v.spent = (decide (v.reads = 0) && decide (v.segRefs = 0)) := by
  simp [Container.spent, hs, hk]

theorem State.sealingStreamAt_of_only {s : State} {i : Nat} {l : SegLoc} (hi : i < 8) (hs : (s.stream i).state = .sealing)
    (hl : (s.stream i).sealAt = some l) (hn : ∀ j < 8, j ≠ i → (s.stream j).sealAt ≠ some l) :
    s.sealingStreamAt l = some i := by
  unfold State.sealingStreamAt
  rw [List.find?_range_eq_some]
  refine ⟨by simp [hs, hl], by simpa using hi, fun j hj => ?_⟩
  simp [hn j (by omega) (by omega)]

/-- The stream's object is SEALED, the stream FREE, and CLOSE_INGEST answered (R20, R54). -/
theorem State.objectSealed_of_opened {s : State} {i o length tag : Nat} {r : Obj} (ho : (s.stream i).object = some o)
    (hr : s.obj o = some r) (hs : r.state = .opened) (ht : (s.stream i).closeTag = some tag) :
    ∃ fs, s.objectSealed i length = ({ s.setObj o (some { r with
        state := .sealed, length := length, sealedAt := s.pwc.time, stream := none }) with
      lnk := { s.lnk with
        notices := s.lnk.notices.setIfInBounds (slotIngestEnd i) (some fs),
        replyQueue := s.lnk.queueAfter tag kindCloseIngest .ok [⟨2, o⟩, ⟨6, length⟩, ⟨4, r.chunks⟩] } } : State).freeStream i := by
  generalize hu : s.setObj o (some { r with
        state := .sealed, length := length, sealedAt := s.pwc.time, stream := none }) = u
  have hstream : u.stream i = s.stream i := by rw [← hu]; rfl
  obtain ⟨fs, hfs⟩ : ∃ fs, u.noticeIngestEnd i .sealed = u.notice (slotIngestEnd i) fs := ⟨_, rfl⟩
  refine ⟨fs, ?_⟩
  unfold State.objectSealed
  rw [ho, Option.bind_some, hr, Option.map_some]
  dsimp only
  rw [if_pos hs, hu, hfs, show (u.notice (slotIngestEnd i) fs).stream i = u.stream i from rfl, hstream, ht]
  dsimp only
  rw [State.answer_eq, ← hu]
  rfl

theorem State.cont_of_containers {t s : State} {c : Nat} {v : Option Container}
    (h : t.tables.containers = setKey s.tables.containers c v) : t.cont c = v ∧ ∀ d, d ≠ c → t.cont d = s.cont d :=
  ⟨by rw [State.cont, h, getKey_setKey, if_pos rfl], fun d hd => by rw [State.cont, h, getKey_setKey, if_neg hd]; rfl⟩

theorem State.obj_of_objects {t s : State} {o : Nat} {v : Option Obj} (h : t.tables.objects = setKey s.tables.objects o v) :
    t.obj o = v ∧ ∀ p, p ≠ o → t.obj p = s.obj p :=
  ⟨by rw [State.obj, h, getKey_setKey, if_pos rfl], fun p hp => by rw [State.obj, h, getKey_setKey, if_neg hp]; rfl⟩

theorem State.stream_of_streams {t s : State} {i : Nat} {v : Stream} (hi : i < 8)
    (h : t.ing.streams = s.ing.streams.setIfInBounds i v) : t.stream i = v ∧ ∀ j, j ≠ i → t.stream j = s.stream j :=
  ⟨(congrArg (fun x => x[i]?.getD Stream.freeRecord) h).trans (State.stream_setStream_same hi v), fun j hj =>
    (congrArg (fun x => x[j]?.getD Stream.freeRecord) h).trans (State.stream_setStream_other (s := s) hj v)⟩

theorem State.cont_testFree_other (s : State) {c d : Nat} (hd : d ≠ c) : (s.testFree c).cont d = s.cont d := by
  unfold State.testFree
  split
  · rfl
  · split
    · split
      · rfl
      · exact (State.cont_quarantined s c d).trans (if_neg hd)
    · rfl

/-- A container that something holds back is left as it is by its test (R86). -/
theorem State.testFree_of_kept {s : State} {c : Nat} {v : Container} (hv : s.cont c = some v) (h : v.spent = false ∨
      s.isSource c = true ∨ s.beingReplayed c = true ∨ s.ctm.noFree = true) :
    (s.testFree c).cont c = some v ∧ (s.testFree c).tables.quarantine = s.tables.quarantine := by
  unfold State.testFree
  rw [hv]
  dsimp only
  split
  · next hc =>
    rw [if_pos (by simp at hc; simp_all)]
    exact ⟨hv, rfl⟩
  · exact ⟨hv, rfl⟩

/-- Settles O36. -/
theorem sealsAndStripeWrites : Obligations.SealsAndStripeWrites := by
  refine ⟨fun s v n a hz hw hlen hgood ha => ?_, fun s rest c b v x a hreq hat ho hv hfill hb hx ha hrec => ?_,
    fun s c p r bs hr hok => ?_,
    fun s w b h off f e v hn hout hf hb4 hb hp hx hl he hfp hc hoff hst hv hs hk hlive hj => ?_,
    fun s w i o b off length chunks kind owner segments tag al v r ps qs hn hout hf hb4 hb hp hx hrest hv hs hk hi hst hat
      honly hobj htag ho hopen => ?_⟩
  · have hwriters : (s.dropReturned isZeroJob).failWriters (s.returned isZeroJob) = s.dropReturned isZeroJob :=
      State.failWriters_of_good fun r hr => by rw [hgood r hr]; exact OpResult.noConfusion
    have hexec : exec .zeroStripeDone s = .next (((s.dropReturned isZeroJob).onCtm fun m => { m with zeroing := none }).onArray
        fun a => { a with fence := v }) := by
      change execZeroStripeDone s = _
      unfold execZeroStripeDone
      rw [hz]
      dsimp only
      rw [if_neg (by omega), hwriters,
        if_neg (by rw [show (s.dropReturned isZeroJob).ctm.zeroing = some (v, n) from hz]; exact Bool.noConfusion),
        State.retryWaiting_of_none (by exact hw)]
    refine ⟨_, hexec, ?_, rfl, rfl, rfl, rfl⟩
    change (s.tables.array.map fun a => { a with fence := v }) = _
    rw [ha]; rfl
  · obtain ⟨hin, harr⟩ := State.arr_eq_some ha
    obtain ⟨m, bad, ch, it, sa, rt, hseal⟩ := State.sealContainer_spec (s := s.onCtm fun m => { m with sealReqs := rest })
      hv hb ha
    have hexec := exec_forcedSeal_of_sleep hreq hat ho hv hfill (by
      rw [hseal]
      exact State.openOf_setCont_of_none (s := s) hrec (v := { v with state := .sealing, seq := some a.seq })
        ContState.noConfusion)
    rw [hseal] at hexec
    refine completes_of_eq hexec fun t ht => ?_
    obtain ⟨hcont, hconts⟩ := State.cont_of_containers (t := t) (s := s) (c := c)
      (v := some { v with state := .sealing, seq := some a.seq }) (by rw [ht]; rfl)
    refine ⟨hcont, hconts, ?_, by rw [ht]; rfl, by rw [ht]; rfl, by rw [ht]; rfl⟩
    rw [ht]
    change (s.tables.array.map fun a => { a with seq := sequenceUp a.seq }) = _
    rw [harr]; rfl
  · change execUnitWriteDone c p s = _
    unfold execUnitWriteDone
    rw [hr]
    dsimp only
    rw [State.failWriters_of_good (by simp [hok]), hok]
    rfl
  · have hexec := exec_stripeWriteComplete_of_done hn hout hf hp
    generalize hs1 : (s.onCtm fun m => { m with writes := m.writes.erase w }) = s1 at hexec
    have hframe : s1 = { s with ctm := { s.ctm with writes := s.ctm.writes.erase w } } := hs1.symm
    have hstored : s1.settlePlace w.container (.chunk false h f off) =
        (s1.onTables fun t => t.setEntry h (some { e with state := .stored })).idxAnswer .ok := by
      change s1.idxStored h f w.container off = _
      rw [← hfp, ← hc, ← hoff]
      exact (State.idxStored_of_match (by rw [hframe]; exact hl) (by rw [hframe]; exact he)).1 hst
    rw [State.containerWritten_of_sealing (s := s1) (w := w) (b := b) (v := v)
      (x := { container := w.container, places := [.chunk false h f off] }) (by rw [hframe]; exact hb)
      (by rw [hframe]; exact hx) hstored (by rw [hframe]; exact hv) hs] at hexec
    generalize hT : State.onCtm _ _ = T at hexec
    have hsealed : T.cont w.container = some { v with state := .sealed } := by
      rw [← hT, hframe]; exact State.cont_setCont_same _ w.container _
    rw [State.testFree_of_held hsealed
      (by rw [Container.not_spent_of_live (v := { v with state := .sealed }) hk hlive]; rfl)] at hexec
    subst hT
    refine completes_of_eq hexec fun t ht => ?_
    obtain ⟨hcont, hconts⟩ := State.cont_of_containers (t := t) (s := s) (c := w.container)
      (v := some { v with state := .sealed }) (by rw [ht, hframe]; rfl)
    have hentries : t.tables.entries = setKey s.tables.entries h (some { e with state := .stored }) := by rw [ht, hframe]; rfl
    obtain ⟨hkey, hother⟩ := Tables.getKey_of_entries hentries
    refine ⟨?_, hother, hcont, hconts, ?_, ?_, ?_⟩
    · refine Tables.entry_eq_some.2 ⟨?_, hkey⟩
      rw [ht, hframe]; exact (Tables.entry_eq_some.1 he).1
    · rw [ht]; exact State.buffer_setBuffer hb4 _
    · rw [ht, hframe]; rfl
    · rw [ht, hframe]; rfl
  · have hexec := exec_stripeWriteComplete_of_done hn hout hf hp
    generalize hs1 : (s.onCtm fun m => { m with writes := m.writes.erase w }) = s1 at hexec
    have hframe : s1 = { s with ctm := { s.ctm with writes := s.ctm.writes.erase w } } := hs1.symm
    have hsettle : (ps ++ .record (.closing o length chunks kind owner al segments) off :: qs).foldl
        (fun s p => s.settlePlace w.container p) s1 = s1 := by
      refine foldl_of_fixed (fun p hp s => ?_) s1
      rcases List.mem_append.1 hp with hp | hp
      · exact (Place.recordNotSeal_iff (hrest p (List.mem_append_left _ hp))).1 s _
      · rcases List.mem_cons.1 hp with rfl | hp
        · rfl
        · exact (Place.recordNotSeal_iff (hrest p (List.mem_append_right _ hp))).1 s _
    have hsame : ∀ l : List Place, (∀ p ∈ l, p ∈ ps ++ qs) → ∀ s : State, l.foldl (fun s p => s.reportPlace w.container p) s = s :=
      fun l hl s => foldl_of_fixed (fun p hp s => (Place.recordNotSeal_iff (hrest p (hl p hp))).2 s _) s
    obtain ⟨fs, hsealed⟩ := State.objectSealed_of_opened (s := s1.containerSealed w.container b v) (i := i) (length := length)
      (by rw [hframe]; exact hobj) (r := r) (by rw [hframe]; exact ho) hopen (by rw [hframe]; exact htag)
    have hreport : (s1.containerSealed w.container b v).reportPlace w.container
        (.record (.closing o length chunks kind owner al segments) off) =
          (s1.containerSealed w.container b v).objectSealed i length := by
      unfold State.reportPlace
      dsimp only
      rw [State.sealingStreamAt_of_only hi (by rw [hframe]; exact hst) (by rw [hframe]; exact hat)
        (by rw [hframe]; exact honly)]
    rw [State.containerWritten_of_sealing (s := s1) (w := w) (b := b) (v := v) (x := {
      container := w.container,
      places := ps ++ .record (.closing o length chunks kind owner al segments) off :: qs }) (by rw [hframe]; exact hb)
      (by rw [hframe]; exact hx) hsettle
      (by rw [hframe]; exact hv) hs] at hexec
    dsimp only at hexec
    rw [List.foldl_append, hsame ps (fun p hp => List.mem_append_left _ hp), List.foldl_cons, hreport,
      hsame qs (fun p hp => List.mem_append_right _ hp), hsealed] at hexec
    generalize hT : State.onCtm _ _ = T at hexec
    obtain ⟨hcont, hconts⟩ := State.cont_of_containers (t := T) (s := s) (c := w.container)
      (v := some { v with state := .sealed }) (by rw [← hT, hframe]; rfl)
    have hspent := Container.spent_of_recipe (v := { v with state := .sealed }) rfl hk
    have hsrc : T.isSource w.container = s.isSource w.container := by
      have hreloc : T.ctm.reloc = s.ctm.reloc.map (fun r =>
          { r with destinations := r.destinations.filter fun k => k ≠ w.container }) ∧
          T.ctm.abandoned = s.ctm.abandoned := by rw [← hT, hframe]; exact ⟨rfl, rfl⟩
      rw [State.isSource, State.isSource, hreloc.1, hreloc.2, Option.any_map]
    have hrep : T.beingReplayed w.container = s.beingReplayed w.container := by rw [← hT, hframe]; rfl
    have hnof : T.ctm.noFree = s.ctm.noFree := by rw [← hT, hframe]; rfl
    have hlists : T.tables.quarantine = s.tables.quarantine := by rw [← hT, hframe]; rfl
    obtain ⟨cs, q, bd, df, htest⟩ := T.testFree_frame w.container
    refine completes_of_eq hexec fun t ht => ?_
    obtain ⟨hsame, hsames⟩ := State.obj_of_objects (t := t) (s := s) (o := o) (v := some { r with
      state := .sealed, length := length, sealedAt := s.pwc.time, stream := none }) (by rw [ht, htest, ← hT, hframe]; rfl)
    obtain ⟨hfree, hstreams⟩ := State.stream_of_streams (t := t) (s := s) hi (v := Stream.freeRecord)
      (by rw [ht, htest, ← hT, hframe]; rfl)
    refine ⟨hsame, hsames, hfree, hstreams, ?_, ?_, fun hz hrd h1 h2 h3 => ?_, fun hor => ?_, ?_, fun d hd => ?_, ?_, ?_, ?_⟩
    · rw [ht, htest, ← hT]
      change ((s1.lnk.notices.setIfInBounds (7 + i) (some fs))[7 + i]?.getD none).isSome = true
      rw [Vector.getElem?_setIfInBounds_self, if_pos (by omega)]; rfl
    · rw [ht, htest, ← hT, hframe]; rfl
    · rw [ht, State.testFree_of_spent hcont (hspent.trans (by simp [hz, hrd])) (hsrc.trans h1) (hrep.trans h2) (hnof.trans h3)]
      exact ⟨(State.cont_quarantined ..).trans (if_pos rfl), (T.quarantined_lists w.container).1.trans (by rw [hlists])⟩
    · obtain ⟨hkept, hq⟩ := State.testFree_of_kept hcont (by
        rw [hspent, hsrc, hrep, hnof]
        rcases hor with h | h | h
        · exact .inl (by simp [h])
        · exact .inl (by simp [h])
        · exact .inr h)
      rw [ht]
      exact ⟨hkept, hq.trans hlists⟩
    · rw [ht, htest, ← hT, hframe]; rfl
    · rw [ht]; exact (State.cont_testFree_other T hd).trans (hconts d hd)
    · rw [ht, htest, ← hT, hframe]; exact State.buffer_setBuffer hb4 _
    · rw [ht, htest, ← hT, hframe]; rfl
    · rw [ht, htest, ← hT, hframe]; rfl

end Sys2Proof.Machine

/-! # Proofs: Channels: queues, dispatch, and the failure of a member -/

namespace Sys2Proof.Machine

/-! ## Queues and waiters of a channel (R98, R99) -/

theorem Channel.queue_setQueue (c : Channel) (k j : Cls) (q : List Op) :
    (c.setQueue k q).queue j = if j = k then q else c.queue j := by
  unfold Channel.queue Channel.setQueue
  cases k <;> cases j <;> simp [classNumber]

theorem Channel.waitingFor_setWaiting (c : Channel) (k j : Cls) (q : List Stalled) :
    (c.setWaiting k q).waitingFor j = if j = k then q else c.waitingFor j := by
  unfold Channel.waitingFor Channel.setWaiting
  cases k <;> cases j <;> simp [classNumber]

theorem Channel.queue_setWaiting (c : Channel) (k j : Cls) (q : List Stalled) : (c.setWaiting k q).queue j = c.queue j := rfl

theorem Channel.waitingFor_setQueue (c : Channel) (k j : Cls) (q : List Op) :
    (c.setQueue k q).waitingFor j = c.waitingFor j := rfl

theorem State.chan_modChan_same {s : State} {p : Nat} (hp : p < 4) (f : Channel → Channel) :
    (s.modChan p f).chan p = f (s.chan p) := (State.chan_setChan ..).trans (if_pos ⟨rfl, hp⟩)

theorem State.chan_modChan_other {s : State} {p q : Nat} (h : q ≠ p) (f : Channel → Channel) :
    (s.modChan p f).chan q = s.chan q := (State.chan_setChan ..).trans (if_neg fun hc => h hc.1.symm)

/-- The idle condition's change: of the channel only the report of it (R107). -/
theorem State.chan_idleUpdate_same {s : State} {p : Nat} (hp : p < 4) :
    ∃ b, (s.idleUpdate p).chan p = { s.chan p with idleReported := b } := by
  unfold State.idleUpdate
  dsimp only
  split
  · exact ⟨true, State.chan_modChan_same hp fun c => { c with idleReported := true }⟩
  · split
    · exact ⟨false, State.chan_modChan_same hp fun c => { c with idleReported := false }⟩
    · exact ⟨_, rfl⟩

theorem State.chan_idleUpdate_other {s : State} {p q : Nat} (h : q ≠ p) : (s.idleUpdate p).chan q = s.chan q := by
  unfold State.idleUpdate
  dsimp only
  split
  · exact State.chan_modChan_other h fun c => { c with idleReported := true }
  · split
    · exact State.chan_modChan_other h fun c => { c with idleReported := false }
    · rfl

theorem State.chan_enqueue_same {s : State} {p : Nat} (hp : p < 4) (o : Op) :
    ∃ b, (s.enqueue p o).chan p = { (s.chan p).enqueue o with idleReported := b } := by
  obtain ⟨b, h⟩ := State.chan_idleUpdate_same (s := s.modChan p fun c => c.enqueue o) hp
  exact ⟨b, h.trans (by rw [State.chan_modChan_same hp])⟩

theorem State.chan_enqueue_other {s : State} {p q : Nat} (h : q ≠ p) (o : Op) : (s.enqueue p o).chan q = s.chan q :=
  (State.chan_idleUpdate_other h).trans (State.chan_modChan_other h _)

theorem Channel.enqueue_of_room {c : Channel} {o : Op} (hw : c.waitingFor o.cls = []) (hl : (c.queue o.cls).length < 16) :
    c.enqueue o = c.setQueue o.cls (c.queue o.cls ++ [o]) := if_pos ⟨by rw [hw]; rfl, hl⟩

theorem Channel.enqueue_of_full {c : Channel} {o : Op} (hl : 16 ≤ (c.queue o.cls).length) :
    c.enqueue o = c.setWaiting o.cls (c.waitingFor o.cls ++ [{ op := o, rest := [] }]) :=
  if_neg fun h => Nat.lt_irrefl 16 (Nat.lt_of_le_of_lt hl h.2)

theorem Channel.queue_enqueue_other (c : Channel) (o : Op) {k : Cls} (h : k ≠ o.cls) : (c.enqueue o).queue k = c.queue k := by
  unfold Channel.enqueue
  split
  · exact (Channel.queue_setQueue ..).trans (if_neg h)
  · rfl

/-- A valid operation submitted to an ACTIVE member of an array that has not failed, by a stage that does not stall, joins its
queue or waits behind it (R98, R99). -/
theorem State.submit_of_active {s : State} {p : Nat} {o : Op} (hf : s.ctm.state ≠ .failed) (hv : s.opValid (madeOp o) = true)
    (hm : s.member p = .active) (hst : s.stalledAt o.requester (madeOp o).cls = none) :
    s.submit p o = s.enqueue p (madeOp o) := by
  unfold State.submit
  dsimp only
  rw [if_neg hf, show s.stalledAt (madeOp o).requester (madeOp o).cls = none from hst]
  dsimp only
  unfold State.arrive
  rw [hv, if_neg (by exact Bool.false_ne_true), hm]

theorem State.opValid_madeOp (s : State) (o : Op) : s.opValid (madeOp o) = s.opValid o := rfl

/-! ## Dispatch by the service frame (R101, R102) -/

/-- A dispatch of class `k`: its oldest operation becomes the current one and the frame moves on. -/
def Channel.started (c : Channel) (k : Cls) (o : Op) (rest : List Op) (under : Vector Nat 5) : Channel :=
  { c.setQueue k rest with
    current := some o, command := c.command + 1, position := (c.position + 1) % c.frame.length, underruns := under }

theorem Channel.dispatch_of_slot {c : Channel} {o : Op} {rest : List Op} (h : c.queue c.slotClass = o :: rest) :
    c.served = some c.slotClass ∧ c.dispatch = c.started c.slotClass o rest c.underruns := by
  have hs : c.served = some c.slotClass := by
    unfold Channel.served
    rw [if_neg (by rw [h]; exact Bool.false_ne_true)]
  refine ⟨hs, ?_⟩
  unfold Channel.dispatch
  rw [hs]
  dsimp only
  rw [h]
  dsimp only
  rw [if_pos rfl]
  rfl

theorem Channel.dispatch_of_fallback {c : Channel} {k : Cls} {o : Op} {rest : List Op} (he : c.queue c.slotClass = [])
    (hk : (fallbackOrder.find? fun k => !(c.queue k).isEmpty) = some k) (h : c.queue k = o :: rest) :
    c.served = some k ∧ c.dispatch = c.started k o rest (c.underruns.setIfInBounds (classNumber c.slotClass)
      (underrunUp (c.underruns[classNumber c.slotClass]?.getD 0))) := by
  have hs : c.served = some k := by
    unfold Channel.served
    rw [if_pos (by rw [he]; rfl), hk]
  have hne : k ≠ c.slotClass := fun hc => by rw [hc, he] at h; exact nomatch h
  refine ⟨hs, ?_⟩
  unfold Channel.dispatch
  rw [hs]
  dsimp only
  rw [h]
  dsimp only
  rw [if_neg hne]
  rfl

/-- The state of a channel with other queues and waiters. -/
def Channel.withQueues (c : Channel) (q : Vector (List Op) 5) (w : Vector (List Stalled) 5) : Channel :=
  { c with queues := q, waiting := w }

theorem State.setChan_setChan (s : State) (p : Nat) (v w : Channel) : (s.setChan p v).setChan p w = s.setChan p w := by
  unfold State.setChan
  simp

/-- Waiters with nothing held back behind them join their queue: of the channel its queues and waiters change alone (R99). -/
theorem State.joinWaiters_of_single {p : Nat} (hp : p < 4) {k : Cls} : ∀ (n : Nat) (s : State) (v : Channel),
    (∀ w ∈ v.waitingFor k, w.rest = []) →
    ∃ q w, State.joinWaiters p k n (s.setChan p v) = s.setChan p (v.withQueues q w)
  | 0, s, v, _ => ⟨v.queues, v.waiting, rfl⟩
  | n + 1, s, v, h => by
    have hv : (s.setChan p v).chan p = v := (State.chan_setChan ..).trans (if_pos ⟨rfl, hp⟩)
    unfold State.joinWaiters
    rw [hv]
    split
    · rename_i w ws hw
      split
      · rw [h w (by rw [hw]; exact List.mem_cons_self)]
        have hmod : ((s.setChan p v).modChan p fun c => (c.setQueue k (c.queue k ++ [w.op])).setWaiting k ws) =
            s.setChan p ((v.setQueue k (v.queue k ++ [w.op])).setWaiting k ws) := by
          unfold State.modChan
          rw [hv, State.setChan_setChan]
        dsimp only [State.submitAll, List.foldl_nil]
        rw [hmod]
        obtain ⟨q, x, hjoin⟩ := State.joinWaiters_of_single hp n s
          ((v.setQueue k (v.queue k ++ [w.op])).setWaiting k ws) fun u hu => by
            rw [Channel.waitingFor_setWaiting, if_pos rfl] at hu
            exact h u (by rw [hw]; exact List.mem_cons_of_mem _ hu)
        exact ⟨q, x, hjoin⟩
      · exact ⟨v.queues, v.waiting, rfl⟩
    · exact ⟨v.queues, v.waiting, rfl⟩

theorem exec_dispatch_of_served {s : State} {p : Nat} {k : Cls} (hm : (s.chan p).mayDispatch = true)
    (hk : (s.chan p).served = some k) : exec (.dispatch p) s =
      .next (State.joinWaiters p k 16 (s.setChan p (s.chan p).dispatch)) := by
  refine congrArg Host.Outcome.next ((if_pos hm).trans ?_)
  unfold State.dispatch
  rw [hk]
  rfl

theorem State.joinWaiters_of_none {s : State} {p : Nat} {k : Cls} (h : (s.chan p).waitingFor k = []) :
    ∀ n, State.joinWaiters p k n s = s
  | 0 => rfl
  | n + 1 => by unfold State.joinWaiters; rw [h]

/-- Settles O42. -/
theorem operationsQueue : Obligations.OperationsQueue := by
  unfold Obligations.OperationsQueue
  refine ⟨?_, ?_, ?_, ?_⟩
  · intro s p o hp hf hv hm hw hst
    have hexec : exec (.operationSubmit p o) s = .next (s.enqueue p (madeOp o)) :=
      congrArg Host.Outcome.next (State.submit_of_active hf hv hm hst)
    obtain ⟨b, hchan⟩ := State.chan_enqueue_same (s := s) hp (madeOp o)
    obtain ⟨ch, it, sa, hframe⟩ := s.enqueue_frame p (madeOp o)
    refine ⟨_, hexec, fun hl => ?_, fun hl => ?_, fun k hk => ?_, fun q hq => State.chan_enqueue_other hq _, ?_, ?_, ?_⟩
    · rw [hchan, Channel.enqueue_of_room hw hl]
      exact ⟨(Channel.queue_setQueue ..).trans (if_pos rfl), hw⟩
    · rw [hchan, Channel.enqueue_of_full hl, hw]
      exact ⟨rfl, (Channel.waitingFor_setWaiting ..).trans (if_pos rfl)⟩
    · rw [hchan]
      exact Channel.queue_enqueue_other _ _ hk
    all_goals rw [hframe]
  · intro s p o rest hp hm hq hw
    obtain ⟨hserved, hdisp⟩ := Channel.dispatch_of_slot hq
    have hexec := exec_dispatch_of_served hm hserved
    have hchan : (s.setChan p (s.chan p).dispatch).chan p = (s.chan p).dispatch :=
      (State.chan_setChan ..).trans (if_pos ⟨rfl, hp⟩)
    rw [State.joinWaiters_of_none (by rw [hchan, hdisp]; exact hw)] at hexec
    refine ⟨_, hexec, ?_, ?_, ?_, ?_, fun q hq => (State.chan_setChan ..).trans (if_neg fun hc => hq hc.1.symm), rfl⟩
    all_goals rw [hchan, hdisp]
    · rfl
    · exact (Channel.queue_setQueue ..).trans (if_pos rfl)
    · rfl
    · rfl
  · intro s p k o rest hp hm he hk hq hw
    obtain ⟨hserved, hdisp⟩ := Channel.dispatch_of_fallback he hk hq
    obtain ⟨q, w, hjoin⟩ := State.joinWaiters_of_single hp 16 s (s.chan p).dispatch (k := k)
      (by rw [hdisp]; exact hw)
    have hexec := exec_dispatch_of_served hm hserved
    rw [hjoin] at hexec
    have hchan : (s.setChan p ((s.chan p).dispatch.withQueues q w)).chan p = (s.chan p).dispatch.withQueues q w :=
      (State.chan_setChan ..).trans (if_pos ⟨rfl, hp⟩)
    refine ⟨_, hexec, ?_, ?_, ?_, fun c hc => ?_,
      fun q hq => (State.chan_setChan ..).trans (if_neg fun hc => hq hc.1.symm), rfl⟩
    all_goals rw [hchan, hdisp]
    · rfl
    · rfl
    · show ((s.chan p).underruns.setIfInBounds (classNumber (s.chan p).slotClass) _)[_]?.getD 0 = _
      generalize (s.chan p).slotClass = k
      cases k <;> simp [classNumber]
    · show ((s.chan p).underruns.setIfInBounds (classNumber (s.chan p).slotClass) _)[_]?.getD 0 = _
      rw [Vector.getElem?_setIfInBounds, if_neg]
      revert hc
      generalize (s.chan p).slotClass = k
      cases k <;> cases c <;> simp [classNumber]
  · intro s p hm hq hp
    have hserved : (s.chan p).served = none := by
      unfold Channel.served
      simp [hq]
    have hdisp : (s.chan p).dispatch = s.chan p := by unfold Channel.dispatch; rw [hserved]
    have hself : s.setChan p (s.chan p) = s := by
      unfold State.setChan State.chan
      congr 1
      ext i hi
      simp only [Vector.getElem_setIfInBounds]
      split <;> simp_all
    refine congrArg Host.Outcome.next ((if_pos hm).trans ?_)
    unfold State.dispatch
    rw [hserved]
    dsimp only
    unfold State.modChan
    rw [hdisp, hself]

/-! ## The service frame's request (R100, R101) -/

/-- A change of each of several channels, one after another. -/
theorem State.each_modChan_frameOnly (f : Channel → Channel) (ps : List Nat) (s : State) :
    s.each ps (fun s p => s.modChan p f) = { s with chans := (s.each ps fun s p => s.modChan p f).chans } := by
  induction ps generalizing s with
  | nil => rfl
  | cons p ps ih => exact ih (s.modChan p f)

theorem State.chan_each_modChan {f : Channel → Channel} (hf : ∀ c, f (f c) = f c) (ps : List Nat) (s : State) {q : Nat}
    (hq : q < 4) : (s.each ps fun s p => s.modChan p f).chan q = if q ∈ ps then f (s.chan q) else s.chan q := by
  induction ps generalizing s with
  | nil => rfl
  | cons p ps ih =>
    refine (ih (s.modChan p f)).trans ?_
    by_cases h : q = p
    · subst h
      rw [State.chan_modChan_same hq, if_pos List.mem_cons_self, hf, ite_self]
    · rw [State.chan_modChan_other h]
      simp [h]

theorem State.chan_each_modChan_other {f : Channel → Channel} (ps : List Nat) (s : State) {q : Nat} (hq : q ∉ ps) :
    (s.each ps fun s p => s.modChan p f).chan q = s.chan q := by
  induction ps generalizing s with
  | nil => rfl
  | cons p ps ih =>
    have hne : q ≠ p := fun h => hq (h ▸ List.mem_cons_self)
    exact (ih (s.modChan p f) fun h => hq (List.mem_cons_of_mem _ h)).trans (State.chan_modChan_other hne _)

theorem frameOf_of_classes {f : Nat} {classes : List Nat} {cs : List Cls} (h : (classes.take f).map classOf = cs.map some)
    (hl : cs.length = f) : frameOf f classes = some cs := by
  have hcs : (classes.take f).filterMap classOf = cs := by
    have := congrArg (List.filterMap id) h
    rwa [List.filterMap_map, List.filterMap_map, Function.id_comp, Function.id_comp, List.filterMap_some] at this
  unfold frameOf
  dsimp only
  rw [hcs, if_pos hl]

theorem frameOf_of_bad {f : Nat} {classes : List Nat} (h : ∃ c ∈ classes.take f, 4 < c) : frameOf f classes = none := by
  obtain ⟨c, hc, hbig⟩ := h
  have hnone : classOf c = none := by
    obtain ⟨d, rfl⟩ := Nat.exists_eq_add_of_le' hbig
    rfl
  have hlt : ((classes.take f).filterMap classOf).length < (classes.take f).length :=
    List.length_filterMap_lt_length_iff_exists.2 ⟨c, hc, by rw [hnone]⟩
  unfold frameOf
  exact if_neg fun he => by
    rw [he] at hlt
    exact Nat.not_lt.2 (List.length_take_le f classes) hlt

theorem exec_setServiceFrame (s : State) (tag sel f : Nat) (classes : List Nat) : exec (.setServiceFrame tag sel f classes) s =
    .next ((s.taken (.setServiceFrame tag sel f classes)).setServiceFrame tag sel f classes) := rfl

theorem State.setServiceFrame_of_frame {s : State} {tag sel f : Nat} {classes : List Nat} {cs : List Cls}
    (hf : s.ctm.state ≠ .failed) (hs : sel ≤ 4) (hcs : frameOf (max 4 (min 32 f)) classes = some cs) :
    s.setServiceFrame tag sel f classes =
      (s.each (if sel = 4 then List.range 4 else [sel]) fun s p => s.modChan p fun c =>
        { c with frame := cs, position := 0 }).answer tag kindSetServiceFrame .ok [⟨1, max 4 (min 32 f)⟩] := by
  unfold State.setServiceFrame
  rw [if_neg hf, if_neg (Nat.not_lt.2 hs)]
  dsimp only
  rw [show frameOf (clamp 4 32 f) classes = some cs from hcs]
  rfl

theorem State.setServiceFrame_of_bad {s : State} {tag sel f : Nat} {classes : List Nat} (hf : s.ctm.state ≠ .failed)
    (h : 4 < sel ∨ frameOf (max 4 (min 32 f)) classes = none) :
    s.setServiceFrame tag sel f classes = s.refuse tag kindSetServiceFrame .badArgument := by
  unfold State.setServiceFrame
  rw [if_neg hf]
  by_cases hs : 4 < sel
  · rw [if_pos hs]
  · rw [if_neg hs]
    dsimp only
    rw [show frameOf (clamp 4 32 f) classes = none from h.resolve_left hs]

/-- Settles O46. -/
theorem serviceFrameIsSet : Obligations.ServiceFrameIsSet := by
  unfold Obligations.ServiceFrameIsSet
  refine ⟨?_, ?_⟩
  · intro s tag sel f classes cs hf hsel hclasses hlen
    have hset := State.setServiceFrame_of_frame (s := s.taken (.setServiceFrame tag sel f classes)) (tag := tag) hf hsel
      (frameOf_of_classes hclasses hlen)
    generalize hps : (if sel = 4 then List.range 4 else [sel]) = ps at hset
    rw [State.each_modChan_frameOnly, State.answer_of_handedOver (l := s.lnk) (by rfl)] at hset
    refine ⟨_, (exec_setServiceFrame ..).trans (congrArg _ hset), fun p hp hsp => ?_, fun p h4 hsp => ?_, rfl, rfl⟩
    · refine (State.chan_each_modChan (f := fun c : Channel => { c with frame := cs, position := 0 }) (fun _ => rfl) ps _
        hp).trans (if_pos ?_)
      rw [← hps]
      rcases hsp with rfl | rfl
      · simpa using hp
      · split
        · simpa using hp
        · exact List.mem_singleton_self _
    · refine State.chan_each_modChan_other ps _ ?_
      rw [← hps, if_neg h4, List.mem_singleton]
      exact fun h => hsp h.symm
  · intro s tag sel f classes hf hbad
    have hset := State.setServiceFrame_of_bad (s := s.taken (.setServiceFrame tag sel f classes)) (tag := tag) hf
      (hbad.imp id frameOf_of_bad)
    exact (exec_setServiceFrame ..).trans (congrArg _ (hset.trans (State.taken_refuse ..)))

/-! ## What a submission leaves of the members (R97 to R99) -/

/-- Every channel keeps its member record and its bay. -/
def State.sameMembers (s t : State) : Prop := ∀ q, (t.chan q).member = (s.chan q).member ∧ (t.chan q).bay = (s.chan q).bay

theorem State.sameMembers.refl (s : State) : s.sameMembers s := fun _ => ⟨rfl, rfl⟩

theorem State.sameMembers.trans {s t u : State} (h : s.sameMembers t) (h' : t.sameMembers u) : s.sameMembers u :=
  fun q => ⟨(h' q).1.trans (h q).1, (h' q).2.trans (h q).2⟩

theorem State.sameMembers.member {s t : State} (h : s.sameMembers t) (q : Nat) : t.member q = s.member q :=
  congrArg Member.state (h q).1

theorem State.sameMembers_modChan {s : State} {p : Nat} {f : Channel → Channel}
    (hf : ∀ c, (f c).member = c.member ∧ (f c).bay = c.bay) : s.sameMembers (s.modChan p f) := by
  intro q
  by_cases h : q = p ∧ p < 4
  · obtain ⟨rfl, hp⟩ := h
    rw [State.chan_modChan_same hp]
    exact hf _
  · have hchan : (s.modChan p f).chan q = s.chan q :=
      (State.chan_setChan ..).trans (if_neg fun hc => h ⟨hc.1.symm, hc.2⟩)
    rw [hchan]
    exact ⟨rfl, rfl⟩

theorem Channel.enqueue_keeps (c : Channel) (o : Op) : (c.enqueue o).member = c.member ∧ (c.enqueue o).bay = c.bay := by
  unfold Channel.enqueue
  split <;> exact ⟨rfl, rfl⟩

theorem State.sameMembers_idleUpdate (s : State) (p : Nat) : s.sameMembers (s.idleUpdate p) := by
  unfold State.idleUpdate
  dsimp only
  split
  · exact State.sameMembers_modChan (f := fun c => { c with idleReported := true }) fun _ => ⟨rfl, rfl⟩
  · split
    · exact State.sameMembers_modChan (f := fun c => { c with idleReported := false }) fun _ => ⟨rfl, rfl⟩
    · exact .refl s

theorem State.sameMembers_enqueue (s : State) (p : Nat) (o : Op) : s.sameMembers (s.enqueue p o) :=
  (State.sameMembers_modChan fun c => c.enqueue_keeps o).trans (State.sameMembers_idleUpdate _ p)

theorem State.chan_giveBack (s : State) (p q : Nat) (o : Op) (r : OpResult) : (s.giveBack p o r).chan q = s.chan q := by
  obtain ⟨rs, h⟩ := s.giveBack_frame p o r
  rw [h]; rfl

theorem State.sameMembers_giveBack (s : State) (p : Nat) (o : Op) (r : OpResult) : s.sameMembers (s.giveBack p o r) :=
  fun q => by rw [State.chan_giveBack]; exact ⟨rfl, rfl⟩

theorem State.sameMembers_arrive (s : State) (p : Nat) (o : Op) : s.sameMembers (s.arrive p o) := by
  have hasked : s.sameMembers ((s.enqueue p o).modChan p fun c => { c with spinupAsked := true }) :=
    (s.sameMembers_enqueue p o).trans (State.sameMembers_modChan fun _ => ⟨rfl, rfl⟩)
  unfold State.arrive
  split
  · exact s.sameMembers_giveBack _ _ _
  · split
    · exact s.sameMembers_giveBack _ _ _
    · exact s.sameMembers_giveBack _ _ _
    · exact hasked
    · exact hasked
    · exact s.sameMembers_enqueue _ _

theorem State.sameMembers_submit (s : State) (p : Nat) (o : Op) : s.sameMembers (s.submit p o) := by
  unfold State.submit
  dsimp only
  split
  · exact s.sameMembers_giveBack _ _ _
  · split
    · exact State.sameMembers_modChan fun _ => ⟨rfl, rfl⟩
    · exact s.sameMembers_arrive _ _

theorem State.sameMembers_submitAll (os : List (Nat × Op)) (s : State) : s.sameMembers (s.submitAll os) := by
  induction os generalizing s with
  | nil => exact .refl s
  | cons o os ih => exact (s.sameMembers_submit o.1 o.2).trans (ih _)

/-- A channel whose member is gone and behind which nobody waits takes no operation (R98, R99). -/
theorem State.chan_submit_of_gone {s : State} {p : Nat} (hm : s.member p = .failed) (hw : ∀ k, (s.chan p).waitingFor k = [])
    (q : Nat) (o : Op) : (s.submit q o).chan p = s.chan p := by
  unfold State.submit
  dsimp only
  split
  · exact State.chan_giveBack ..
  · split
    · rename_i r hr
      have hwait := List.find?_some hr
      refine State.chan_modChan_other (fun h => ?_) _
      subst h
      rw [hw] at hwait
      exact Bool.false_ne_true hwait
    · unfold State.arrive
      split
      · exact State.chan_giveBack ..
      · by_cases h : q = p
        · subst h
          rw [hm]
          exact State.chan_giveBack ..
        · have hq : p ≠ q := fun hc => h hc.symm
          split
          · exact State.chan_giveBack ..
          · exact State.chan_giveBack ..
          · exact (State.chan_modChan_other hq _).trans (State.chan_enqueue_other hq _)
          · exact (State.chan_modChan_other hq _).trans (State.chan_enqueue_other hq _)
          · exact State.chan_enqueue_other hq _

theorem State.chan_submitAll_of_gone {p : Nat} (os : List (Nat × Op)) {s : State} (hm : s.member p = .failed)
    (hw : ∀ k, (s.chan p).waitingFor k = []) : (s.submitAll os).chan p = s.chan p := by
  induction os generalizing s with
  | nil => rfl
  | cons o os ih =>
    have hchan := State.chan_submit_of_gone hm hw o.1 o.2
    refine (ih (s := s.submit o.1 o.2) ((congrArg (fun c : Channel => c.member.state) hchan).trans hm)
      fun k => ?_).trans hchan
    rw [hchan]
    exact hw k

theorem State.giveBackAll_frame (p : Nat) (os : List Op) (r : OpResult) (s : State) :
    ∃ rs, s.giveBackAll p os r = { s with returns := rs } := by
  induction os generalizing s with
  | nil => exact ⟨s.returns, rfl⟩
  | cons o os ih =>
    obtain ⟨rs, h⟩ := s.giveBack_frame p o r
    obtain ⟨rs', h'⟩ := ih (s.giveBack p o r)
    exact ⟨rs', h'.trans (by rw [h])⟩

theorem Channel.emptied_waitingFor (c : Channel) (k : Cls) : c.emptied.waitingFor k = [] := by
  unfold Channel.emptied Channel.waitingFor
  cases k <;> rfl

theorem Channel.allQueued_of_emptied {c d : Channel} (hq : d.queues = c.emptied.queues) (hw : d.waiting = c.emptied.waiting) :
    d.allQueued = [] := by
  unfold Channel.allQueued Channel.queue Channel.waitingFor
  rw [hq, hw]
  rfl

/-! ## A member of a calm array fails (R69, R105) -/

/-- A channel as its member's failure leaves it (R105). -/
def Channel.failing (c : Channel) (cause : FailCause) : Channel :=
  { c.emptied with
    member := { c.member with state := .failed, cause := some cause }, current := none, spinupAsked := false }

/-- The operation in progress at a failing member given back, unless it is the standby operation (R105). -/
def State.currentGone (s : State) (p : Nat) (current : Option Op) : State :=
  match current with
  | some o => if o.kind = OpKind.standby then s else s.giveBack p o .memberFailed
  | none => s

theorem State.currentGone_frame (s : State) (p : Nat) (current : Option Op) :
    ∃ rs, s.currentGone p current = { s with returns := rs } := by
  unfold State.currentGone
  split
  · split
    · exact ⟨s.returns, rfl⟩
    · exact s.giveBack_frame p _ _
  · exact ⟨s.returns, rfl⟩

/-- What a failing member's channel gives back, and what its stages go on with (R99, R105). -/
def State.memberGone (s : State) (p : Nat) (cause : FailCause) : State :=
  let c := s.chan p
  let s := (s.modChan p fun c => c.failing cause).currentGone p c.current
  (s.giveBackAll p c.allQueued .memberFailed).submitAll c.heldBack

theorem State.failMember_eq {s : State} {p : Nat} {cause : FailCause} (hf : s.member p ≠ .failed) (ha : s.member p ≠ .absent) :
    s.failMember p cause = ((((((s.memberGone p cause).onPwc fun w => (w.spinDropped p).standbyDropped p).noticeMember p).idleUpdate
      p).memberBayOff p).spinChanged.adoptionAbort p cause |>.setupLoses p).memberReported := by
  unfold State.failMember
  rw [if_neg (fun h => h.elim hf ha)]
  rfl

theorem State.memberGone_spec {s : State} {p : Nat} (hp : p < 4) (cause : FailCause) :
    (∃ ch it sa rt, s.memberGone p cause = { s with
      chans := ch, pwc := { s.pwc with idleTimers := it, standbyAsks := sa }, returns := rt }) ∧
    (s.memberGone p cause).chan p = (s.chan p).failing cause ∧
    ∀ q, q ≠ p → (s.memberGone p cause).member q = s.member q := by
  unfold State.memberGone
  dsimp only
  generalize hv : (s.modChan p fun c => c.failing cause) = v
  obtain ⟨rs, hrs⟩ := v.currentGone_frame p (s.chan p).current
  rw [hrs]
  obtain ⟨rs', hrs'⟩ := State.giveBackAll_frame p (s.chan p).allQueued .memberFailed { v with returns := rs }
  rw [hrs']
  have hchan : v.chan p = (s.chan p).failing cause := by rw [← hv]; exact State.chan_modChan_same hp _
  refine ⟨?_, ?_, fun q hq => ?_⟩
  · obtain ⟨ch, it, sa, rt, h⟩ := ({ v with returns := rs' } : State).submitAll_frame (s.chan p).heldBack
    rw [h, ← hv]
    exact ⟨ch, it, sa, rt, rfl⟩
  · refine (State.chan_submitAll_of_gone _ (s := { v with returns := rs' }) ?_ fun k => ?_).trans hchan
    · exact congrArg (fun c : Channel => c.member.state) hchan
    · rw [show ({ v with returns := rs' } : State).chan p = _ from hchan]
      exact Channel.emptied_waitingFor (s.chan p) k
  · refine ((State.sameMembers_submitAll _ _).member q).trans ?_
    refine congrArg (fun c : Channel => c.member.state) (a₁ := v.chan q) (a₂ := s.chan q) ?_
    rw [← hv]
    exact State.chan_modChan_other hq _

theorem State.positions_lt {s : State} {p : Nat} (h : p ∈ s.positions) : p < 4 := by
  have hlt : p < s.nMembers := List.mem_range.1 h
  unfold State.nMembers at hlt
  cases ha : s.arr with
  | none => rw [ha] at hlt; exact absurd hlt (Nat.not_lt_zero p)
  | some a =>
    rw [ha] at hlt
    have hm : a.layout.members ≤ 4 := by cases a.layout <;> decide
    exact Nat.lt_of_lt_of_le hlt hm

theorem filter_range_of_one {n p : Nat} (hp : p ∈ List.range n) {f : Nat → Bool} (hf : ∀ q ∈ List.range n, f q = decide (q = p)) :
    (List.range n).filter f = [p] := by
  rw [List.filter_congr hf, List.filter_eq, List.Nodup.count List.nodup_range, if_pos hp]
  rfl

/-- The array state that R69 derives when one member of an otherwise ACTIVE array has failed. -/
theorem State.derived_of_one_failed {s : State} {p : Nat} (ha : s.igu.adoption = none) (hp : p ∈ s.positions)
    (hf : s.member p = .failed) (ho : ∀ q ∈ s.positions, q ≠ p → s.member q = .active) : s.derived = .degraded := by
  have hadopt : ∀ q, s.adopting q = false := fun q => by unfold State.adopting; rw [ha]; rfl
  have hlost : (s.positions.filter fun q => s.lostPosition q) = [p] := filter_range_of_one hp fun q hq => by
    unfold State.lostPosition
    by_cases h : q = p
    · rw [h, hf]; simp
    · rw [ho q hq h, hadopt]; simp [h]
  have hreb : (s.positions.filter fun q => s.rebuildingPosition q) = [] := List.filter_eq_nil_iff.2 fun q hq => by
    unfold State.rebuildingPosition
    by_cases h : q = p
    · rw [h, hf]; exact Bool.false_ne_true
    · rw [ho q hq h]; exact Bool.false_ne_true
  unfold State.derived
  dsimp only
  rw [hlost, hreb]
  rfl

theorem State.spinChanged_of_calm {s : State} (hq : s.pwc.spinQueue = []) (hl : s.pwc.limit ≤ s.pwc.limitAsked) :
    s.spinChanged = s := by
  have hfall : s.limitFalls = s := if_neg fun h => Nat.lt_irrefl _ (Nat.lt_of_lt_of_le h.2 hl)
  unfold State.spinChanged
  rw [hfall]
  unfold State.spinTest
  rw [hq]

theorem State.checkStep5_of_run {s : State} (h : s.pwc.box = .run) : s.checkStep5 = s :=
  if_neg fun hc => by rw [h] at hc; exact BoxState.noConfusion hc.1

theorem State.scrubTest_of_none {s : State} (h : s.igu.step = none) : s.scrubTest = s := by
  unfold State.scrubTest; rw [h]

theorem State.memberReported_of_settled {s : State} (hs : s.igu.step = none) (hb : s.pwc.box = .run)
    (hd : s.ctm.state.attached = true → s.derived = s.ctm.state) : s.memberReported = s := by
  have hder : s.derive = s := by
    unfold State.derive
    split
    · rename_i h
      dsimp only
      rw [if_pos (hd h)]
    · rfl
  unfold State.memberReported
  rw [hder, State.scrubTest_of_none hs, State.checkStep5_of_run hb]

theorem State.memberReported_of_degraded {s : State} (hs : s.igu.step = none) (hb : s.pwc.box = .run)
    (hn : s.ctm.state = .normal) (hd : s.derived = .degraded) :
    s.memberReported = (s.onCtm fun m => { m with state := .degraded }).noticeArray .state := by
  have hder : s.derive = (s.onCtm fun m => { m with state := .degraded }).noticeArray .state := by
    unfold State.derive
    rw [hn, if_pos (by rfl)]
    dsimp only
    rw [hd, if_neg (by exact ArrayState.noConfusion), if_neg (by exact ArrayState.noConfusion)]
  unfold State.memberReported
  rw [hder, State.scrubTest_of_none (by exact hs), State.checkStep5_of_run (by exact hb)]

/-! ## Notices raised (R202) -/

theorem Lnk.isSome_raised_array (l : Lnk) (fs : List Field) : (l.raised slotArray fs).notices[2].isSome = true := by
  simp [Lnk.raised, slotArray]

theorem Lnk.isSome_raised_same (l : Lnk) {k : Nat} (fs : List Field) (hk : k < 37) :
    ((l.raised k fs).notices[k]?.getD none).isSome = true := by
  simp [Lnk.raised, hk]

theorem Lnk.isSome_raised (l : Lnk) {k slot : Nat} (fs : List Field) (h : (l.notices[k]?.getD none).isSome = true) :
    ((l.raised slot fs).notices[k]?.getD none).isSome = true := by
  simp only [Lnk.raised, Vector.getElem?_setIfInBounds]
  split
  · split <;> simp_all
  · exact h

/-- What follows the failure of a member of a calm array up to the report of it: the channel is empty, its bay is off, the member
is noticed, and no spin-up, adoption, forming or attach is touched (R105). -/
theorem State.failMember_of_calmBut {s : State} {p : Nat} (h : s.calmBut p) (cause : FailCause) : ∃ ch pw rt fs,
    s.failMember p cause =
      ({ s with chans := ch, pwc := pw, returns := rt, lnk := s.lnk.raised (slotMember p) fs } : State).memberReported ∧
    pw.box = s.pwc.box ∧ pw.powerFaults = s.pwc.powerFaults ∧ pw.bays = (s.memberBayOff p).pwc.bays ∧
    (∃ b, ({ s with chans := ch } : State).chan p = { (s.chan p).failing cause with idleReported := b }) ∧
    ∀ q, q ≠ p → ({ s with chans := ch } : State).member q = s.member q := by
  obtain ⟨_, _, hform, hattach, _, hadopt, _, hspin, hlimit, hp, _, hf, ha⟩ := h
  have hp4 := State.positions_lt hp
  rw [State.failMember_eq hf ha]
  obtain ⟨⟨ch, it, sa, rt, hgone⟩, hchan, hmembers⟩ := State.memberGone_spec (s := s) hp4 cause
  generalize hu : ((s.memberGone p cause).onPwc fun w => (w.spinDropped p).standbyDropped p).noticeMember p = u
  have huchan : ∀ q, u.chan q = (s.memberGone p cause).chan q := fun q => by rw [← hu]; rfl
  obtain ⟨fs, hueq⟩ : ∃ fs, u = { s with
      chans := ch, pwc := ({ s.pwc with idleTimers := it, standbyAsks := sa }.spinDropped p).standbyDropped p,
      returns := rt, lnk := s.lnk.raised (slotMember p) fs } := by
    rw [← hu, hgone]; exact ⟨_, rfl⟩
  obtain ⟨b, hidle⟩ := State.chan_idleUpdate_same (s := u) hp4
  have hidles := State.sameMembers_idleUpdate u p
  obtain ⟨ch', it', sa', hidleEq⟩ := u.idleUpdate_frame p
  rw [huchan, hchan] at hidle
  generalize hv : u.idleUpdate p = v at hidle hidles hidleEq
  have hbay : v.memberBayOff p = { v with pwc := { v.pwc with bays := (s.memberBayOff p).pwc.bays } } := by
    have hb : (v.chan p).bay = (s.chan p).bay := by rw [hidle]; rfl
    unfold State.memberBayOff
    rw [hb]
    cases (s.chan p).bay with
    | none => rw [hidleEq, hueq]; rfl
    | some c => rw [hidleEq, hueq]; rfl
  rw [hbay]
  rw [State.spinChanged_of_calm (by rw [hidleEq, hueq]; exact (congrArg _ hspin).trans rfl) (by rw [hidleEq, hueq]; exact hlimit)]
  have hab : ∀ w : State, w.igu = s.igu → w.adoptionAbort p cause = w := fun w hw => by
    unfold State.adoptionAbort; rw [hw, hadopt]
  have hset : ∀ w : State, w.ckr = s.ckr → w.setupLoses p = w := fun w hw => by
    unfold State.setupLoses; rw [hw, hform, hattach]
  rw [hab _ (by rw [hidleEq, hueq]), hset _ (by rw [hidleEq, hueq])]
  refine ⟨ch', { v.pwc with bays := (s.memberBayOff p).pwc.bays }, rt, fs, ?_, ?_, ?_, rfl, ⟨b, ?_⟩, fun q hq => ?_⟩
  · rw [hidleEq, hueq]
  · rw [hidleEq, hueq]; rfl
  · rw [hidleEq, hueq]; rfl
  · rw [← hidle, hidleEq]; rfl
  · refine Eq.trans ?_ (hmembers q hq)
    refine Eq.trans ?_ (congrArg (fun c : Channel => c.member.state) (huchan q))
    refine Eq.trans ?_ (hidles.member q)
    rw [hidleEq]; rfl

/-- The failure of the one member at a position of a calm array: it degrades the array and touches no other member (R69, R105). -/
theorem State.failMember_memberLost {s : State} {p : Nat} (h : s.calmBut p) (cause : FailCause) :
    MemberLost s (s.failMember p cause) p cause ∧ (s.failMember p cause).tables = s.tables ∧
    (s.failMember p cause).mem = s.mem ∧ (s.failMember p cause).pwc.powerFaults = s.pwc.powerFaults ∧
    (s.failMember p cause).pwc.bays = (s.memberBayOff p).pwc.bays := by
  obtain ⟨ch, pw, rt, fs, hfail, hbox, hfaults, hbays, ⟨b, hchan⟩, hothers⟩ := State.failMember_of_calmBut h cause
  obtain ⟨hnormal, hrun, _, _, hstep, hadopt, _, _, _, hp, hactive, _, _⟩ := h
  have hmember : ({ s with chans := ch } : State).member p = .failed := congrArg (fun c : Channel => c.member.state) hchan
  have hderived : ({ s with chans := ch, pwc := pw, returns := rt, lnk := s.lnk.raised (slotMember p) fs } : State).derived =
      .degraded := State.derived_of_one_failed hadopt hp hmember fun q hq hne => (hothers q hne).trans (hactive q hq hne)
  rw [hfail, State.memberReported_of_degraded (by exact hstep) (hbox.trans hrun) (by exact hnormal) hderived]
  refine ⟨⟨⟨hmember, ?_⟩, ⟨?_, ?_⟩, ⟨rfl, ?_⟩, ?_, hothers⟩, rfl, rfl, hfaults, hbays⟩
  · exact congrArg (fun c : Channel => c.member.cause) hchan
  · have hq : (({ s with chans := ch } : State).chan p).allQueued = [] := by
      rw [hchan]; exact Channel.allQueued_of_emptied (c := s.chan p) rfl rfl
    exact hq
  · exact congrArg Channel.current hchan
  · exact Lnk.isSome_raised_array _ _
  · exact Lnk.isSome_raised (s.lnk.raised (slotMember p) fs) _
      (Lnk.isSome_raised_same s.lnk fs (Nat.lt_of_lt_of_le (Nat.add_lt_add_left (State.positions_lt hp) 3) (by decide)))

/-! ## Operations that end (R103, R104) -/

theorem State.opEnds_of_ok {s : State} {p : Nat} {o : Op} {bs : List Byte} (ho : (s.chan p).current = some o)
    (hk : o.kind = .read) : s.opEnds p (.ok bs) =
      ((s.modChan p fun c => { c with current := none }).giveBack p o (.ok (returnedBytes o bs))).idleUpdate p := by
  unfold State.opEnds
  rw [ho]
  dsimp only
  rw [hk]

theorem State.opEnds_of_error {s : State} {p : Nat} {o : Op} (ho : (s.chan p).current = some o)
    (hk : o.kind = .read ∨ o.kind = .write ∨ o.kind = .labelRead) : s.opEnds p .mediaError = s.opFailed p o := by
  unfold State.opEnds
  rw [ho]
  dsimp only
  rcases hk with hk | hk | hk <;> rw [hk]

theorem State.opFailed_of_first {s : State} {p : Nat} {o : Op} (hr : o.retry = false) (hf : s.ctm.state ≠ .failed) :
    s.opFailed p o = s.retryOp p o := if_pos ⟨hr, hf⟩

theorem State.giveBack_of_awaited {s : State} {p : Nat} {o : Op} {r : OpResult} (h : jobAwaited o.job = true) :
    s.giveBack p o r = { s with returns := s.returns ++ [{ position := p, op := o, result := r }] } := if_pos h

theorem State.chan_retryOp_same {s : State} {p : Nat} (hp : p < 4) (o : Op) : (s.retryOp p o).chan p =
    { (s.chan p).setQueue o.cls ({ o with retry := true } :: (s.chan p).queue o.cls) with
      current := none, retries := tallyUp 12 (s.chan p).retries } := by
  unfold State.retryOp State.countRetry
  rw [State.chan_modChan_same hp, State.chan_modChan_same hp]
  rfl

theorem State.chan_retryOp_other {s : State} {p q : Nat} (h : q ≠ p) (o : Op) : (s.retryOp p o).chan q = s.chan q :=
  (State.chan_modChan_other h _).trans (State.chan_modChan_other h _)

theorem State.retryOp_frame (s : State) (p : Nat) (o : Op) : s.retryOp p o = { s with chans := (s.retryOp p o).chans } := rfl

theorem State.bay_of_bays {s t : State} (h : t.pwc.bays = s.pwc.bays) (b : Nat) : t.bay b = s.bay b := by
  unfold State.bay; rw [h]

theorem State.memberBayOff_of_bay {s : State} {p b : Nat} (h : (s.chan p).bay = some b) : s.memberBayOff p = s.bayOff b := by
  unfold State.memberBayOff; rw [h]

theorem State.bay_bayOff_same {s : State} {b : Nat} (hb : b < 4) :
    (s.bayOff b).bay b = { s.bay b with enable := false, window := false } :=
  (State.bay_setBay ..).trans (if_pos ⟨rfl, hb⟩)

theorem State.calmBut_of_calm {s : State} {p : Nat} (h : s.calm) (hl : s.pwc.limit ≤ s.pwc.limitAsked) (hp : p ∈ s.positions) :
    s.calmBut p := by
  obtain ⟨hn, hb, hform, hattach, hstep, hadopt, hreb, hspin, hall⟩ := h
  refine ⟨hn, hb, hform, hattach, hstep, hadopt, hreb, hspin, hl, hp, fun q hq _ => hall q hq, ?_, ?_⟩
  · rw [hall p hp]; exact MemberState.noConfusion
  · rw [hall p hp]; exact MemberState.noConfusion

/-- Settles O43. -/
theorem operationsEndOrFail : Obligations.OperationsEndOrFail := by
  unfold Obligations.OperationsEndOrFail
  refine ⟨?_, ?_, ?_, ?_⟩
  · intro s p o bs hp ho hk hlen hj
    have hret : returnedBytes o bs = bs := by
      unfold returnedBytes
      rw [hk]
      exact padTo_of_length hlen
    have hexec : exec (.operationComplete p ⟨(s.chan p).command, .ok bs⟩) s = .next _ :=
      congrArg Host.Outcome.next ((if_pos rfl).trans (State.opEnds_of_ok ho hk))
    rw [hret, State.giveBack_of_awaited hj] at hexec
    generalize hu : ({ (s.modChan p fun c => { c with current := none }) with
      returns := (s.modChan p fun c => { c with current := none }).returns ++
        [{ position := p, op := o, result := .ok bs }] } : State) = u at hexec
    have hchan : u.chan p = { s.chan p with current := none } := by
      rw [← hu]; exact State.chan_modChan_same (s := s) hp fun c => { c with current := none }
    obtain ⟨b, hidle⟩ := State.chan_idleUpdate_same (s := u) hp
    obtain ⟨ch, it, sa, hframe⟩ := u.idleUpdate_frame p
    refine ⟨_, hexec, ?_, ?_, ?_, fun q hq => ?_, ?_, ?_⟩
    · rw [hidle, hchan]
    · rw [hidle, hchan]
    · rw [hframe, ← hu]; rfl
    · refine (State.chan_idleUpdate_other hq).trans ?_
      rw [← hu]; exact State.chan_modChan_other (s := s) hq fun c => { c with current := none }
    · rw [hframe, ← hu]; rfl
    · rw [hframe, ← hu]; rfl
  · intro s p o c hp ho hk hr hf hc
    have hfirst := (State.opEnds_of_error ho hk).trans (State.opFailed_of_first hr hf)
    have hexec : exec c s = .next (s.retryOp p o) := by
      rcases hc with rfl | rfl
      · exact congrArg Host.Outcome.next hfirst
      · exact congrArg Host.Outcome.next ((if_pos rfl).trans hfirst)
    refine ⟨_, hexec, ?_, ?_, ?_, ?_, rfl, fun q hq => State.chan_retryOp_other hq o, s.retryOp_frame p o⟩
    all_goals rw [State.chan_retryOp_same hp]
    · exact (Channel.queue_setQueue ..).trans (if_pos rfl)
    · rfl
  · intro s p r hr
    exact congrArg Host.Outcome.next (if_neg fun h => hr h.symm)
  · intro s p b cause hp hcalm hpos hbay hb hlimit
    obtain ⟨⟨⟨hfailed, hcause⟩, ⟨hqueued, hcurrent⟩, ⟨hdeg, harray⟩, hnoticed, hothers⟩, htables, hmem, _, hbays⟩ :=
      State.failMember_memberLost (State.calmBut_of_calm hcalm hlimit hpos) cause
    have hoff : (s.failMember p cause).bay b = { s.bay b with enable := false, window := false } := by
      refine (State.bay_of_bays hbays b).trans ?_
      rw [State.memberBayOff_of_bay hbay]
      exact State.bay_bayOff_same hb
    exact ⟨_, rfl, hfailed, hcause, hqueued, hcurrent, by rw [hoff], by rw [hoff], hdeg, harray, hnoticed, hothers, htables,
      hmem⟩

end Sys2Proof.Machine

/-! # Proofs: Bays, standby and spin-up -/

namespace Sys2Proof.Machine

/-! ## Bay power and presence (R110 to R112) -/

theorem Line.follow_eq (l : Line) (x : Bool) : l.follow x = { samples := (x, x, x), level := x } := by
  obtain ⟨⟨a, b, c⟩, v⟩ := l
  cases x <;> cases v <;> rfl

theorem State.bay_setBay_same {s : State} {b : Nat} (hb : b < 4) (v : Bay) : (s.setBay b v).bay b = v :=
  (State.bay_setBay ..).trans (if_pos ⟨rfl, hb⟩)

theorem State.bay_setBay_other {s : State} {b d : Nat} (h : d ≠ b) (v : Bay) : (s.setBay b v).bay d = s.bay d :=
  (State.bay_setBay ..).trans (if_neg fun hc => h hc.1.symm)

theorem State.setBay_setBay (s : State) (b : Nat) (v w : Bay) : (s.setBay b v).setBay b w = s.setBay b w := by
  unfold State.setBay
  simp

theorem State.chan_of_positionOfBay {s : State} {b p : Nat} (h : s.positionOfBay b = some p) :
    p < 4 ∧ (s.chan p).bay = some b :=
  ⟨List.mem_range.1 (List.mem_of_find?_eq_some h), by simpa using List.find?_some h⟩

/-- PWC sends the start command to the drive that spins up at a position (R110). -/
def Pwc.commanded (w : Pwc) (p : Nat) : Pwc :=
  let begun := (w.spinning[p]?.getD none).map fun e => { e with commanded := true }
  { w with spinning := w.spinning.setIfInBounds p begun }

/-- A switch-on that is confirmed at the bay of a member that spins up (R110). -/
theorem State.switchOnConfirmed_of_bound {s : State} {b p : Nat} (hp : s.positionOfBay b = some p) :
    s.switchOnConfirmed b = (s.setBay b { s.bay b with window := false }).onPwc fun w => w.commanded p := by
  unfold State.switchOnConfirmed
  dsimp only
  rw [show (s.setBay b { s.bay b with window := false }).positionOfBay b = some p from hp]
  rfl

/-- A bay whose switch-on is confirmed, in whatever state its sense line has come to. -/
theorem State.confirmed_spec {s : State} {b p : Nat} {e : Spinning} {v : Bay} (hb : b < 4) (hp : s.positionOfBay b = some p)
    (hs : s.pwc.spinning[p]? = some (some e)) (hl : v.sense.level = true) (he : v.enable = (s.bay b).enable) (c : Instr)
    (hexec : exec c s = .next ((s.setBay b v).switchOnConfirmed b)) :
    Completes c s fun t =>
      (t.bay b).window = false ∧ (t.bay b).sense.level = true ∧ (t.bay b).enable = (s.bay b).enable ∧
      (∀ d, d ≠ b → t.bay d = s.bay d) ∧ t.pwc.spinning[p]? = some (some { e with commanded := true }) ∧
      (∀ q, q ≠ p → t.pwc.spinning[q]? = s.pwc.spinning[q]?) ∧ t = { s with pwc := t.pwc } := by
  obtain ⟨hp4, _⟩ := State.chan_of_positionOfBay hp
  rw [State.switchOnConfirmed_of_bound (s := s.setBay b v) (by exact hp), State.bay_setBay_same hb, State.setBay_setBay] at hexec
  have hbay : ∀ d, ((s.setBay b { v with window := false }).onPwc fun w => w.commanded p).bay d =
      (s.setBay b { v with window := false }).bay d := fun _ => rfl
  refine ⟨_, hexec, ?_, ?_, ?_, fun d hd => ?_, ?_, fun q hq => ?_, rfl⟩
  · rw [hbay, State.bay_setBay_same hb]
  · rw [hbay, State.bay_setBay_same hb]; exact hl
  · rw [hbay, State.bay_setBay_same hb]; exact he
  · rw [hbay]; exact State.bay_setBay_other hd _
  · show (s.pwc.spinning.setIfInBounds p ((s.pwc.spinning[p]?.getD none).map _))[p]? = _
    rw [hs, Vector.getElem?_setIfInBounds, if_pos rfl, if_pos hp4]
    rfl
  · show (s.pwc.spinning.setIfInBounds p _)[q]? = _
    rw [Vector.getElem?_setIfInBounds, if_neg (Ne.symm hq)]

theorem State.setBay_bay (s : State) (b : Nat) : s.setBay b (s.bay b) = s := by
  have hself : s.pwc.bays.setIfInBounds b (s.pwc.bays[b]?.getD Bay.resetRecord) = s.pwc.bays := by
    ext1 i hi
    simp only [Vector.getElem_setIfInBounds]
    split <;> simp_all
  unfold State.setBay State.bay
  rw [hself]

/-- A power fault of a bound bay of a calm array (R110, R111). -/
theorem State.bayFault_spec {s : State} {b p : Nat} {v : Bay} (hb : b < 4) (hp : s.positionOfBay b = some p)
    (hc : s.calmBut p) (hl : v.sense.level = false) (c : Instr)
    (hexec : exec c s = .next ((s.setBay b v).bayFault b)) :
    Completes c s fun t =>
      (t.bay b).enable = false ∧ (t.bay b).window = false ∧ (t.bay b).powerFault = true ∧
      (t.bay b).sense.level = false ∧ t.pwc.powerFaults = tallyUp 13 s.pwc.powerFaults ∧
      (∀ d, d ≠ b → t.bay d = s.bay d) ∧ MemberLost s t p .power ∧ t.tables = s.tables ∧ t.mem = s.mem := by
  obtain ⟨_, hbound⟩ := State.chan_of_positionOfBay hp
  unfold State.bayFault at hexec
  dsimp only at hexec
  rw [State.bay_setBay_same hb, State.setBay_setBay] at hexec
  generalize hu : ((s.setBay b { v with enable := false, window := false, powerFault := true }).onPwc fun w =>
    { w with powerFaults := tallyUp 13 w.powerFaults }) = u at hexec
  have hubay : ∀ d, u.bay d = (s.setBay b { v with enable := false, window := false, powerFault := true }).bay d := fun d => by
    rw [← hu]; rfl
  have hpos : u.positionOfBay b = some p := by rw [← hu]; exact hp
  have hcalm : u.calmBut p := by rw [← hu]; exact hc
  rw [hpos] at hexec
  obtain ⟨⟨hfailed, hemptied, hdeg, hnoticed, hothers⟩, htables, hmem, hfaults, hbays⟩ := State.failMember_memberLost hcalm .power
  have hoff : u.memberBayOff p = u.bayOff b := State.memberBayOff_of_bay (by rw [← hu]; exact hbound)
  rw [hoff] at hbays
  have hbay : (u.failMember p .power).bay b = { v with enable := false, window := false, powerFault := true } := by
    rw [State.bay_of_bays hbays, State.bay_bayOff_same hb, hubay, State.bay_setBay_same hb]
  refine ⟨_, hexec, by rw [hbay], by rw [hbay], by rw [hbay], by rw [hbay]; exact hl, ?_, fun d hd => ?_,
    ⟨hfailed, hemptied, hdeg, hnoticed, fun q hq => (hothers q hq).trans (by rw [← hu]; rfl)⟩, ?_, ?_⟩
  · rw [hfaults, ← hu]; rfl
  · rw [State.bay_of_bays hbays]
    exact (State.bay_setBay_other hd _).trans ((hubay d).trans (State.bay_setBay_other hd _))
  · rw [htables, ← hu]; rfl
  · rw [hmem, ← hu]; rfl

theorem State.wakeCause_of_run {s : State} (h : s.pwc.box = .run) (b : Nat) (present : Bool) :
    s.wakeCause (.presence b present) = s := by
  unfold State.wakeCause
  rw [h]

/-- Settles O45. -/
theorem bayLines : Obligations.BayLines := by
  unfold Obligations.BayLines
  refine ⟨?_, ?_, ?_, ?_⟩
  · intro s b p e c hb hw hp hs hc
    rcases hc with ⟨rfl, hl⟩ | ⟨rfl, hl⟩
    · refine State.confirmed_spec hb hp hs hl rfl _ ?_
      rw [State.setBay_bay]
      exact congrArg Host.Outcome.next ((if_pos hw).trans (if_pos hl))
    · refine State.confirmed_spec (v := { s.bay b with sense := (s.bay b).sense.follow true }) hb hp hs
        (by rw [Line.follow_eq]) rfl _ (congrArg Host.Outcome.next ((if_neg ?_).trans (if_pos ⟨rfl, ?_⟩)))
      · rw [hl]; exact Bool.false_ne_true
      · rw [State.bay_setBay_same hb]; exact hw
  · intro s b p c hb hp hc hcase
    rcases hcase with ⟨rfl, hw, hl⟩ | ⟨rfl, he, hw, hl⟩
    · refine State.bayFault_spec hb hp hc hl _ ?_
      rw [State.setBay_bay]
      exact congrArg Host.Outcome.next ((if_pos hw).trans (if_neg (by rw [hl]; exact Bool.false_ne_true)))
    · refine State.bayFault_spec (v := { s.bay b with sense := (s.bay b).sense.follow false }) hb hp hc
        (by rw [Line.follow_eq]) _
        (congrArg Host.Outcome.next ((if_neg ?_).trans ((if_neg fun h => Bool.false_ne_true h.1).trans (if_pos ⟨rfl, ?_, ?_⟩))))
      · rw [hl]; exact Bool.noConfusion
      · rw [State.bay_setBay_same hb]; exact he
      · rw [State.bay_setBay_same hb]; exact hw
  · intro s b p hb hp hc hl
    obtain ⟨_, hbound⟩ := State.chan_of_positionOfBay hp
    have hcalm : (s.setBay b { s.bay b with presence := (s.bay b).presence.follow false }).calmBut p := hc
    have hexec : exec (.presenceChange b false) s = .next _ :=
      congrArg Host.Outcome.next ((if_neg fun h => h.elim (by rw [hl]; exact Bool.noConfusion)
        (Nat.not_lt.2 (Nat.le_of_lt_succ hb))).trans (if_neg Bool.false_ne_true))
    rw [State.wakeCause_of_run (by exact hc.2.1)] at hexec
    generalize hu : s.setBay b { s.bay b with presence := (s.bay b).presence.follow false } = u at hexec hcalm
    rw [show u.positionOfBay b = some p by rw [← hu]; exact hp] at hexec
    obtain ⟨⟨hfailed, hemptied, hdeg, hnoticed, hothers⟩, htables, hmem, hfaults, hbays⟩ :=
      State.failMember_memberLost hcalm .removed
    rw [State.memberBayOff_of_bay (s := u) (b := b) (by rw [← hu]; exact hbound)] at hbays
    have hbay : (u.failMember p .removed).bay b = { u.bay b with enable := false, window := false } :=
      (State.bay_of_bays hbays b).trans (State.bay_bayOff_same hb)
    refine ⟨_, hexec, ?_, by rw [hbay], fun d hd => ?_,
      ⟨hfailed, hemptied, hdeg, hnoticed, fun q hq => (hothers q hq).trans (by rw [← hu]; rfl)⟩, ?_, ?_⟩
    · rw [hbay, ← hu, State.bay_setBay_same hb, Line.follow_eq]
    · rw [State.bay_of_bays hbays, ← hu]
      exact (State.bay_setBay_other hd _).trans (State.bay_setBay_other hd _)
    · rw [htables, ← hu]; rfl
    · rw [hmem, ← hu]; rfl
  · intro s b hb hl hrun
    have hexec : exec (.presenceChange b true) s = .next _ :=
      congrArg Host.Outcome.next ((if_neg fun h => h.elim (by rw [hl]; exact Bool.false_ne_true) (Nat.not_lt.2 (Nat.le_of_lt_succ hb))).trans
        (if_pos rfl))
    rw [hexec, State.wakeCause_of_run (by exact hrun), Line.follow_eq]

/-! ## Changes of a member's state that leave the array as it is (R69, R96) -/

/-- A member state that R69 counts neither as lost nor as rebuilding. -/
def MemberState.whole (m : MemberState) : Prop := m ≠ .failed ∧ m ≠ .absent ∧ m ≠ .rebuilding

theorem State.adopting_congr {s t : State} (h : t.igu = s.igu) (q : Nat) : t.adopting q = s.adopting q := by
  unfold State.adopting; rw [h]

theorem State.lostPosition_of_whole {s : State} {q : Nat} (h : (s.member q).whole) : s.lostPosition q = s.adopting q := by
  unfold State.lostPosition
  simp [h.1, h.2.1]

theorem State.rebuildingPosition_of_whole {s : State} {q : Nat} (h : (s.member q).whole) : s.rebuildingPosition q = false := by
  unfold State.rebuildingPosition
  simp [h.2.2]

/-- The state that R69 derives counts the lost and the rebuilding positions, and no other change of a member moves it. -/
theorem State.derived_congr {s t : State} (hpos : t.positions = s.positions) (hig : t.igu = s.igu)
    (h : ∀ q, t.member q = s.member q ∨ (t.member q).whole ∧ (s.member q).whole ∨ s.adopting q = true) :
    t.derived = s.derived := by
  have hlost : ∀ q, t.lostPosition q = s.lostPosition q := fun q => by
    rcases h q with hq | ⟨ht, hs⟩ | hq
    · unfold State.lostPosition; rw [hq, State.adopting_congr hig]
    · rw [State.lostPosition_of_whole ht, State.lostPosition_of_whole hs, State.adopting_congr hig]
    · unfold State.lostPosition; rw [State.adopting_congr hig, hq, Bool.or_true, Bool.or_true]
  have hreb : ∀ q, t.rebuildingPosition q = s.rebuildingPosition q := fun q => by
    rcases h q with hq | ⟨ht, hs⟩ | hq
    · unfold State.rebuildingPosition; rw [hq, State.adopting_congr hig]
    · rw [State.rebuildingPosition_of_whole ht, State.rebuildingPosition_of_whole hs]
    · unfold State.rebuildingPosition; rw [State.adopting_congr hig, hq, Bool.not_true, Bool.and_false, Bool.and_false]
  unfold State.derived
  simp only [hlost, hreb, hpos]

/-- A member's state set: its channel and the MEMBER notice, and, where the channel's idleness changes with it, the idle timers and
the standby requests of PWC (R96, R107). -/
theorem State.setMember_spec {s : State} {p : Nat} (hp : p < 4) (m : MemberState) :
    (∃ ch it sa fs, s.setMember p m = { s with
      chans := ch, pwc := { s.pwc with idleTimers := it, standbyAsks := sa }, lnk := s.lnk.raised (slotMember p) fs }) ∧
    (∃ b, (s.setMember p m).chan p = { s.chan p with member := { (s.chan p).member with state := m }, idleReported := b }) ∧
    ∀ q, q ≠ p → (s.setMember p m).chan q = s.chan q := by
  generalize hu : (s.modChan p fun c => { c with member := { c.member with state := m } }).noticeMember p = u
  have hset : s.setMember p m = u.idleUpdate p := by rw [← hu]; rfl
  have hchan : ∀ q, u.chan q = (s.modChan p fun c => { c with member := { c.member with state := m } }).chan q := fun q => by
    rw [← hu]; rfl
  obtain ⟨b, hidle⟩ := State.chan_idleUpdate_same (s := u) hp
  obtain ⟨ch, it, sa, hframe⟩ := u.idleUpdate_frame p
  obtain ⟨fs, hfs⟩ : ∃ fs, u = { (s.modChan p fun c => { c with member := { c.member with state := m } }) with
      lnk := s.lnk.raised (slotMember p) fs } := by rw [← hu]; exact ⟨_, rfl⟩
  refine ⟨⟨ch, it, sa, fs, ?_⟩, ⟨b, ?_⟩, fun q hq => ?_⟩
  · rw [hset, hframe, hfs]; rfl
  · rw [hset, hidle, hchan, State.chan_modChan_same hp]
  · rw [hset, State.chan_idleUpdate_other hq, hchan, State.chan_modChan_other hq]

theorem State.member_setMember_same {s : State} {p : Nat} (hp : p < 4) (m : MemberState) : (s.setMember p m).member p = m := by
  obtain ⟨_, ⟨b, h⟩, _⟩ := State.setMember_spec (s := s) hp m
  unfold State.member
  rw [h]

theorem State.member_setMember_other {s : State} {p q : Nat} (hp : p < 4) (h : q ≠ p) (m : MemberState) :
    (s.setMember p m).member q = s.member q :=
  congrArg (fun c : Channel => c.member.state) ((State.setMember_spec (s := s) hp m).2.2 q h)

/-! ## Spin-ups (R163, R164) -/

/-- PWC's record of a spin-up that starts (R163). -/
def SpinEntry.begun (e : SpinEntry) : Spinning :=
  { attempt := e.attempt, fromOff := e.fromOff, commanded := !(e.fromOff && decide (e.attempt = 1)) }

/-- The bay of a member that starts from OFF switched on with its readback window (R110, R163). -/
def State.spinPower (s : State) (e : SpinEntry) : State :=
  if e.fromOff && decide (e.attempt = 1) then
    match (s.chan e.position).bay with
    | some b => s.setBay b { s.bay b with enable := true, powerFault := false, window := true }
    | none => s
  else s

theorem State.spinPower_frame (s : State) (e : SpinEntry) :
    s.spinPower e = { s with pwc := { s.pwc with bays := (s.spinPower e).pwc.bays } } := by
  unfold State.spinPower
  split
  · split <;> rfl
  · rfl

theorem State.spinStart_eq (s : State) (e : SpinEntry) : s.spinStart e =
    ((s.onPwc fun w => { w with spinning := w.spinning.setIfInBounds e.position (some e.begun) }).spinPower e).setMember
      e.position .spinningUp := rfl

theorem State.spinPower_onPwc_bays (s : State) (e : SpinEntry) (v : Vector (Option Spinning) 4) :
    ((s.onPwc fun w => { w with spinning := v }).spinPower e).pwc.bays = (s.spinPower e).pwc.bays := by
  unfold State.spinPower
  rw [show (s.onPwc fun w => { w with spinning := v }).chan e.position = s.chan e.position from rfl]
  split
  · cases (s.chan e.position).bay <;> rfl
  · rfl

/-- What the start of a spin-up leaves: the member's record, its notice, PWC's record of the spin-up and the bay (R163). -/
theorem State.spinStart_spec {s : State} {e : SpinEntry} (hp : e.position < 4) :
    (∃ ch it sa fs, s.spinStart e = { s with
      chans := ch, lnk := s.lnk.raised (slotMember e.position) fs,
      pwc := { s.pwc with idleTimers := it, standbyAsks := sa, bays := (s.spinPower e).pwc.bays,
                          spinning := s.pwc.spinning.setIfInBounds e.position (some e.begun) } }) ∧
    (∃ b, (s.spinStart e).chan e.position = { s.chan e.position with
      member := { (s.chan e.position).member with state := .spinningUp }, idleReported := b }) ∧
    ∀ q, q ≠ e.position → (s.spinStart e).chan q = s.chan q := by
  generalize hu : (s.onPwc fun w => { w with spinning := w.spinning.setIfInBounds e.position (some e.begun) }).spinPower e = u
  have hbays : u.pwc.bays = (s.spinPower e).pwc.bays := by
    rw [← hu]; exact s.spinPower_onPwc_bays e (s.pwc.spinning.setIfInBounds e.position (some e.begun))
  have hframe := (s.onPwc fun w => { w with spinning := w.spinning.setIfInBounds e.position (some e.begun) }).spinPower_frame e
  rw [hu, hbays] at hframe
  obtain ⟨⟨ch, it, sa, fs, hset⟩, ⟨b, hchan⟩, hothers⟩ := State.setMember_spec (s := u) hp .spinningUp
  rw [State.spinStart_eq, hu]
  refine ⟨⟨ch, it, sa, fs, ?_⟩, ⟨b, hchan.trans ?_⟩, fun q hq => (hothers q hq).trans ?_⟩
  · rw [hset, hframe]; rfl
  · rw [hframe]; rfl
  · rw [hframe]; rfl

theorem State.spinTest_of_empty {s : State} (h : s.pwc.spinQueue = []) (n : Nat) : s.spinTest n = s := by
  cases n with
  | zero => rfl
  | succ n => unfold State.spinTest; rw [h]

/-- A single waiting spin-up below the limit starts (R163). -/
theorem State.spinTest_of_single {s : State} {e : SpinEntry} (hp : e.position < 4) (hq : s.pwc.spinQueue = [e])
    (hc : s.spinningCount < s.pwc.limit) (n : Nat) :
    s.spinTest (n + 1) = (s.onPwc fun w => { w with spinQueue := [] }).spinStart e := by
  unfold State.spinTest
  rw [hq]
  dsimp only
  rw [if_pos hc]
  obtain ⟨⟨ch, it, sa, fs, hstart⟩, _, _⟩ := State.spinStart_spec (s := s.onPwc fun w => { w with spinQueue := [] }) hp
  exact State.spinTest_of_empty (by rw [hstart]; rfl) n

/-- The members that spin up, where one of four changes its state. -/
theorem State.spinningCount_congr {s t : State} (h : ∀ q, t.member q = .spinningUp ↔ s.member q = .spinningUp) :
    t.spinningCount = s.spinningCount := by
  unfold State.spinningCount
  simp only [h]

theorem State.spinningCount_lt {s t : State} {p : Nat} (hp : p < 4) (hs : s.member p = .spinningUp)
    (ht : t.member p ≠ .spinningUp) (ho : ∀ q, q ≠ p → t.member q = s.member q) : t.spinningCount < s.spinningCount := by
  unfold State.spinningCount
  have hsub : ((List.range 4).filter fun q => t.member q = .spinningUp) =
      ((List.range 4).filter fun q => s.member q = .spinningUp).filter fun q => decide (q ≠ p) := by
    rw [List.filter_filter]
    refine List.filter_congr fun q _ => ?_
    by_cases h : q = p
    · subst h; simp [ht]
    · rw [ho q h]; simp [h]
  rw [hsub]
  refine List.length_filter_lt_length_iff_exists.2 ⟨p, List.mem_filter.2 ⟨List.mem_range.2 hp, by simp [hs]⟩, by simp⟩

/-- A report of member changes that R69 does not count leaves a settled state as it is (R96). -/
theorem State.memberReported_of_whole {s u : State} (hs : s.settled) (hc : u.ctm.state = s.ctm.state) (hig : u.igu = s.igu)
    (hb : u.pwc.box = s.pwc.box) (hpos : u.positions = s.positions)
    (h : ∀ q, u.member q = s.member q ∨ (u.member q).whole ∧ (s.member q).whole ∨ s.adopting q = true) :
    u.memberReported = u := by
  obtain ⟨hrun, hstep, hder⟩ := hs
  refine State.memberReported_of_settled (by rw [hig]; exact hstep) (hb.trans hrun) fun hatt => ?_
  rw [State.derived_congr hpos hig h, hc]
  exact hder (by rw [← hc]; exact hatt)

theorem MemberState.whole_spinningUp : MemberState.whole .spinningUp :=
  ⟨MemberState.noConfusion, MemberState.noConfusion, MemberState.noConfusion⟩

theorem MemberState.whole_active : MemberState.whole .active :=
  ⟨MemberState.noConfusion, MemberState.noConfusion, MemberState.noConfusion⟩

theorem MemberState.whole_standby : MemberState.whole .standby :=
  ⟨MemberState.noConfusion, MemberState.noConfusion, MemberState.noConfusion⟩

theorem MemberState.whole_off : MemberState.whole .off :=
  ⟨MemberState.noConfusion, MemberState.noConfusion, MemberState.noConfusion⟩

/-- A calm array is settled: with every member ACTIVE R69 derives NORMAL. -/
theorem State.settled_of_calm {s : State} (h : s.calm) : s.settled := by
  obtain ⟨hn, hb, _, _, hstep, hadopt, _, _, hall⟩ := h
  refine ⟨hb, hstep, fun _ => ?_⟩
  have hlost : (s.positions.filter fun q => s.lostPosition q) = [] := List.filter_eq_nil_iff.2 fun q hq => by
    have hw : (s.member q).whole := by rw [hall q hq]; exact MemberState.whole_active
    rw [State.lostPosition_of_whole hw]
    unfold State.adopting
    rw [hadopt]; exact Bool.false_ne_true
  have hreb : (s.positions.filter fun q => s.rebuildingPosition q) = [] := List.filter_eq_nil_iff.2 fun q hq => by
    have hw : (s.member q).whole := by rw [hall q hq]; exact MemberState.whole_active
    rw [State.rebuildingPosition_of_whole hw]; exact Bool.false_ne_true
  unfold State.derived
  dsimp only
  rw [hlost, hreb, hn]
  rfl

/-! ## Standby (R107, R108, R165) -/

/-- A channel that carries an operation stops its idle timer and asks for no standby (R107). -/
theorem State.idleUpdate_of_busy {s : State} {p : Nat} (h : (s.chan p).current.isSome = true) : ∃ ch it,
    s.idleUpdate p = { s with chans := ch, pwc := { s.pwc with idleTimers := it } } := by
  have hidle : (s.chan p).idle = false := by
    unfold Channel.idle Channel.quiet
    rw [Option.isNone_eq_false_iff.2 h]; simp
  unfold State.idleUpdate
  dsimp only
  rw [hidle, if_neg (by exact Bool.false_ne_true)]
  split
  · exact ⟨_, _, rfl⟩
  · exact ⟨s.chans, s.pwc.idleTimers, rfl⟩

theorem exec_standbyRequest_of_idleTimer {s : State} {p : Nat} (h : s.pwc.standbyAsks[p]? = some (some .idleTimer)) :
    exec (.standbyRequest p) s = .next (s.standbyRequested p .idleTimer) := by
  change execStandbyRequest p s = _
  unfold execStandbyRequest
  rw [h]
  rfl

/-- A request that finds its channel at work, or its member not ACTIVE, ends with the timer idle (R108, R165). -/
theorem State.standbyRequested_of_unready {s : State} {p : Nat}
    (h : s.member p ≠ .active ∨ (s.chan p).current ≠ none ∨ (s.chan p).allQueued ≠ []) :
    s.standbyRequested p .idleTimer = { s with
      pwc := { s.pwc with
        standbyAsks := s.pwc.standbyAsks.setIfInBounds p none, idleTimers := s.pwc.idleTimers.setIfInBounds p false } } := by
  have hquiet : s.member p = .active → (s.chan p).quiet = false := fun ha => by
    unfold Channel.quiet
    rcases h with h | h | h
    · exact absurd ha h
    · rw [Option.isNone_eq_false_iff.2 (Option.isSome_iff_ne_none.2 h)]; rfl
    · rw [List.isEmpty_eq_false_iff.2 h, Bool.and_false]
  unfold State.standbyRequested
  dsimp only
  split
  · rename_i ha
    rw [show ((s.onPwc fun w => { w with standbyAsks := w.standbyAsks.setIfInBounds p none }).chan p).quiet = false from
      hquiet ha, if_neg Bool.false_ne_true]
    rfl
  · rfl
  · rfl
  · rfl

/-- A request that finds the channel of an ACTIVE member at rest starts the standby operation (R108). -/
theorem State.standbyRequested_of_quiet {s : State} {p : Nat} (ha : s.member p = .active) (hc : (s.chan p).current = none)
    (hq : (s.chan p).allQueued = []) : s.standbyRequested p .idleTimer =
      ((s.onPwc fun w => { w with
          standbyAsks := w.standbyAsks.setIfInBounds p none,
          standbyOps := w.standbyOps.setIfInBounds p (some { asker := .idleTimer, second := false }) }).modChan p fun c =>
        { c with current := some standbyOp, command := c.command + 1 }).idleUpdate p := by
  have hquiet : (s.chan p).quiet = true := by unfold Channel.quiet; rw [hc, hq]; rfl
  unfold State.standbyRequested
  dsimp only
  rw [show ((s.onPwc fun w => { w with standbyAsks := w.standbyAsks.setIfInBounds p none }).chan p).member.state = .active
    from ha]
  dsimp only
  rw [show ((s.onPwc fun w => { w with standbyAsks := w.standbyAsks.setIfInBounds p none }).chan p).quiet = true from hquiet,
    if_pos rfl]
  rfl

theorem exec_standbyOperationEnd {s : State} {p : Nat} (h : (s.chan p).current = some standbyOp) (success : Bool) :
    exec (.standbyOperationEnd p success) s = .next (s.standbyEnd p success) := by
  change execStandbyOperationEnd p success s = _
  unfold execStandbyOperationEnd
  rw [h]
  exact congrArg Host.Outcome.next (if_pos rfl)

theorem State.standbyAsker_of_op {s : State} {p : Nat} {a : StandbyOp} (h : s.pwc.standbyOps[p]? = some (some a)) :
    s.standbyAsker p = a := by
  unfold State.standbyAsker; rw [h]; rfl

/-- The first failure of a standby operation sends it again (R108). -/
theorem State.standbyEnd_of_first {s : State} {p : Nat} {a : StandbyAsk}
    (h : s.pwc.standbyOps[p]? = some (some { asker := a, second := false })) : s.standbyEnd p false =
      (((s.onPwc fun w => { w with standbyOps := w.standbyOps.setIfInBounds p (some { asker := a, second := true }) }).modChan
        p fun c => { c with command := c.command + 1 }).countRetry p) := by
  unfold State.standbyEnd
  dsimp only
  rw [State.standbyAsker_of_op h, if_neg Bool.false_ne_true, if_neg Bool.false_ne_true]

/-- The state of a position whose standby operation has succeeded, before the change of its member (R108). -/
def State.standbyDone (s : State) (p : Nat) : State :=
  ((s.modChan p fun c => { c with current := none }).standbyOver p).resendHeld p

theorem State.standbyEnd_of_success {s : State} {p : Nat}
    (h : s.pwc.standbyOps[p]? = some (some { asker := .idleTimer, second := false }))
    (hr : ((s.standbyDone p).setMember p .standby).memberReported = (s.standbyDone p).setMember p .standby)
    (hq : (((s.standbyDone p).setMember p .standby).chan p).allQueued = []) :
    s.standbyEnd p true = ((s.standbyDone p).setMember p .standby).timerIdle p := by
  unfold State.standbyEnd
  dsimp only
  rw [State.standbyAsker_of_op h, if_pos rfl, ← State.standbyDone, State.memberChange, hr, hq, if_pos (by rfl)]
  rfl

/-! ## Ready drives and spin-ups that time out (R164) -/

theorem exec_driveReady_of_spinning {s : State} {p units : Nat} {e : Spinning} (hs : s.pwc.spinning[p]? = some (some e))
    (hc : e.commanded = true) (hm : s.member p = .spinningUp) (h : (s.igu.adoption.map fun a => a.position) ≠ some p) :
    exec (.driveReady p units) s =
      .next (((s.onPwc fun w => { w with spinning := w.spinning.setIfInBounds p none }).modChan p fun c =>
        { c with units := some units }).becomesReady p .active) := by
  have hany : (s.igu.adoption.any fun a => a.position = p) = false := by
    cases ha : s.igu.adoption with
    | none => rfl
    | some a => rw [ha] at h; simpa using h
  change execDriveReady p units s = _
  unfold execDriveReady
  rw [hs]
  dsimp only [Option.getD_some]
  rw [if_pos ⟨hc, hm⟩, if_neg (by exact fun h => Bool.false_ne_true (hany.symm.trans h))]

theorem exec_driveReady_of_adopted {s : State} {p units : Nat} {e : Spinning} {a : Adoption}
    (hs : s.pwc.spinning[p]? = some (some e)) (hc : e.commanded = true) (hm : s.member p = .spinningUp)
    (ha : s.igu.adoption = some a) (hp : a.position = p) (hn : s.unitsNeeded ≤ units) :
    exec (.driveReady p units) s =
      .next (((s.onPwc fun w => { w with spinning := w.spinning.setIfInBounds p none }).modChan p fun c =>
        { c with units := some units }).becomesReady p .rebuilding) := by
  have hany : (s.igu.adoption.any fun a => a.position = p) = true := by rw [ha]; simpa using hp
  change execDriveReady p units s = _
  unfold execDriveReady
  rw [hs]
  dsimp only [Option.getD_some]
  rw [if_pos ⟨hc, hm⟩, if_pos (by exact hany), if_neg (by exact Nat.not_lt.2 hn)]

/-- With no spin-up waiting, the limit in force is all that the end of a spin-up can change (R163, R166). -/
theorem State.spinChanged_of_empty {s : State} (h : s.pwc.spinQueue = []) :
    ∃ l, s.spinChanged = { s with pwc := { s.pwc with limit := l } } := by
  unfold State.spinChanged State.limitFalls
  split
  · exact ⟨s.pwc.limitAsked, State.spinTest_of_empty (by exact h) 4⟩
  · exact ⟨s.pwc.limit, State.spinTest_of_empty h 4⟩

/-- A member of a settled array becomes ready: its state alone changes, and the array's does not (R164). -/
theorem State.becomesReady_spec {s : State} {p : Nat} {m : MemberState} (hp : p < 4) (hs : s.settled)
    (hq : s.pwc.spinQueue = []) (hw : m.whole ∧ (s.member p).whole ∨ s.adopting p = true) :
    (∃ ch pw ln, s.becomesReady p m = { s with chans := ch, pwc := pw, lnk := ln } ∧ pw.spinning = s.pwc.spinning) ∧
    (s.becomesReady p m).member p = m ∧ ((s.becomesReady p m).chan p).units = (s.chan p).units ∧
    ∀ q, q ≠ p → (s.becomesReady p m).member q = s.member q := by
  obtain ⟨⟨ch, it, sa, fs, hset⟩, ⟨b, hchan⟩, hothers⟩ := State.setMember_spec (s := s) hp m
  have hmem : ∀ q, q ≠ p → (s.setMember p m).member q = s.member q := fun q h => State.member_setMember_other hp h m
  obtain ⟨l, hspin⟩ := State.spinChanged_of_empty (s := s.setMember p m) (by rw [hset]; exact hq)
  have hsleep : ∀ u : State, u.pwc.box = .run → (if u.pwc.box = .sleepEntry ∧ u.pwc.entryStep = some 5 then
      u.onPwc fun w => { w with standbyAsks := w.standbyAsks.setIfInBounds p (some .sleepEntry) } else u) = u := fun u h =>
    if_neg fun hc => by rw [h] at hc; exact BoxState.noConfusion hc.1
  have hready : s.becomesReady p m = (s.setMember p m).spinChanged := by
    unfold State.becomesReady
    dsimp only
    rw [hsleep _ (by rw [hspin, hset]; exact hs.1)]
    refine State.memberReported_of_whole hs ?_ ?_ ?_ ?_ fun q => ?_
    · rw [hspin, hset]
    · rw [hspin, hset]
    · rw [hspin, hset]
    · rw [hspin, hset]; rfl
    · rw [hspin]
      by_cases h : q = p
      · subst h
        rcases hw with hw | hw
        · exact .inr (.inl ⟨(congrArg MemberState.whole (State.member_setMember_same hp m)).mpr hw.1, hw.2⟩)
        · exact .inr (.inr hw)
      · exact .inl (hmem q h)
  rw [hready, hspin]
  exact ⟨⟨ch, { s.pwc with idleTimers := it, standbyAsks := sa, limit := l }, s.lnk.raised (slotMember p) fs,
    by rw [hset], rfl⟩, State.member_setMember_same hp m,
    (congrArg Channel.units hchan :), hmem⟩

theorem State.spinPower_bays_congr {s t : State} {e : SpinEntry} (hc : (t.chan e.position).bay = (s.chan e.position).bay)
    (hb : t.pwc.bays = s.pwc.bays) : (t.spinPower e).pwc.bays = (s.spinPower e).pwc.bays := by
  have hbay : ∀ b, t.bay b = s.bay b := State.bay_of_bays hb
  unfold State.spinPower
  rw [hc]
  split
  · cases (s.chan e.position).bay with
    | none => exact hb
    | some b =>
      show t.pwc.bays.setIfInBounds b _ = s.pwc.bays.setIfInBounds b _
      rw [hb, hbay]
  · exact hb

/-- The only waiting spin-up of a settled array starts: its member spins up, and the array's state stands (R163). -/
theorem State.spinupStarts {s : State} {e : SpinEntry} {p : Nat} (hep : e.position = p) (hp : p < 4) (hs : s.settled)
    (hq : s.pwc.spinQueue = [e]) (hw : (s.member p).whole) (hc : (s.setMember p .spinupWait).spinningCount < s.pwc.limit) :
    (∃ ch pw ln, ((s.setMember p .spinupWait).spinTest 4).memberReported = { s with chans := ch, pwc := pw, lnk := ln } ∧
      pw.spinning = s.pwc.spinning.setIfInBounds p (some e.begun) ∧ pw.bays = (s.spinPower e).pwc.bays ∧
      pw.spinQueue = [] ∧ (ln.notices[3 + p]?.getD none).isSome = true) ∧
    ((s.setMember p .spinupWait).spinTest 4).memberReported.member p = .spinningUp ∧
    (((s.setMember p .spinupWait).spinTest 4).memberReported.chan p).spinupAsked = (s.chan p).spinupAsked ∧
    ∀ q, q ≠ p → ((s.setMember p .spinupWait).spinTest 4).memberReported.member q = s.member q := by
  subst hep
  obtain ⟨⟨ch, it, sa, fs, hset⟩, ⟨b, hchan⟩, hothers⟩ := State.setMember_spec (s := s) hp .spinupWait
  have htest := State.spinTest_of_single (s := s.setMember e.position .spinupWait) hp (by rw [hset]; exact hq)
    (by rw [hset] at hc ⊢; exact hc) 3
  generalize hu : ((s.setMember e.position .spinupWait).onPwc fun w => { w with spinQueue := [] }) = u at htest
  have huchan : ∀ q, u.chan q = (s.setMember e.position .spinupWait).chan q := fun q => by rw [← hu]; rfl
  obtain ⟨⟨ch', it', sa', fs', hstart⟩, ⟨b', hchan'⟩, hothers'⟩ := State.spinStart_spec (s := u) hp
  have hbays : (u.spinPower e).pwc.bays = (s.spinPower e).pwc.bays :=
    State.spinPower_bays_congr (by rw [huchan, hchan]) (by rw [← hu, hset]; rfl)
  have hmem : ∀ q, q ≠ e.position → (u.spinStart e).member q = s.member q := fun q h =>
    congrArg (fun c : Channel => c.member.state) (((hothers' q h).trans (huchan q)).trans (hothers q h))
  have hself : (u.spinStart e).member e.position = .spinningUp := congrArg (fun c : Channel => c.member.state) hchan'
  have hrep : (u.spinStart e).memberReported = u.spinStart e := by
    refine State.memberReported_of_whole hs ?_ ?_ ?_ ?_ fun q => ?_
    · rw [hstart, ← hu, hset]; rfl
    · rw [hstart, ← hu, hset]; rfl
    · rw [hstart, ← hu, hset]; rfl
    · rw [hstart, ← hu, hset]; rfl
    · by_cases h : q = e.position
      · subst h; exact .inr (.inl ⟨by rw [hself]; exact MemberState.whole_spinningUp, hw⟩)
      · exact .inl (hmem q h)
  rw [htest, hrep]
  refine ⟨⟨ch', { s.pwc with
      idleTimers := it', standbyAsks := sa', bays := (s.spinPower e).pwc.bays, spinQueue := [],
      spinning := s.pwc.spinning.setIfInBounds e.position (some e.begun) },
    (s.lnk.raised (slotMember e.position) fs).raised (slotMember e.position) fs', ?_, rfl, rfl, rfl, ?_⟩, hself, ?_, hmem⟩
  · rw [hstart, hbays, ← hu, hset]; rfl
  · exact Lnk.isSome_raised_same _ _ (Nat.lt_of_lt_of_le (Nat.add_lt_add_left hp 3) (by decide))
  · rw [hchan', huchan, hchan]

theorem exec_spinupRequest {s : State} {p : Nat} (ha : (s.chan p).spinupAsked = true)
    (hm : s.member p = .standby ∨ s.member p = .off) (hq : s.pwc.spinQueue = []) : exec (.spinupRequest p) s =
      .next (((((s.modChan p fun c => { c with spinupAsked := false }).onPwc fun w =>
        { w with spinQueue := [{ position := p, attempt := 1, fromOff := decide (s.member p = .off) }] }).setMember p
          .spinupWait).spinTest 4).memberReported) := by
  have hmem : (s.modChan p fun c => { c with spinupAsked := false }).member p = s.member p :=
    (State.sameMembers_modChan (f := fun c => { c with spinupAsked := false }) fun _ => ⟨rfl, rfl⟩).member p
  change execSpinupRequest p s = _
  unfold execSpinupRequest
  rw [if_pos ha]
  dsimp only
  rw [hmem, if_pos ⟨hm.symm, by rw [show (s.modChan p fun c => { c with spinupAsked := false }).pwc.spinQueue = [] from hq]; rfl⟩]
  unfold State.onPwc
  dsimp only [State.modChan_pwc]
  rw [hq]
  rfl

theorem State.member_modChan_of_keeps {s : State} {p q : Nat} {f : Channel → Channel}
    (hf : ∀ c, (f c).member = c.member ∧ (f c).bay = c.bay) : (s.modChan p f).member q = s.member q :=
  (State.sameMembers_modChan hf).member q

/-- The first attempt at a spin-up over and the second one waiting (R164). -/
def State.spinAgain (s : State) (p : Nat) (e : Spinning) : State :=
  s.onPwc fun w => { w with
    spinning := w.spinning.setIfInBounds p none, spinQueue := [{ position := p, attempt := 2, fromOff := e.fromOff }] }

theorem State.settled_congr {s t : State} (hs : s.settled) (hc : t.ctm.state = s.ctm.state) (hig : t.igu = s.igu)
    (hb : t.pwc.box = s.pwc.box) (hpos : t.positions = s.positions) (hm : ∀ q, t.member q = s.member q) : t.settled := by
  refine ⟨hb.trans hs.1, by rw [hig]; exact hs.2.1, fun hatt => ?_⟩
  rw [State.derived_congr hpos hig fun q => .inl (hm q), hc]
  exact hs.2.2 (by rw [← hc]; exact hatt)

/-- The spin-up of a position over and the size of its drive known (R164). -/
def State.driveSized (s : State) (p units : Nat) : State :=
  (s.onPwc fun w => { w with spinning := w.spinning.setIfInBounds p none }).modChan p fun c => { c with units := some units }

/-- A ready drive gives its member its state, and leaves the array's (R164). -/
theorem completes_driveReady {s : State} {p units : Nat} {m : MemberState} (hp : p < 4) (hs : s.settled)
    (hq : s.pwc.spinQueue = []) (hw : m.whole ∧ (s.member p).whole ∨ s.adopting p = true)
    (hexec : exec (.driveReady p units) s = .next ((s.driveSized p units).becomesReady p m)) :
    Completes (.driveReady p units) s fun t =>
      t.member p = m ∧ (t.chan p).units = some units ∧ t.pwc.spinning[p]? = some none ∧
      (∀ q, q ≠ p → t.member q = s.member q) ∧ t.ctm.state = s.ctm.state ∧ t.igu = s.igu ∧ t.tables = s.tables := by
  have hmems : ∀ q, (s.driveSized p units).member q = s.member q := fun q =>
    State.member_modChan_of_keeps (f := fun c => { c with units := some units }) fun _ => ⟨rfl, rfl⟩
  have hchan : ((s.driveSized p units).chan p).units = some units := by
    unfold State.driveSized
    rw [State.chan_modChan_same hp]
  obtain ⟨⟨ch, pw, ln, heq, hspin⟩, hself, hunits, hothers⟩ := State.becomesReady_spec (s := s.driveSized p units) (m := m) hp
    (State.settled_congr hs rfl rfl rfl rfl hmems) hq (by rw [hmems]; exact hw)
  refine ⟨_, hexec, hself, hunits.trans hchan, ?_, fun q h => (hothers q h).trans (hmems q), ?_, ?_, ?_⟩
  · rw [heq]
    show pw.spinning[p]? = _
    rw [hspin]
    exact (Vector.getElem?_setIfInBounds).trans ((if_pos rfl).trans (if_pos hp))
  all_goals rw [heq]; rfl

/-- Settles O44. -/
theorem membersRestAndSpinUp : Obligations.MembersRestAndSpinUp := by
  unfold Obligations.MembersRestAndSpinUp
  refine ⟨?_, ?_, ?_, ?_, ?_, ?_, ?_, ?_, ?_, ?_⟩
  · intro s p hp ht ha
    change execIdleTimerExpire p s = _
    unfold execIdleTimerExpire State.onPwc
    rw [ht, if_pos (by rfl)]
    dsimp only
    rw [ha, if_neg (by exact Bool.false_ne_true)]
  · intro s p hp hask ha hc hq
    have hexec := (exec_standbyRequest_of_idleTimer hask).trans (congrArg _ (State.standbyRequested_of_quiet ha hc hq))
    generalize hu : ((s.onPwc _).modChan p _) = u at hexec
    have hchan : u.chan p = { s.chan p with current := some standbyOp, command := (s.chan p).command + 1 } := by
      rw [← hu]
      exact State.chan_modChan_same (s := s) hp fun c => { c with current := some standbyOp, command := c.command + 1 }
    obtain ⟨ch, it, hframe⟩ := State.idleUpdate_of_busy (s := u) (p := p) (by rw [hchan]; rfl)
    obtain ⟨b, hidle⟩ := State.chan_idleUpdate_same (s := u) hp
    refine ⟨_, hexec, ?_, ?_, ?_, fun q hq => ?_, ?_, ?_⟩
    · rw [hidle, hchan]; rfl
    · rw [hframe, ← hu]
      exact (Vector.getElem?_setIfInBounds).trans ((if_pos rfl).trans (if_pos hp))
    · rw [hframe, ← hu]
      exact (Vector.getElem?_setIfInBounds).trans ((if_pos rfl).trans (if_pos hp))
    · refine (State.chan_idleUpdate_other hq).trans ?_
      rw [← hu]
      exact State.chan_modChan_other (s := s) hq fun c => { c with current := some standbyOp, command := c.command + 1 }
    · rw [hframe, ← hu]; rfl
    · rw [hframe, ← hu]; rfl
  · intro s p hp hask h
    exact (exec_standbyRequest_of_idleTimer hask).trans (congrArg _ (State.standbyRequested_of_unready h))
  · intro s p hp hcalm hc hq hop ha
    have hsettled := State.settled_of_calm hcalm
    have hbase : ∀ q, (s.standbyDone p).chan q = (s.modChan p fun c => { c with current := none }).chan q := fun _ => rfl
    have hdone : (s.standbyDone p).chan p = { s.chan p with current := none } := (hbase p).trans (State.chan_modChan_same hp _)
    have hmems : ∀ q, (s.standbyDone p).member q = s.member q := fun q =>
      State.member_modChan_of_keeps (s := s) (p := p) (f := fun c => { c with current := none }) fun _ => ⟨rfl, rfl⟩
    obtain ⟨⟨ch, it, sa, fs, hset⟩, ⟨b, hchan⟩, hothers⟩ := State.setMember_spec (s := s.standbyDone p) hp .standby
    have hself : ((s.standbyDone p).setMember p .standby).member p = .standby := State.member_setMember_same hp _
    have hmem : ∀ q, q ≠ p → ((s.standbyDone p).setMember p .standby).member q = s.member q := fun q h =>
      (State.member_setMember_other hp h _).trans (hmems q)
    have hrep : ((s.standbyDone p).setMember p .standby).memberReported = (s.standbyDone p).setMember p .standby := by
      refine State.memberReported_of_whole hsettled ?_ ?_ ?_ ?_ fun q => ?_
      · rw [hset]; rfl
      · rw [hset]; rfl
      · rw [hset]; rfl
      · rw [hset]; rfl
      · by_cases h : q = p
        · subst h
          exact .inr (.inl ⟨by rw [hself]; exact MemberState.whole_standby, by rw [ha]; exact MemberState.whole_active⟩)
        · exact .inl (hmem q h)
    have hexec := (exec_standbyOperationEnd hc true).trans (congrArg _ (State.standbyEnd_of_success hop hrep
      (by rw [hchan, hdone]; exact hq)))
    refine ⟨_, hexec, hself, ?_, ?_, ?_, hmem, ?_⟩
    · exact congrArg Channel.current (hchan.trans (by rw [hdone]))
    · show ((s.standbyDone p).setMember p .standby).ctm.state = _
      rw [hset]; exact hcalm.1
    · show (((s.standbyDone p).setMember p .standby).lnk.notices[3 + p]?.getD none).isSome = true
      rw [hset]
      exact Lnk.isSome_raised_same _ _ (Nat.lt_of_lt_of_le (Nat.add_lt_add_left hp 3) (by decide))
    · show ((s.standbyDone p).setMember p .standby).tables = _
      rw [hset]; rfl
  · intro s p a hp hc hop
    have hexec := (exec_standbyOperationEnd hc false).trans (congrArg _ (State.standbyEnd_of_first hop))
    refine ⟨_, hexec, (Vector.getElem?_setIfInBounds).trans ((if_pos rfl).trans (if_pos hp)), ?_, fun q hq => ?_, rfl, rfl, rfl⟩
    · unfold State.countRetry
      rw [State.chan_modChan_same hp, State.chan_modChan_same hp]
      rfl
    · exact (State.chan_modChan_other hq _).trans (State.chan_modChan_other hq _)
  · intro s p hp hs ha hm hq hc
    have hexec := exec_spinupRequest ha hm hq
    generalize hu : ((s.modChan p fun c => { c with spinupAsked := false }).onPwc fun w =>
      { w with spinQueue := [{ position := p, attempt := 1, fromOff := decide (s.member p = .off) }] }) = u at hexec
    have hmems : ∀ q, u.member q = s.member q := fun q => by
      rw [← hu]
      exact State.member_modChan_of_keeps (s := s) (p := p) (f := fun c => { c with spinupAsked := false }) fun _ => ⟨rfl, rfl⟩
    have hchan : u.chan p = { s.chan p with spinupAsked := false } := by
      rw [← hu]
      exact State.chan_modChan_same (s := s) hp fun c => { c with spinupAsked := false }
    have hwhole : (u.member p).whole := by
      rw [hmems]
      rcases hm with h | h
      · rw [h]; exact MemberState.whole_standby
      · rw [h]; exact MemberState.whole_off
    have hsettled : u.settled :=
      State.settled_congr hs (by rw [← hu]; rfl) (by rw [← hu]; rfl) (by rw [← hu]; rfl) (by rw [← hu]; rfl) hmems
    have hcount : (u.setMember p .spinupWait).spinningCount = s.spinningCount := State.spinningCount_congr fun q => by
      by_cases h : q = p
      · subst h
        rw [State.member_setMember_same hp]
        rcases hm with h | h <;> rw [h] <;> simp
      · rw [State.member_setMember_other hp h, hmems]
    obtain ⟨⟨ch, pw, ln, heq, hspinning, hbays, hqueue, hnotice⟩, hself, hasked, hothers⟩ :=
      State.spinupStarts (s := u) (p := p) (e := { position := p, attempt := 1, fromOff := decide (s.member p = .off) }) rfl hp
        hsettled (by rw [← hu]; rfl) hwhole (by rw [hcount, ← hu]; exact hc)
    have hpower : ∀ b, (s.chan p).bay = some b → (u.chan p).bay = some b := fun b hb => by rw [hchan]; exact hb
    refine ⟨_, hexec, hself, ?_, ?_, fun b hb hoff hbay => ?_, fun hst => ?_, fun q hq => (hothers q hq).trans (hmems q), ?_, ?_,
      ?_, ?_⟩
    · rw [hasked, hchan]
    · rw [heq]
      show pw.spinning[p]? = _
      rw [hspinning, Vector.getElem?_setIfInBounds, if_pos rfl, if_pos hp]
      unfold SpinEntry.begun
      rcases hm with h | h <;> simp [h]
    · have ht : (u.spinPower { position := p, attempt := 1, fromOff := decide (s.member p = .off) }) =
          u.setBay b { u.bay b with enable := true, powerFault := false, window := true } := by
        unfold State.spinPower
        rw [if_pos (by rw [hoff]; rfl)]
        dsimp only
        rw [hpower b hbay]
      rw [heq]
      refine (State.bay_of_bays (s := u.spinPower _) hbays b).trans ?_
      rw [ht, State.bay_setBay_same hb, ← hu]
      rfl
    · rw [heq]
      refine hbays.trans ?_
      unfold State.spinPower
      rw [if_neg (by rw [hst]; exact Bool.false_ne_true), ← hu]
      rfl
    · rw [heq]; exact hqueue
    · rw [heq, ← hu]; rfl
    · rw [heq]; exact hnotice
    · rw [heq, ← hu]; rfl
  · intro s p units e hp hs hspin hcom hm hq hadopt
    obtain ⟨t, hexec, hself, hunits, hover, hothers, hstate, _, htables⟩ := completes_driveReady hp hs hq
      (.inl ⟨MemberState.whole_active, by rw [hm]; exact MemberState.whole_spinningUp⟩)
      (exec_driveReady_of_spinning (units := units) hspin hcom hm hadopt)
    exact ⟨t, hexec, hself, hunits, hover, hothers, hstate, htables⟩
  · intro s p units e a hp hs hspin hcom hm hq ha hpos hlab hn
    have hadopting : s.adopting p = true := by
      unfold State.adopting
      rw [ha]
      simp [hpos, hlab]
    exact completes_driveReady hp hs hq (.inr hadopting) (exec_driveReady_of_adopted hspin hcom hm ha hpos hn)
  · intro s p e hp hs hspin hatt hm hq hc hl
    have hexec : exec (.spinupTimeout p) s = .next (((s.spinAgain p e).setMember p .spinupWait).spinChanged.memberReported) := by
      change execSpinupTimeout p s = _
      unfold execSpinupTimeout
      rw [hspin]
      dsimp only [Option.getD_some]
      rw [if_pos hatt]
      unfold State.spinAgain State.onPwc
      dsimp only
      rw [hq]
      rfl
    have hlt : ((s.spinAgain p e).setMember p .spinupWait).spinningCount < s.spinningCount :=
      State.spinningCount_lt hp hm (by rw [State.member_setMember_same hp]; exact MemberState.noConfusion) fun q h =>
        (State.member_setMember_other hp h _).trans rfl
    obtain ⟨⟨ch', it', sa', fs', hset⟩, _, _⟩ := State.setMember_spec (s := s.spinAgain p e) hp .spinupWait
    have hfalls : ((s.spinAgain p e).setMember p .spinupWait).limitFalls = (s.spinAgain p e).setMember p .spinupWait :=
      if_neg fun h => by
        rw [hset] at h
        exact Nat.lt_irrefl _ (Nat.lt_of_lt_of_eq h.2 hl)
    unfold State.spinChanged at hexec
    rw [hfalls] at hexec
    obtain ⟨⟨ch, pw, ln, heq, hspinning, _⟩, hself, _, hothers⟩ :=
      State.spinupStarts (s := s.spinAgain p e) (p := p) (e := { position := p, attempt := 2, fromOff := e.fromOff }) rfl hp
        (State.settled_congr hs rfl rfl rfl rfl fun _ => rfl) rfl (by
          rw [show (s.spinAgain p e).member p = _ from hm]; exact MemberState.whole_spinningUp)
        (Nat.lt_of_lt_of_le hlt hc)
    refine ⟨_, hexec, hself, ?_, hothers, ?_⟩
    · rw [heq]
      show pw.spinning[p]? = _
      rw [hspinning, Vector.getElem?_setIfInBounds, if_pos rfl, if_pos hp]
      simp [SpinEntry.begun]
    · rw [heq]; rfl
  · intro s p b e hcalm hspin hatt hb hbay
    have hexec : exec (.spinupTimeout p) s = .next (s.failMember p .spinup) := by
      change execSpinupTimeout p s = _
      unfold execSpinupTimeout
      rw [hspin]
      exact congrArg Host.Outcome.next (if_neg hatt)
    obtain ⟨hlost, htables, hmem, _, hbays⟩ := State.failMember_memberLost hcalm .spinup
    refine ⟨_, hexec, hlost, ?_, htables, hmem⟩
    rw [State.bay_of_bays hbays, State.memberBayOff_of_bay hbay, State.bay_bayOff_same hb]

end Sys2Proof.Machine

/-! # Proofs: Containers: memory errors, chunk reads and relocation -/

namespace Sys2Proof.Machine

/-! ## Container records and stripe buffers in error (R76, R182) -/

theorem State.wordRewritten_mec_bad (s : State) (rs : List Region) : (s.wordRewritten rs).mec.bad = s.mec.bad := by
  unfold State.wordRewritten
  split
  · unfold State.reportTakenOf State.onMec
    dsimp only [State.onTables]
    split <;> rfl
  · rfl

theorem State.wordBad_wordRewritten {s : State} {rs : List Region} {w : Nat} (h : s.wordBad w = false) :
    (s.wordRewritten rs).wordBad w = false := by
  unfold State.wordBad at h ⊢
  rw [Bool.or_eq_false_iff] at h ⊢
  rw [State.wordRewritten_mec_bad]
  refine ⟨h.1, ?_⟩
  simp only [List.contains_eq_mem, decide_eq_false_iff_not] at h ⊢
  exact fun hm => h.2 (State.bad_wordRewritten hm)

theorem State.recordBad_wordRewritten {s : State} {rs : List Region} {c : Nat} (h : s.recordBad c = false) :
    (s.wordRewritten rs).recordBad c = false := by
  have hat : (s.wordRewritten rs).tables.contAt c = s.tables.contAt c := by rw [State.wordRewritten_eq]; rfl
  unfold State.recordBad at h ⊢
  dsimp only at h ⊢
  rw [hat]
  rw [Bool.and_eq_false_iff] at h ⊢
  simp only [Bool.or_eq_false_iff] at h ⊢
  exact h.imp (fun ⟨h₁, h₂⟩ => ⟨State.wordBad_wordRewritten h₁, State.wordBad_wordRewritten h₂⟩)
    fun ⟨h₁, h₂⟩ => ⟨State.wordBad_wordRewritten h₁, State.wordBad_wordRewritten h₂⟩

theorem State.recordsBad_of_none {s : State} (h : ∀ c < s.containerCount, s.recordBad c = false) : s.recordsBad = [] := by
  unfold State.recordsBad
  split
  · rfl
  · rw [List.filter_eq_nil_iff]
    intro c hc
    rw [h c (List.mem_range.1 hc)]
    exact Bool.false_ne_true

/-- The two lists after they have been rebuilt from the table (R182). -/
def State.withFreeListed (s : State) : State :=
  s.onTables fun t => t.setLists [] ((List.range s.containerCount).filter fun c => (s.cont c).isNone)

theorem State.rebuildLists_of_good {s : State} (h : s.recordsBad = []) :
    s.rebuildLists = s.withFreeListed.needCheckpoint := by
  unfold State.rebuildLists
  rw [h]
  rfl

theorem State.needCheckpoint_tables (s : State) : s.needCheckpoint.tables = s.tables := by
  unfold State.needCheckpoint; split <;> rfl

theorem State.needCheckpoint_needed {s : State} (hf : s.tables.freeList = []) (hq : s.tables.quarantine ≠ []) :
    s.needCheckpoint.ctm.checkpointNeeded = true := by
  unfold State.needCheckpoint
  split
  · rfl
  · rename_i h
    cases hn : s.ctm.checkpointNeeded with
    | true => rfl
    | false => exact absurd ⟨hf, hq, hn⟩ h

theorem exec_linkError_of_good {s : State} {n : Nat} {a : ArrayRec} (hu : s.inUse = true) (ha : s.tables.array = some a)
    (hgood : ∀ c < a.containers, s.recordBad c = false) :
    exec (.containerRecordError (.link n) true) s =
      .next (s.wordRewritten [.containers]).withFreeListed.needCheckpoint := by
  refine congrArg Host.Outcome.next ((if_neg ?_).trans (State.rebuildLists_of_good (State.recordsBad_of_none ?_)))
  · rintro (h | h)
    · exact Bool.noConfusion h
    · exact Bool.noConfusion (hu.symm.trans h)
  · intro c hc
    refine State.recordBad_wordRewritten (hgood c ?_)
    have hcount : (s.wordRewritten [.containers]).containerCount = a.containers := by
      rw [State.wordRewritten_eq]
      show ((if s.inUse then s.tables.array else none).map fun a => a.containers).getD 0 = _
      rw [hu, ha]; rfl
    exact hcount ▸ hc

theorem exec_stripeBufferWordError_of_chunk {s : State} {k offset c h off : Nat} {f : Fp} {moved : Bool}
    (hb : s.buffer k = some { container := c, places := [.chunk moved h f off] })
    (hword : offset / 8 * 8 < s.layout.chunkSpace) (hfirst : off < offset / 8 * 8 + 8)
    (hlast : offset / 8 * 8 < off + fpLength f) :
    exec (.stripeBufferWordError k offset) s = .next ((s.reportTaken .stripes).idxDamage h f) := by
  change execStripeBufferWordError k offset s = _
  unfold execStripeBufferWordError
  dsimp only
  rw [show (s.reportTaken .stripes).buffer k = _ from hb]
  dsimp only
  rw [if_pos (by exact hword)]
  exact congrArg Host.Outcome.next (if_pos ⟨hfirst, hlast⟩)

/-- Settles O37. -/
theorem containerMemoryErrors : Obligations.ContainerMemoryErrors := by
  unfold Obligations.ContainerMemoryErrors
  refine ⟨?_, ?_, ?_⟩
  · intro s k offset c h off f e moved _ hb hword hfirst hlast hl he hf
    have hdamage : (s.reportTaken .stripes).idxDamage h f = _ :=
      (State.idxDamage_of_entry (s := s.reportTaken .stripes) hl he).trans (if_pos hf)
    refine ⟨_, (exec_stripeBufferWordError_of_chunk hb hword hfirst hlast).trans (congrArg _ hdamage), rfl, rfl, rfl⟩
  · intro s w
    have hexec : exec (.containerRecordError w false) s = .next (s.wordRewritten [.containers]) :=
      congrArg Host.Outcome.next (if_pos (.inl rfl))
    exact ⟨_, hexec, s.wordRewritten_eq _, fun w hw => State.bad_wordRewritten hw⟩
  · intro s n a hu ha hgood
    have hcount : s.containerCount = a.containers := by
      show ((if s.inUse then s.tables.array else none).map fun a => a.containers).getD 0 = _
      rw [hu, ha]; rfl
    have htables : (s.wordRewritten [.containers]).withFreeListed.needCheckpoint.tables = _ := State.needCheckpoint_tables _
    have hlists : (s.wordRewritten [.containers]).withFreeListed.tables.quarantine =
        (List.range a.containers).filter fun c => (s.cont c).isNone := by
      rw [State.wordRewritten_eq, ← hcount]; rfl
    refine ⟨_, exec_linkError_of_good hu ha hgood, ?_, ?_, ?_, ?_⟩
    · rw [htables]; rfl
    · rw [htables, hlists]
    · rw [htables, State.wordRewritten_eq]; rfl
    · rintro ⟨c, hc, hfree⟩
      refine State.needCheckpoint_needed rfl ?_
      rw [hlists]
      exact List.ne_nil_of_mem (List.mem_filter.2 ⟨List.mem_range.2 hc, by rw [hfree]; rfl⟩)

/-! ## Chunk reads that begin (R87) -/

theorem exec_chunkRead_of_found {s : State} {req : ChunkReq} {st : EntryState} {f : Fp} {c off : Nat} {v : Container}
    (hr : req ∈ s.ctm.chunkReqs) (hf : s.ctm.state ≠ .failed) (hl : s.tables.locate req.handle = .found st f c off)
    (hc : s.cont c = some v) (hk : s.keptBuffer req.who = none) : exec (.chunkRead req) s =
      .next ((s.onCtm fun m => { m with chunkReqs := m.chunkReqs.erase req }).newRead (.chunk req.who) (some req.handle)
        req.cls c off (fpLength req.fp) (.chunk req.fp)) := by
  change execChunkRead req s = _
  unfold execChunkRead
  rw [if_pos (List.contains_iff_mem.2 hr)]
  dsimp only
  rw [if_neg hf, hl]
  dsimp only
  rw [if_pos (by rw [hc]; rfl)]
  unfold State.readChunkAt
  rw [show (s.onCtm fun m => { m with chunkReqs := m.chunkReqs.erase req }).keptBuffer req.who = none from hk]

theorem exec_chunkRead_of_lost {s : State} {req : ChunkReq} {f : Option Fp} (hr : req ∈ s.ctm.chunkReqs)
    (hf : s.ctm.state ≠ .failed) (hl : s.tables.locate req.handle = .dataLost f) : exec (.chunkRead req) s =
      .next ((s.onCtm fun m => { m with chunkReqs := m.chunkReqs.erase req }).reportChunk req.who (.dataLost none)) := by
  change execChunkRead req s = _
  unfold execChunkRead
  rw [if_pos (List.contains_iff_mem.2 hr)]
  dsimp only
  rw [if_neg hf, hl]

/-! ## Units that come back (R87 to R89) -/

/-- No report asks for the recovery of a container. -/
def noRecovery (rs : List ReadReport) : Prop := ∀ rep ∈ rs, rep.who.recovers = none

theorem noRecovery_append {rs : List ReadReport} {rep : ReadReport} (h : noRecovery rs) (hr : rep.who.recovers = none) :
    noRecovery (rs ++ [rep]) := fun r hm => by
  rcases List.mem_append.1 hm with hm | hm
  · exact h r hm
  · rw [List.mem_singleton.1 hm]; exact hr

theorem State.recoverRead_of_none {s : State} (h : noRecovery s.ctm.reports) : s.recoverRead = s := by
  have hnone : (s.reportFor fun w => w.recovers.isSome) = none :=
    List.find?_eq_none.2 fun r hr => by dsimp only; rw [h r hr]; exact Bool.false_ne_true
  unfold State.recoverRead
  rw [hnone]

theorem exec_unitReadDone_of_back {s t : State} {id : Nat} {j : ReadJob} {who : ReadBy} {bad : Bool}
    (hj : s.readJob id = some j) (hw : j.who = .chunk who) (hb : s.readBack j = true) (ht : s.advanceRead j bad = t)
    (hr : noRecovery t.ctm.reports) : exec (.unitReadDone id bad) s = .next t := by
  change execUnitReadDone id bad s = _
  unfold execUnitReadDone
  rw [hj]
  dsimp only
  rw [hw]
  dsimp only
  rw [if_pos hb, ht, State.recoverRead_of_none hr]

/-- The parts that their reads have shown to be unavailable (R89). -/
def newlyDegraded (parts old : List Part) : List Nat :=
  (List.range parts.length).filter fun k =>
    match parts[k]?, old[k]? with
    | some p, some q => p.degraded && !q.degraded
    | _, _ => false

theorem mem_newlyDegraded {parts old : List Part} {k : Nat} (h : k ∈ newlyDegraded parts old) :
    ∃ p q, parts[k]? = some p ∧ old[k]? = some q ∧ p.degraded = true ∧ q.degraded = false := by
  have hk := (List.mem_filter.1 h).2
  cases hp : parts[k]? with
  | none => rw [hp] at hk; exact absurd hk Bool.false_ne_true
  | some p =>
    cases hq : old[k]? with
    | none => rw [hp, hq] at hk; exact absurd hk Bool.false_ne_true
    | some q =>
      rw [hp, hq] at hk
      simp only [Bool.and_eq_true, Bool.not_eq_true'] at hk
      exact ⟨p, q, rfl, rfl, hk.1, hk.2⟩

theorem newlyDegraded_of_same {parts old : List Part} (h : parts.map (fun p => p.degraded) = old.map fun p => p.degraded) :
    newlyDegraded parts old = [] := by
  refine List.eq_nil_iff_forall_not_mem.2 fun k hk => ?_
  obtain ⟨p, q, hp, hq, hpd, hqd⟩ := mem_newlyDegraded hk
  have hmap := congrArg (fun l : List Bool => l[k]?) h
  simp only [List.getElem?_map, hp, hq, Option.map_some, hpd, hqd] at hmap
  exact absurd hmap (by simp)

theorem newlyDegraded_of_none {parts old : List Part} (h : ∀ p ∈ parts, p.degraded = false) : newlyDegraded parts old = [] := by
  refine List.eq_nil_iff_forall_not_mem.2 fun k hk => ?_
  obtain ⟨p, q, hp, _, hpd, _⟩ := mem_newlyDegraded hk
  rw [h p (List.mem_of_getElem? hp)] at hpd
  exact Bool.false_ne_true hpd

/-- What a read does with its units, once they have come back (R87 to R89). -/
def State.readUnitsBack (s : State) (j : ReadJob) (parts : List Part) : State :=
  let newly := newlyDegraded parts j.parts
  let lost := parts.filter fun p => p.degraded
  let j := { j with parts := parts }
  if (parts.any fun p => p.failed) = true then s.readLost j none
  else if newly.isEmpty then
    match gathered parts with
    | some bs => s.checkRead j bs
    | none => s.readLost j none
  else if 2 ≤ lost.length ∨
      (newly.any fun k => (parts[k]?.map fun p => !s.othersAvailable j.container p.unit).getD true) = true then
    (s.countDegraded newly.length).readLost j none
  else ((s.countDegraded newly.length).reportReconstructing j).submitParts j newly

theorem State.advanceRead_of_units {s : State} {j : ReadJob} (hp : j.phase = .reading) (hb : j.buffered = none)
    (hf : s.ctm.state ≠ .failed) : s.advanceRead j false =
      (s.dropReturned (readJobIs j.id)).readUnitsBack j (partsBack j (s.returned (readJobIs j.id))) := by
  obtain ⟨id, who, handle, cls, container, offset, length, check, phase, parts, out, reread, buffered⟩ := j
  dsimp only at hp hb
  subst hp hb
  unfold State.advanceRead
  dsimp only
  rw [if_neg Bool.false_ne_true, if_neg (by exact hf)]
  rfl

theorem State.readUnitsBack_of_failed {s : State} {j : ReadJob} {parts : List Part} (h : ∃ p ∈ parts, p.failed = true) :
    s.readUnitsBack j parts = s.readLost { j with parts := parts } none :=
  if_pos (List.any_eq_true.2 h)

theorem any_failed_eq_false {parts : List Part} (h : ∀ p ∈ parts, p.failed = false) :
    (parts.any fun p => p.failed) = false :=
  List.any_eq_false.2 fun p hp => by rw [h p hp]; exact Bool.false_ne_true

theorem State.readUnitsBack_of_gathered {s : State} {j : ReadJob} {parts : List Part} {bs : List Byte}
    (hfail : ∀ p ∈ parts, p.failed = false) (hn : newlyDegraded parts j.parts = []) (hg : gathered parts = some bs) :
    s.readUnitsBack j parts = s.checkRead { j with parts := parts } bs := by
  unfold State.readUnitsBack
  dsimp only
  rw [if_neg (by rw [any_failed_eq_false hfail]; exact Bool.false_ne_true), hn, if_pos (by rfl), hg]

theorem readGoesOn_of_chunk {s : State} {j : ReadJob} {f : Fp} (h : j.check = .chunk f) (bs : List Byte) :
    s.readGoesOn j bs = false := by
  unfold State.readGoesOn State.fullLength
  rw [h]
  simp

theorem State.repairErrors_of_none {s : State} {j : ReadJob} (h : ∀ p ∈ j.parts, p.byError = false) : s.repairErrors j = s :=
  foldl_of_fixed (fun p hp s => by rw [h p hp]; rfl) s

theorem State.checkRead_of_pass {s : State} {j : ReadJob} {f : Fp} {bs : List Byte} (hc : j.check = .chunk f)
    (hm : matchesFp f bs = true) (he : ∀ p ∈ j.parts, p.byError = false) : s.checkRead j bs = s.answerRead j (.bytes bs) := by
  unfold State.checkRead
  rw [if_pos (by rw [hc]; exact hm), State.repairErrors_of_none he]

theorem State.checkRead_of_mismatch {s : State} {j : ReadJob} {f : Fp} {bs : List Byte} (hc : j.check = .chunk f)
    (hm : matchesFp f bs = false) : s.checkRead j bs =
      if j.buffered.isSome ∨ (j.parts.any fun p => p.degraded) = true then s.readLost j (some bs)
      else (s.reportReconstructing j).reconFrom j j.parts.length 0 := by
  unfold State.checkRead
  rw [if_neg (by rw [hc]; exact (Bool.false_ne_true <| hm.symm.trans ·)), readGoesOn_of_chunk hc, if_neg Bool.false_ne_true]

/-- A chunk read's end: the job is gone, its report stands, and of the tables only the container that it read from, with the lists,
has changed (R87). -/
theorem State.answerRead_spec {s : State} (hq : s.mec.bufferQueue = []) (j : ReadJob) (a : ReadAnswer) :
    ∃ cs q b d le, s.answerRead j a = { s with
      tables := { s.tables with containers := cs, quarantine := q, bad := b },
      ctm := { s.ctm with
        deferred := d, reads := setKey s.ctm.reads j.id none,
        reports := s.ctm.reports ++ [{ job := j.id, who := j.who, answer := a }] },
      mec := { s.mec with lent := le } } := by
  obtain ⟨le, h⟩ := State.answerRead_eq hq j a
  obtain ⟨cs, q, b, d, hlow⟩ := s.readLower_eq j.container
  exact ⟨cs, q, b, d, le, by rw [h, hlow]; rfl⟩

theorem State.cont_answerRead_of_live {s : State} (hq : s.mec.bufferQueue = []) {j : ReadJob} {v : Container}
    (hv : s.cont j.container = some v) (hl : v.live ≠ 0) (hk : v.kind = .data) (a : ReadAnswer) :
    (s.answerRead j a).cont j.container = some { v with reads := v.reads - 1 } := by
  obtain ⟨le, h⟩ := State.answerRead_eq hq j a
  have hlow : s.readLower j.container = s.setCont j.container (some { v with reads := v.reads - 1 }) := by
    unfold State.readLower
    rw [State.modCont_of_cont hv, State.testFree_of_held (State.cont_setCont_same ..)]
    rw [Container.not_spent_of_live (v := { v with reads := v.reads - 1 }) hk hl]; rfl
  rw [h]
  show (s.readLower j.container).cont j.container = _
  rw [hlow]
  exact State.cont_setCont_same ..

theorem getKey_setKey_same {α : Type} (m : Assoc α) (k : Nat) (v : Option α) : getKey (setKey m k v) k = v :=
  (getKey_setKey m k k v).trans (if_pos rfl)

theorem State.readLost_eq {s : State} {j : ReadJob} {h : Nat} {f : Fp} (hh : j.handle = some h) (hc : j.check = .chunk f)
    (a : Option (List Byte)) : s.readLost j a =
      ((s.idxDamage h f).onCtm fun m => { m with dataLost := tallyUp 11 m.dataLost }).answerRead j (.dataLost a) := by
  unfold State.readLost
  rw [hh, hc]

/-- A chunk read that is lost: the outcome of R88. -/
theorem State.readLost_readLost {s : State} {j : ReadJob} {id h : Nat} {f : Fp} {e : IdxEntry} {who : ReadBy}
    (hq : s.mec.bufferQueue = []) (hid : j.id = id) (hw : j.who = .chunk who) (hc : j.check = .chunk f) (hh : j.handle = some h)
    (hl : s.tables.lostPart h = false) (he : s.tables.entry h = some e) (hf : e.fp = f) (a : Option (List Byte)) :
    s.ReadLost (s.readLost j a) id who h e a := by
  subst hid
  rw [State.readLost_eq hh hc, (State.idxDamage_of_entry hl he).trans (if_pos hf)]
  generalize hu : State.onCtm _ _ = u
  have htables : u.tables = s.tables.setEntry h (some { e with state := .damaged }) := by rw [← hu]; rfl
  obtain ⟨cs, q, b, d, le, hans⟩ := State.answerRead_spec (s := u) (by rw [← hu]; exact hq) j (.dataLost a)
  rw [hans]
  refine ⟨getKey_setKey_same u.ctm.reads j.id none, ?_, fun p hp => ?_, ?_, ?_, ?_⟩
  · show u.tables.entry h = _
    rw [htables]
    exact Tables.entry_setEntry_of_entry he _
  · show getKey u.tables.entries p = _
    rw [htables]
    exact Tables.getKey_setEntry_other _ hp _
  · rw [← hu]; rfl
  · rw [← hu, hw]; rfl
  · rw [← hu]; rfl

/-! ## Reconstruction (R88) -/

/-- The reads of the other members of a unit's stripe, from which it is rebuilt (R88). -/
def State.othersReads (s : State) (j : ReadJob) (k : Nat) (p : Part) : List (Nat × Op) :=
  (s.others (dataMember s.nMembers j.container p.unit)).map fun q =>
    (q, readOp j.cls j.container p.start p.len j.who.requester (.unitRead j.id k q))

theorem dataMember_lt {n : Nat} (hn : n ≠ 0) (c k : Nat) : dataMember n c k < n := Nat.mod_lt _ (Nat.pos_of_ne_zero hn)

theorem State.length_others (s : State) (c unit : Nat) :
    (s.others (dataMember s.nMembers c unit)).length = s.nMembers - 1 := by
  unfold State.others State.positions
  by_cases hn : s.nMembers = 0
  · rw [hn]; rfl
  · have hmem := List.mem_range.2 (dataMember_lt hn c unit)
    have herase : ((List.range s.nMembers).filter fun q => decide (q ≠ dataMember s.nMembers c unit)) =
        (List.range s.nMembers).erase (dataMember s.nMembers c unit) := by
      rw [List.nodup_range.erase_eq_filter]
      exact List.filter_congr fun q _ => by by_cases h : q = dataMember s.nMembers c unit <;> simp [h]
    rw [herase, List.length_erase_of_mem hmem, List.length_range]

theorem State.length_othersReads (s : State) (j : ReadJob) (k : Nat) (p : Part) :
    (s.othersReads j k p).length = s.nMembers - 1 := by
  unfold State.othersReads
  rw [List.length_map, State.length_others]

/-- A part whose stripe has its other units in hand is rebuilt from them (R88). -/
theorem State.reconFrom_of_available {s : State} {j : ReadJob} {p : Part} {k : Nat} (hp : j.parts[k]? = some p)
    (ho : s.othersAvailable j.container p.unit = true) (n : Nat) : s.reconFrom j (n + 1) k =
      (s.setReadJob j.id (some { j with phase := .recon k, out := s.nMembers - 1 })).submitAll (s.othersReads j k p) := by
  rw [← s.length_othersReads j k p]
  unfold State.reconFrom
  rw [hp]
  dsimp only
  rw [if_pos ho]
  rfl

theorem State.reconFrom_of_past {s : State} {j : ReadJob} {k : Nat} (hp : j.parts[k]? = none) (n : Nat) :
    s.reconFrom j n k = s.readLost j (gathered j.parts) := by
  cases n with
  | zero => rfl
  | succ n => unfold State.reconFrom; rw [hp]

/-- A reconstruction whose part has come back and whose bytes match delivers them and has the unit written back (R88). -/
theorem State.advanceRead_of_rebuilt {s : State} {j : ReadJob} {f : Fp} {k : Nat} {p : Part} {fix bs : List Byte}
    (hph : j.phase = .recon k) (hc : j.check = .chunk f) (hf : s.ctm.state ≠ .failed) (hp : j.parts[k]? = some p)
    (hr : partResult (s.returned (readJobIs j.id)) k p.len true = some fix)
    (hg : gathered (j.parts.set k { p with got := some fix }) = some bs) : s.advanceRead j false =
      if matchesFp f bs = true then
        ((s.dropReturned (readJobIs j.id)).queueRepair j.container p.unit p.start fix).answerRead j (.bytes bs)
      else (s.dropReturned (readJobIs j.id)).reconFrom j j.parts.length (k + 1) := by
  have hon := readGoesOn_of_chunk (s := s.dropReturned (readJobIs j.id)) hc bs
  unfold State.advanceRead
  dsimp only
  rw [if_neg Bool.false_ne_true, if_neg (by exact hf), hph]
  dsimp only
  rw [if_neg Bool.false_ne_true, hp]
  dsimp only
  rw [hr]
  dsimp only
  rw [hg]
  dsimp only
  rw [hc]
  split
  · rename_i h; exact (if_pos h).symm
  · rename_i h
    rw [hon, if_neg Bool.false_ne_true]
    exact (if_neg h).symm

/-! ## Units served degraded (R89) -/

theorem State.submitParts_of_degraded {s : State} {j : ReadJob} {k : Nat} {p : Part} (hp : j.parts[k]? = some p)
    (hf : p.failed = false) (hd : p.degraded = true) : s.submitParts j [k] =
      (s.setReadJob j.id (some { j with out := s.nMembers - 1 })).submitAll (s.othersReads j k p) := by
  have hreads : s.partReads j k p = s.othersReads j k p := by
    unfold State.partReads
    dsimp only
    rw [if_pos hd]
    rfl
  unfold State.submitParts
  simp only [List.map_cons, List.map_nil, hp]
  rw [if_neg (by rw [hf]; exact Bool.false_ne_true), List.flatten_cons, List.flatten_nil, List.append_nil, hreads,
    State.length_othersReads]

theorem unit_of_partsBack {j : ReadJob} {rs : List Returned} {k : Nat} {p q : Part} (hq : (partsBack j rs)[k]? = some q)
    (hp : j.parts[k]? = some p) : q.unit = p.unit := by
  have hk : k < j.parts.length := (List.getElem?_eq_some_iff.1 hp).1
  unfold partsBack at hq
  rw [List.getElem?_map, List.getElem?_range hk, Option.map_some, hp] at hq
  dsimp only at hq
  split at hq
  · rw [Option.some.inj hq]
  · split at hq
    · rw [← Option.some.inj hq]
    · split at hq
      · rw [← Option.some.inj hq]
      · rw [← Option.some.inj hq]

/-- Where one part alone is served degraded, and was not before, it is the one newly degraded and the one degraded. -/
theorem newlyDegraded_of_one {parts old : List Part} {k : Nat} {p q : Part} (hq : parts[k]? = some q) (hp : old[k]? = some p)
    (hqd : q.degraded = true) (hpd : p.degraded = false) (ho : ∀ x ∈ parts.eraseIdx k, x.degraded = false) :
    newlyDegraded parts old = [k] ∧ (parts.filter fun x => x.degraded) = [q] := by
  obtain ⟨hk, hqk⟩ := List.getElem?_eq_some_iff.1 hq
  refine ⟨filter_range_of_one (List.mem_range.2 hk) fun i hi => ?_, ?_⟩
  · by_cases h : i = k
    · subst h
      rw [hq, hp]
      simp [hqd, hpd]
    · have hx := List.getElem?_eq_getElem (List.mem_range.1 hi)
      have hnot : (parts[i]'(List.mem_range.1 hi)).degraded = false :=
        ho _ (List.mem_eraseIdx_iff_getElem?.2 ⟨i, h, hx⟩)
      rw [hx]
      cases old[i]? with
      | none => simp [h]
      | some y => simp [h, hnot]
  · rw [List.eraseIdx_eq_take_drop_succ] at ho
    have hsplit : parts = parts.take k ++ q :: parts.drop (k + 1) := by
      rw [← hqk, ← List.drop_eq_getElem_cons, List.take_append_drop]
    have htake : ((parts.take k).filter fun x => x.degraded) = [] := List.filter_eq_nil_iff.2 fun x hx => by
      rw [ho x (List.mem_append_left _ hx)]; exact Bool.false_ne_true
    have hdrop : ((parts.drop (k + 1)).filter fun x => x.degraded) = [] := List.filter_eq_nil_iff.2 fun x hx => by
      rw [ho x (List.mem_append_right _ hx)]; exact Bool.false_ne_true
    rw [hsplit, List.filter_append, htake, List.filter_cons, if_pos hqd, hdrop]
    rfl

/-- One unit that proves unavailable has the units of its stripe's other members read instead (R89). -/
theorem State.readUnitsBack_of_one {s : State} {j : ReadJob} {parts : List Part} {k : Nat} {p q : Part}
    (hfail : ∀ x ∈ parts, x.failed = false) (hq : parts[k]? = some q) (hp : j.parts[k]? = some p) (hqd : q.degraded = true)
    (hpd : p.degraded = false) (ho : ∀ x ∈ parts.eraseIdx k, x.degraded = false)
    (hav : s.othersAvailable j.container q.unit = true) : s.readUnitsBack j parts =
      ((s.countDegraded 1).reportReconstructing { j with parts := parts }).submitParts { j with parts := parts } [k] := by
  obtain ⟨hnewly, hlost⟩ := newlyDegraded_of_one hq hp hqd hpd ho
  unfold State.readUnitsBack
  dsimp only
  rw [if_neg (by rw [any_failed_eq_false hfail]; exact Bool.false_ne_true), hnewly, hlost, if_neg (by exact Bool.false_ne_true), if_neg]
  · rfl
  · rintro (h | h)
    · exact absurd h (Nat.not_le.2 Nat.one_lt_two)
    · rw [List.any_cons, List.any_nil, hq, Option.map_some, Option.getD_some, hav] at h
      exact Bool.false_ne_true h

/-- The reports that CTM makes to the asker of a chunk read once a reconstruction or a degraded read has begun (R128). -/
def reconstructingReports (id : Nat) : ReadBy → List ReadReport
  | .stream i n => [{ job := id, who := .chunk (.stream i n), answer := .reconstructing }]
  | .verify _ _ => []

theorem State.reportReconstructing_reports {s : State} {j : ReadJob} {who : ReadBy} (hw : j.who = .chunk who) :
    (s.reportReconstructing j).ctm.reports = s.ctm.reports ++ reconstructingReports j.id who := by
  unfold State.reportReconstructing
  rw [hw]
  cases who with
  | stream i n => rfl
  | verify i n => exact (List.append_nil _).symm

theorem noRecovery_reconstructing {rs : List ReadReport} (h : noRecovery rs) (id : Nat) (who : ReadBy) :
    noRecovery (rs ++ reconstructingReports id who) := by
  cases who with
  | stream i n => exact noRecovery_append h rfl
  | verify i n => exact (List.append_nil rs).symm ▸ h

/-- What submitting the reads of the other units of a stripe leaves: the job waits for them, and the tables and the memory stand. -/
theorem State.rebuilding_spec (s : State) (j : ReadJob) (ops : List (Nat × Op)) :
    ((s.setReadJob j.id (some j)).submitAll ops).readJob j.id = some j ∧
    ((s.setReadJob j.id (some j)).submitAll ops).ctm = (s.setReadJob j.id (some j)).ctm ∧
    ((s.setReadJob j.id (some j)).submitAll ops).tables = s.tables ∧
    ((s.setReadJob j.id (some j)).submitAll ops).mem = s.mem := by
  obtain ⟨ch, it, sa, rt, h⟩ := (s.setReadJob j.id (some j)).submitAll_frame ops
  rw [h]
  exact ⟨State.readJob_setReadJob_same .., rfl, rfl, rfl⟩

/-! ## Repair writes (R88) -/

theorem State.opValid_repair {s : State} {c start : Nat} {data : List Byte} (ha : s.arr.isSome = true) (hc : c < s.containerCount)
    (hl : 1 ≤ data.length) (hs : start + data.length ≤ unitSize) : s.opValid (writeOp .scrub c start data .ctm .repair) = true := by
  obtain ⟨a, ha⟩ := Option.isSome_iff_exists.1 ha
  have hcount : s.opContainers = s.containerCount := by
    unfold State.opContainers State.containerCount
    rw [ha]
    rfl
  show (decide (c < s.opContainers) && decide (1 ≤ data.length ∧ start + data.length ≤ unitSize)) = true
  rw [hcount]
  simp [hc, hl, hs]

theorem State.queueRepair_queue {s : State} {c unit start : Nat} {data : List Byte} (hd : dataMember s.nMembers c unit < 4)
    (hf : s.ctm.state ≠ .failed) (hm : s.member (dataMember s.nMembers c unit) = .active)
    (hq : (s.chan (dataMember s.nMembers c unit)).queue .scrub = [])
    (hw : (s.chan (dataMember s.nMembers c unit)).waitingFor .scrub = []) (hst : s.stalledAt .ctm .scrub = none)
    (ha : s.arr.isSome = true) (hc : c < s.containerCount) (hl : 1 ≤ data.length) (hs : start + data.length ≤ unitSize) :
    ((s.queueRepair c unit start data).chan (dataMember s.nMembers c unit)).queue .scrub =
      [writeOp .scrub c start data .ctm .repair] := by
  have hsub := State.submit_of_active (s := s.onCtm fun m => { m with repairs := tallyUp 10 m.repairs })
    (p := dataMember s.nMembers c unit) (o := writeOp .scrub c start data .ctm .repair) hf
    (State.opValid_repair (s := s) ha hc hl hs) hm hst
  obtain ⟨b, hchan⟩ := State.chan_enqueue_same (s := s.onCtm fun m => { m with repairs := tallyUp 10 m.repairs }) hd
    (writeOp .scrub c start data .ctm .repair)
  unfold State.queueRepair
  rw [hsub,
    show madeOp (writeOp .scrub c start data .ctm .repair) = writeOp .scrub c start data .ctm .repair from rfl, hchan]
  show ((s.chan (dataMember s.nMembers c unit)).enqueue (writeOp .scrub c start data .ctm .repair)).queue .scrub = _
  rw [Channel.enqueue_of_room hw (by show (Channel.queue _ Cls.scrub).length < 16; rw [hq]; decide)]
  refine (Channel.queue_setQueue ..).trans ((if_pos rfl).trans ?_)
  show (Channel.queue _ Cls.scrub) ++ _ = _
  rw [hq]
  rfl

theorem State.queueRepair_eq (s : State) (c unit start : Nat) (data : List Byte) : ∃ ch it sa rt,
    s.queueRepair c unit start data = { s with
      chans := ch, pwc := { s.pwc with idleTimers := it, standbyAsks := sa }, returns := rt,
      ctm := { s.ctm with repairs := tallyUp 10 s.ctm.repairs } } := by
  obtain ⟨ch, it, sa, rt, h⟩ := (s.onCtm fun m => { m with repairs := tallyUp 10 m.repairs }).submit_frame
    (dataMember s.nMembers c unit) (writeOp .scrub c start data .ctm .repair)
  exact ⟨ch, it, sa, rt, h⟩

/-- A chunk read whose bytes are delivered, by a state that differs from `s` in its channels alone (R87). -/
theorem completes_answered {s u : State} {c : Instr} {j : ReadJob} {who : ReadBy} {a : ReadAnswer}
    (hq : u.mec.bufferQueue = []) (hw : j.who = .chunk who) (hr : u.ctm.reports = s.ctm.reports)
    (he : u.tables.entries = s.tables.entries) (hm : u.mem = s.mem) (hexec : exec c s = .next (u.answerRead j a)) :
    Completes c s fun t => t = u.answerRead j a ∧ t.readJob j.id = none ∧ t.ctm.repairs = u.ctm.repairs ∧
      t.ctm.reports = s.ctm.reports ++ [{ job := j.id, who := .chunk who, answer := a }] ∧ t.chans = u.chans ∧
      t.returns = u.returns ∧ t.tables.entries = s.tables.entries ∧ t.mem = s.mem := by
  obtain ⟨cs, q, b, d, le, hans⟩ := State.answerRead_spec hq j a
  refine ⟨_, hexec, rfl, ?_, ?_, ?_, ?_, ?_, ?_, ?_⟩ <;> rw [hans]
  · exact getKey_setKey_same u.ctm.reads j.id none
  · rw [hr, hw]
  · exact he
  · exact hm

theorem State.advanceRead_reports {s : State} (hq : s.mec.bufferQueue = []) (j : ReadJob) (a : ReadAnswer) :
    (s.answerRead j a).ctm.reports = s.ctm.reports ++ [{ job := j.id, who := j.who, answer := a }] := by
  obtain ⟨cs, q, b, d, le, hans⟩ := State.answerRead_spec hq j a
  rw [hans]

theorem noRecovery_answered {s : State} {j : ReadJob} {who : ReadBy} (hq : s.mec.bufferQueue = []) (hw : j.who = .chunk who)
    (h : noRecovery s.ctm.reports) (a : ReadAnswer) : noRecovery (s.answerRead j a).ctm.reports := by
  rw [State.advanceRead_reports hq]
  exact noRecovery_append h (by rw [hw]; rfl)

theorem readLost_of_dropReturned {s t : State} {g : Job → Bool} {id h : Nat} {who : ReadBy} {e : IdxEntry}
    {a : Option (List Byte)} (hr : (s.dropReturned g).ReadLost t id who h e a) : s.ReadLost t id who h e a :=
  ⟨hr.ended, hr.damaged, hr.others, hr.counted, hr.answered, hr.memory⟩

/-- The units of a chunk read are back, and what it does with them is the command's outcome. -/
theorem exec_unitReadDone_of_units {s t : State} {id : Nat} {j : ReadJob} {who : ReadBy} {f : Fp} {phase : ReadPhase}
    (h : s.unitsReturned id j who f phase) (hp : phase ≠ .waiting) (ht : s.advanceRead j false = t)
    (hr : noRecovery t.ctm.reports) : exec (.unitReadDone id false) s = .next t := by
  obtain ⟨hj, hid, hw, _, hph, _, hout, _, _, _⟩ := h
  refine exec_unitReadDone_of_back hj hw ?_ ht hr
  unfold State.readBack
  rw [hph, hid]
  simp [hp, hout]

/-- A chunk read that is lost completes its command with the outcome of R88. -/
theorem completes_readLost {s u : State} {id h : Nat} {j j' : ReadJob} {who : ReadBy} {f : Fp} {phase : ReadPhase}
    {e : IdxEntry} {a : Option (List Byte)} (hu : s.unitsReturned id j who f phase) (hp : phase ≠ .waiting)
    (hread : s.advanceRead j false = u.readLost j' a) (hus : s.ReadLost (u.readLost j' a) id who h e a)
    : Completes (.unitReadDone id false) s fun t => s.ReadLost t id who h e a := by
  refine ⟨_, exec_unitReadDone_of_units hu hp hread ?_, hus⟩
  obtain ⟨_, _, _, _, _, _, _, _, _, hrec⟩ := hu
  rw [hus.answered]
  exact noRecovery_append hrec rfl

/-- A chunk read that goes on with the units of its stripe's other members (R88, R89). -/
theorem completes_rebuilding {s x : State} {id : Nat} {j j' : ReadJob} {who : ReadBy} {f : Fp} {ops : List (Nat × Op)}
    (hu : s.unitsReturned id j who f .reading) (hid : j'.id = id)
    (hread : s.advanceRead j false = (x.setReadJob j'.id (some j')).submitAll ops) (htables : x.tables = s.tables)
    (hmem : x.mem = s.mem) (hr : x.ctm.reports = s.ctm.reports ++ reconstructingReports id who) :
    Completes (.unitReadDone id false) s fun t => t.readJob id = some j' ∧ t.ctm.degradedReads = x.ctm.degradedReads ∧
      t.ctm.reports = s.ctm.reports ++ reconstructingReports id who ∧ t.tables = s.tables ∧ t.mem = s.mem := by
  obtain ⟨hjob, hctm, ht, hm⟩ := x.rebuilding_spec j' ops
  have hreports : ((x.setReadJob j'.id (some j')).submitAll ops).ctm.reports =
      s.ctm.reports ++ reconstructingReports id who := by rw [hctm]; exact hr
  refine ⟨_, exec_unitReadDone_of_units hu ReadPhase.noConfusion hread ?_, hid ▸ hjob, ?_, hreports, ht.trans htables,
    hm.trans hmem⟩
  · obtain ⟨_, _, _, _, _, _, _, _, _, hrec⟩ := hu
    rw [hreports]
    exact noRecovery_reconstructing hrec id who
  · rw [hctm]; rfl

theorem chunkRead_begins :
    ∀ (s : State) (req : ChunkReq) (st : EntryState) (f : Fp) (c off : Nat) (v : Container), req ∈ s.ctm.chunkReqs →
      s.ctm.state ≠ .failed → s.tables.locate req.handle = .found st f c off → s.cont c = some v →
      s.keptBuffer req.who = none →
      Completes (.chunkRead req) s fun t =>
        (∃ j, t.readJob s.ctm.nextRead = some j ∧ j.who = .chunk req.who ∧ j.container = c ∧ j.offset = off ∧
          j.length = fpLength req.fp ∧ j.check = .chunk req.fp) ∧
        t.cont c = some { v with reads := v.reads + 1 } ∧ (∀ d, d ≠ c → t.cont d = s.cont d) ∧
        t.ctm.nextRead = s.ctm.nextRead + 1 ∧ t.ctm.chunkReqs = s.ctm.chunkReqs.erase req ∧ t.mem = s.mem ∧
        t.tables.entries = s.tables.entries := by
  intro s req st f c off v hr hf hl hc hk
  obtain ⟨le, bq, rd, rp, dg, ch, it, sa, rt, hnew, k, hjob, hid, hwho, hhan, hcls, hcont, hoff, hlen, hchk⟩ :=
    (s.onCtm fun m => { m with chunkReqs := m.chunkReqs.erase req }).newRead_spec (.chunk req.who) (some req.handle)
      req.cls c off (fpLength req.fp) (.chunk req.fp)
  refine ⟨_, exec_chunkRead_of_found hr hf hl hc hk, ⟨k, hjob, hwho, hcont, hoff, hlen, hchk⟩, ?_, fun d hd => ?_, ?_, ?_, ?_, ?_⟩
  all_goals rw [hnew]
  · refine (State.cont_modCont _ c c _).trans ((if_pos rfl).trans ?_)
    exact congrArg (Option.map fun r : Container => { r with reads := r.reads + 1 }) hc
  · exact (State.cont_modCont _ c d _).trans (if_neg hd)
  · rfl
  · rfl
  · rfl
  · show (State.readRaise _ c).tables.entries = _
    rw [State.readRaise, State.modCont_eq]
    rfl

theorem chunkRead_dataLost :
    ∀ (s : State) (req : ChunkReq) (f : Option Fp), req ∈ s.ctm.chunkReqs → s.ctm.state ≠ .failed →
      s.tables.locate req.handle = .dataLost f →
      exec (.chunkRead req) s = .next { s with
        ctm := { s.ctm with
          chunkReqs := s.ctm.chunkReqs.erase req,
          reports := s.ctm.reports ++
            [{ job := s.ctm.nextRead, who := .chunk req.who, answer := .dataLost none }] } } := by
  intro s req f hr hf hl
  exact exec_chunkRead_of_lost hr hf hl

theorem read_from_buffer_delivered :
    ∀ (s : State) (id : Nat) (j : ReadJob) (who : ReadBy) (f : Fp) (bs : List Byte), s.readJob id = some j →
      j.id = id → j.who = .chunk who → j.phase = .reading → j.buffered = some bs → j.out = 0 → j.parts = [] →
      j.check = .chunk f → matchesFp f bs = true → s.ctm.state ≠ .failed → s.mec.bufferQueue = [] →
      (∀ rep ∈ s.ctm.reports, rep.who.recovers = none) →
      Completes (.unitReadDone id false) s fun t =>
        t.readJob id = none ∧
        t.ctm.reports = s.ctm.reports ++ [{ job := id, who := .chunk who, answer := .bytes bs }] ∧
        t.tables.entries = s.tables.entries ∧ t.mem = s.mem := by
  intro s id j who f bs hj hid hw hp hb hout hparts hc hm hf hq hrec
  subst hid
  have hread := State.advanceRead_of_buffered hb hp hparts hf (by rw [hc]; exact hm)
  have hback : s.readBack j = true := by
    unfold State.readBack
    rw [hp, hout]
    simp
  have hexec := exec_unitReadDone_of_back hj hw hback hread
    (noRecovery_answered (s := s.dropReturned (readJobIs j.id)) hq hw hrec (.bytes bs))
  obtain ⟨t, ht, _, hjob, _, hreports, _, _, hentries, hmem⟩ := completes_answered (s := s)
    (u := s.dropReturned (readJobIs j.id)) hq hw rfl rfl rfl hexec
  exact ⟨t, ht, hjob, hreports, hentries, hmem⟩

theorem read_gathered_delivered :
    ∀ (s : State) (id : Nat) (j : ReadJob) (who : ReadBy) (f : Fp) (bs : List Byte) (v : Container),
      s.unitsReturned id j who f .reading → gathered (partsBack j (s.returned (readJobIs id))) = some bs →
      (∀ p ∈ partsBack j (s.returned (readJobIs id)), p.failed = false ∧ p.byError = false) →
      ((partsBack j (s.returned (readJobIs id))).map fun p => p.degraded) = j.parts.map (fun p => p.degraded) →
      matchesFp f bs = true → s.cont j.container = some v → v.live ≠ 0 → v.kind = .data →
      Completes (.unitReadDone id false) s fun t =>
        t.readJob id = none ∧ t.returns = s.returns.filter (fun r => !readJobIs id r.op.job) ∧
        t.ctm.reports = s.ctm.reports ++ [{ job := id, who := .chunk who, answer := .bytes bs }] ∧
        t.cont j.container = some { v with reads := v.reads - 1 } ∧ t.tables.entries = s.tables.entries ∧
        t.chans = s.chans ∧ t.mem = s.mem := by
  intro s id j who f bs v hu hg hgood hdeg hm hv hlive hkind
  have hread := State.advanceRead_of_units hu.2.2.2.2.1 hu.2.2.2.2.2.1 hu.2.2.2.2.2.2.2.1
  have hu' := hu
  obtain ⟨hj, hid, hw, hc, hp, hb, hout, hf, hq, hrec⟩ := hu'
  subst hid
  have hpass := State.checkRead_of_pass (s := s.dropReturned (readJobIs j.id)) (bs := bs)
    (j := { j with parts := partsBack j (s.returned (readJobIs j.id)) }) hc hm fun p hp => (hgood p hp).2
  rw [State.readUnitsBack_of_gathered (fun p hp => (hgood p hp).1) (newlyDegraded_of_same hdeg) hg, hpass] at hread
  have hexec := exec_unitReadDone_of_units hu ReadPhase.noConfusion hread (noRecovery_answered
    (s := s.dropReturned (readJobIs j.id)) (j := { j with parts := partsBack j (s.returned (readJobIs j.id)) })
    hq hw hrec (.bytes bs))
  obtain ⟨t, ht, heq, hjob, _, hreports, hchans, hreturns, hentries, hmem⟩ :=
    completes_answered (s := s) (u := s.dropReturned (readJobIs j.id))
      (j := { j with parts := partsBack j (s.returned (readJobIs j.id)) }) hq hw rfl rfl rfl hexec
  refine ⟨t, ht, hjob, hreturns, hreports, ?_, hentries, hchans, hmem⟩
  rw [heq]
  exact State.cont_answerRead_of_live (s := s.dropReturned (readJobIs j.id)) 
    (j := { j with parts := partsBack j (s.returned (readJobIs j.id)) }) hq hv hlive hkind _

theorem read_served_degraded :
    ∀ (s : State) (id : Nat) (j : ReadJob) (who : ReadBy) (f : Fp) (k : Nat) (p : Part) (qs : List Part),
      s.unitsReturned id j who f .reading → qs = partsBack j (s.returned (readJobIs id)) → (∀ q ∈ qs, q.failed = false) →
      j.parts[k]? = some p → p.degraded = false → (qs[k]?.map fun q => q.degraded) = some true →
      (∀ q ∈ qs.eraseIdx k, q.degraded = false) → s.othersAvailable j.container p.unit = true →
      Completes (.unitReadDone id false) s fun t =>
        t.readJob id = some { j with parts := qs, out := s.nMembers - 1 } ∧
        t.ctm.degradedReads = tallyUp 9 s.ctm.degradedReads ∧
        t.ctm.reports = s.ctm.reports ++ (match who with
          | .stream _ _ => [{ job := id, who := .chunk who, answer := .reconstructing }]
          | .verify _ _ => []) ∧
        t.tables = s.tables ∧ t.mem = s.mem := by
  intro s id j who f k p qs hu hqs hfail hp hpd hqd hothers hav
  subst hqs
  have hread := State.advanceRead_of_units hu.2.2.2.2.1 hu.2.2.2.2.2.1 hu.2.2.2.2.2.2.2.1
  obtain ⟨q, hq, hqd⟩ := Option.map_eq_some_iff.1 hqd
  have hunit := unit_of_partsBack hq hp
  have hid := hu.2.1
  rw [hid, State.readUnitsBack_of_one hfail hq hp hqd hpd hothers (by rw [hunit]; exact hav),
    State.submitParts_of_degraded hq (hfail q (List.mem_of_getElem? hq)) hqd] at hread
  have heq := State.reportReconstructing_eq ((s.dropReturned (readJobIs id)).countDegraded 1)
    { j with parts := partsBack j (s.returned (readJobIs id)) }
  have hreports := State.reportReconstructing_reports (s := (s.dropReturned (readJobIs id)).countDegraded 1)
    (j := { j with parts := partsBack j (s.returned (readJobIs id)) }) hu.2.2.1
  generalize ((s.dropReturned (readJobIs id)).countDegraded 1).reportReconstructing _ = x at hread heq hreports
  have hn : x.nMembers = s.nMembers := by rw [heq]; rfl
  rw [hn] at hread
  obtain ⟨t, ht, hjob, hdegraded, hreports, htables, hmem⟩ := completes_rebuilding
    (j' := { j with parts := partsBack j (s.returned (readJobIs id)), out := s.nMembers - 1 }) hu hid hread (by rw [heq]; rfl)
    (by rw [heq]; rfl) (hreports.trans (by rw [hid]; rfl))
  refine ⟨t, ht, ?_, ?_, ?_, htables, hmem⟩
  · exact hjob
  · rw [hdegraded, heq]; rfl
  · cases who <;> exact hreports

theorem read_unit_lost :
    ∀ (s : State) (id : Nat) (j : ReadJob) (who : ReadBy) (f : Fp) (h : Nat) (e : IdxEntry),
      s.unitsReturned id j who f .reading → (∃ p ∈ partsBack j (s.returned (readJobIs id)), p.failed = true) →
      j.handle = some h → s.tables.lostPart h = false → s.tables.entry h = some e → e.fp = f →
      Completes (.unitReadDone id false) s fun t => s.ReadLost t id who h e none := by
  intro s id j who f h e hu hfail hh hl he hf
  have hread := State.advanceRead_of_units hu.2.2.2.2.1 hu.2.2.2.2.2.1 hu.2.2.2.2.2.2.2.1
  have hu' := hu
  obtain ⟨hj, hid, hw, hc, hp, hb, hout, hst, hq, hrec⟩ := hu'
  rw [hid, State.readUnitsBack_of_failed hfail] at hread
  exact completes_readLost hu ReadPhase.noConfusion hread
    (readLost_of_dropReturned (State.readLost_readLost (s := s.dropReturned (readJobIs id))
      (j := { j with parts := partsBack j (s.returned (readJobIs id)) }) hq hid hw hc hh hl he hf none))

theorem read_reconstructs :
    ∀ (s : State) (id : Nat) (j : ReadJob) (who : ReadBy) (f : Fp) (bs : List Byte) (p : Part) (rest qs : List Part),
      s.unitsReturned id j who f .reading → qs = partsBack j (s.returned (readJobIs id)) → gathered qs = some bs →
      qs = p :: rest → (∀ q ∈ qs, q.failed = false ∧ q.degraded = false) → matchesFp f bs = false →
      s.othersAvailable j.container p.unit = true →
      Completes (.unitReadDone id false) s fun t =>
        t.readJob id = some { j with parts := qs, phase := .recon 0, out := s.nMembers - 1 } ∧
        t.ctm.reports = s.ctm.reports ++ (match who with
          | .stream _ _ => [{ job := id, who := .chunk who, answer := .reconstructing }]
          | .verify _ _ => []) ∧
        t.tables = s.tables ∧ t.mem = s.mem := by
  intro s id j who f bs p rest qs hu hqs hg hcons hgood hm hav
  have hread := State.advanceRead_of_units hu.2.2.2.2.1 hu.2.2.2.2.2.1 hu.2.2.2.2.2.2.2.1
  have hid := hu.2.1
  have hdeg : (qs.any fun p => p.degraded) = false :=
    List.any_eq_false.2 fun q hq => by rw [(hgood q hq).2]; exact Bool.false_ne_true
  rw [hid, ← hqs, State.readUnitsBack_of_gathered (fun q hq => (hgood q hq).1)
    (newlyDegraded_of_none fun q hq => (hgood q hq).2) hg,
    State.checkRead_of_mismatch (j := { j with parts := qs }) hu.2.2.2.1 hm, if_neg (by
      rintro (h | h)
      · rw [show ({ j with parts := qs } : ReadJob).buffered = none from hu.2.2.2.2.2.1] at h
        exact Bool.false_ne_true h
      · exact Bool.false_ne_true (hdeg.symm.trans h))] at hread
  have heq := State.reportReconstructing_eq (s.dropReturned (readJobIs id)) { j with parts := qs }
  have hreports := State.reportReconstructing_reports (s := s.dropReturned (readJobIs id)) (j := { j with parts := qs })
    hu.2.2.1
  generalize (s.dropReturned (readJobIs id)).reportReconstructing { j with parts := qs } = x at hread heq hreports
  rw [show ({ j with parts := qs } : ReadJob).parts.length = rest.length + 1 by rw [hcons]; rfl,
    State.reconFrom_of_available (j := { j with parts := qs }) (p := p) (k := 0) (by rw [hcons]; rfl)
      (by rw [heq]; exact hav)] at hread
  have hn : x.nMembers = s.nMembers := by rw [heq]; rfl
  rw [hn] at hread
  obtain ⟨t, ht, hjob, _, hreports, htables, hmem⟩ := completes_rebuilding
    (j' := { j with parts := qs, phase := .recon 0, out := s.nMembers - 1 }) hu hid hread (by rw [heq]; rfl)
    (by rw [heq]; rfl) (hreports.trans (by rw [hid]; rfl))
  refine ⟨t, ht, ?_, ?_, htables, hmem⟩
  · exact hjob
  · cases who <;> exact hreports

theorem read_degraded_lost :
    ∀ (s : State) (id : Nat) (j : ReadJob) (who : ReadBy) (f : Fp) (bs : List Byte) (h : Nat) (e : IdxEntry)
        (qs : List Part), s.unitsReturned id j who f .reading → qs = partsBack j (s.returned (readJobIs id)) →
      gathered qs = some bs → (∀ q ∈ qs, q.failed = false) →
      (qs.map fun p => p.degraded) = j.parts.map (fun p => p.degraded) → (∃ q ∈ qs, q.degraded = true) →
      matchesFp f bs = false → j.handle = some h → s.tables.lostPart h = false → s.tables.entry h = some e → e.fp = f →
      Completes (.unitReadDone id false) s fun t => s.ReadLost t id who h e (some bs) := by
  intro s id j who f bs h e qs hu hqs hg hfail hdeg hsome hm hh hl he hf
  have hread := State.advanceRead_of_units hu.2.2.2.2.1 hu.2.2.2.2.2.1 hu.2.2.2.2.2.2.2.1
  have hu' := hu
  obtain ⟨hj, hid, hw, hc, hp, hb, hout, hst, hq, hrec⟩ := hu'
  rw [hid, ← hqs, State.readUnitsBack_of_gathered hfail (newlyDegraded_of_same hdeg) hg,
    State.checkRead_of_mismatch (j := { j with parts := qs }) hc hm, if_pos (.inr (List.any_eq_true.2 hsome))] at hread
  exact completes_readLost hu ReadPhase.noConfusion hread
    (readLost_of_dropReturned (State.readLost_readLost (s := s.dropReturned (readJobIs id))
      (j := { j with parts := qs }) hq hid hw hc hh hl he hf (some bs)))

theorem rebuilt_read_delivered :
    ∀ (s : State) (id : Nat) (j : ReadJob) (who : ReadBy) (f : Fp) (k : Nat) (p : Part) (fix bs : List Byte),
      s.unitsReturned id j who f (.recon k) → j.parts[k]? = some p →
      partResult (s.returned (readJobIs id)) k p.len true = some fix →
      gathered (j.parts.set k { p with got := some fix }) = some bs → matchesFp f bs = true →
      Completes (.unitReadDone id false) s fun t =>
        t.readJob id = none ∧ t.ctm.repairs = tallyUp 10 s.ctm.repairs ∧
        t.ctm.reports = s.ctm.reports ++ [{ job := id, who := .chunk who, answer := .bytes bs }] ∧
        (∀ d < 4, d = dataMember s.nMembers j.container p.unit → s.member d = .active →
          (s.chan d).queue .scrub = [] → (s.chan d).waitingFor .scrub = [] → s.stalledAt .ctm .scrub = none →
          s.arr.isSome = true → j.container < s.containerCount → 1 ≤ fix.length → p.start + fix.length ≤ unitSize →
          (t.chan d).queue .scrub = [writeOp .scrub j.container p.start fix .ctm .repair]) ∧
        t.tables.entries = s.tables.entries ∧ t.mem = s.mem := by
  intro s id j who f k p fix bs hu hp hr hg hm
  have hu' := hu
  obtain ⟨hj, hid, hw, hc, hph, hb, hout, hst, hq, hrec⟩ := hu'
  subst hid
  have hread := (State.advanceRead_of_rebuilt hph hc hst hp hr hg).trans (if_pos hm)
  obtain ⟨ch, it, sa, rt, hrepair⟩ := (s.dropReturned (readJobIs j.id)).queueRepair_eq j.container p.unit p.start fix
  obtain ⟨t, ht, heq, hjob, hrepairs, hreports, hchans, _, hentries, hmem⟩ := completes_answered (s := s)
    (by rw [hrepair]; exact hq) hw (by rw [hrepair]; rfl) (by rw [hrepair]; rfl) (by rw [hrepair]; rfl)
    (exec_unitReadDone_of_units hu ReadPhase.noConfusion hread
      (noRecovery_answered (by rw [hrepair]; exact hq) hw (by rw [hrepair]; exact hrec) _))
  refine ⟨t, ht, hjob, hrepairs.trans (by rw [hrepair]; rfl), hreports, ?_, hentries, hmem⟩
  rintro d hd rfl hactive hqueue hwait hstall harr hcont hlen hstart
  have hchan : ∀ d, t.chan d = ((s.dropReturned (readJobIs j.id)).queueRepair j.container p.unit p.start fix).chan d :=
    fun d => congrArg (fun v : Vector Channel 4 => v[d]?.getD (Channel.resetRecord d)) hchans
  rw [hchan]
  exact State.queueRepair_queue (s := s.dropReturned (readJobIs j.id)) hd hst hactive hqueue hwait hstall harr hcont hlen
    hstart

theorem rebuilt_read_lost :
    ∀ (s : State) (id : Nat) (j : ReadJob) (who : ReadBy) (f : Fp) (k : Nat) (p : Part) (fix bs : List Byte) (h : Nat)
        (e : IdxEntry), s.unitsReturned id j who f (.recon k) → j.parts[k]? = some p → j.parts.length = k + 1 →
      partResult (s.returned (readJobIs id)) k p.len true = some fix →
      gathered (j.parts.set k { p with got := some fix }) = some bs → matchesFp f bs = false → j.handle = some h →
      s.tables.lostPart h = false → s.tables.entry h = some e → e.fp = f →
      Completes (.unitReadDone id false) s fun t => s.ReadLost t id who h e (gathered j.parts) := by
  intro s id j who f k p fix bs h e hu hp hlen hr hg hm hh hl he hf
  have hu' := hu
  obtain ⟨hj, hid, hw, hc, hph, hb, hout, hst, hq, hrec⟩ := hu'
  subst hid
  have hread := (State.advanceRead_of_rebuilt hph hc hst hp hr hg).trans
    (if_neg fun hmatch => Bool.false_ne_true (hm.symm.trans hmatch))
  rw [State.reconFrom_of_past (List.getElem?_eq_none (Nat.le_of_eq hlen))] at hread
  exact completes_readLost hu ReadPhase.noConfusion hread
    (readLost_of_dropReturned (State.readLost_readLost (s := s.dropReturned (readJobIs j.id)) hq rfl hw hc hh hl he hf _))

/-- Settles O38. -/
theorem chunkReads : Obligations.ChunkReads :=
  ⟨chunkRead_begins, chunkRead_dataLost, read_from_buffer_delivered, read_gathered_delivered, read_served_degraded,
    read_unit_lost, read_reconstructs, read_degraded_lost, rebuilt_read_delivered, rebuilt_read_lost⟩

/-! ## Relocation (R90, R91) -/

theorem exec_relocationStep_of_scan {s : State} {r : Reloc} (hr : s.ctm.reloc = some r) (hs : r.stage = .scan)
    (hp : s.oru.paused = false) : exec .relocationStep s = .next (s.relocScan r) := by
  change execRelocationStep s = _
  unfold execRelocationStep
  rw [hr]
  dsimp only
  rw [hs]
  dsimp only
  rw [hp, if_neg Bool.false_ne_true]

theorem exec_relocationStep_of_chunk {s : State} {r : Reloc} (hr : s.ctm.reloc = some r) (hs : r.stage = .chunk) :
    exec .relocationStep s = .next (s.relocChunkRead r) := by
  change execRelocationStep s = _
  unfold execRelocationStep
  rw [hr]
  dsimp only
  rw [hs]

theorem exec_relocationStep_of_copy {s : State} {r : Reloc} {bs : List Byte} {c off place : Nat} (hr : s.ctm.reloc = some r)
    (hs : r.stage = .copy bs c off place) : exec .relocationStep s = .next (s.relocCopy r bs c off place) := by
  change execRelocationStep s = _
  unfold execRelocationStep
  rw [hr]
  dsimp only
  rw [hs]

theorem State.relocCandidate_of_located {s : State} {r : Reloc} {e : DirEntry} {x : IdxEntry}
    (hfit : e.offset + fpLength e.fp ≤ s.layout.chunkSpace) (hh : s.tables.isHandle e.handle = true)
    (hl : s.tables.lostPart e.handle = false) (hx : s.tables.entry e.handle = some x)
    (h : x.state = .damaged ∨ (x.container = r.source ∧ x.offset = e.offset)) : s.relocCandidate r e = true := by
  unfold State.relocCandidate Tables.locate
  rw [hh, hl, if_neg Bool.false_ne_true, hx]
  by_cases hd : x.state = .damaged
  · simp [hfit, hd]
  · simp [hfit, hd, h.resolve_left hd]

theorem State.relocate_of_running {s : State} {tag c : Nat} {v : Container} (hr : s.running = true) (hc : c < s.containerCount)
    (hv : s.cont c = some v) (hs : v.state = .sealed) (hk : v.kind = .data) (hl : v.live < s.layout.chunkSpace)
    (hn : s.ctm.reloc = none) : s.relocate tag c =
      ((s.setCont c (some { v with state := .draining })).onCtm fun m =>
        { m with reloc := some { source := c, tag := tag, cursor := 0, moved := 0, left := 0, destinations := [],
                                 entries := [], stage := .directory, full := false, buffer := none } }).newRead
          .relocDirectory none .verify c s.layout.chunkSpace directorySize .directory := by
  unfold State.relocate
  rw [if_neg (State.not_failed_of_running hr), if_neg (by rw [hr]; exact Bool.false_ne_true), if_neg (Nat.not_le.2 hc), hv]
  dsimp only
  rw [if_neg (by rw [hs, hk]; exact fun h => h.elim (fun n => n rfl) fun n => n rfl), if_neg (Nat.not_le.2 hl),
    if_neg (by rw [hn]; exact Bool.false_ne_true)]
  rfl

theorem State.relocScan_of_candidate {s : State} {r : Reloc} {e : DirEntry} (he : r.entries[r.cursor]? = some e)
    (hc : s.relocCandidate r e = true) : s.relocScan r =
      (s.setReloc { r with stage := .chunk }).newRead .relocChunk (some e.handle) .verify r.source e.offset (fpLength e.fp)
        (.chunk e.fp) := by
  unfold State.relocScan
  rw [he]
  exact if_pos hc

theorem State.relocScan_of_other {s : State} {r : Reloc} {e : DirEntry} (he : r.entries[r.cursor]? = some e)
    (hc : s.relocCandidate r e = false) : s.relocScan r = s.setReloc { r with cursor := r.cursor + 1 } := by
  unfold State.relocScan
  rw [he]
  exact if_neg (by rw [hc]; exact Bool.false_ne_true)

theorem Mec.heldBy_setHeld (m : Mec) (a : BufAsker) (n : Nat) : (m.setHeld a n).heldBy a = n := by
  have hrest : (m.lent.filter fun e => e.1 ≠ a).filter (fun e => e.1 = a) = [] := by
    rw [List.filter_eq_nil_iff]
    intro e he
    simpa using (List.mem_filter.1 he).2
  unfold Mec.heldBy Mec.setHeld
  dsimp only
  split
  · rename_i h
    rw [hrest, h]
    rfl
  · rw [List.filter_append, hrest]
    simp

theorem State.relocChunkRead_of_report {s : State} {r : Reloc} {rep : ReadReport}
    (hr : (s.reportFor fun w => w = .relocChunk) = some rep) : 
    (∀ bs, rep.answer = .bytes bs ∨ rep.answer = .dataLost (some bs) → s.relocChunkRead r =
      (s.dropReport rep).setReloc { r with stage := .place bs, buffer := some rep.job }) ∧
    (rep.answer = .dataLost none → s.relocChunkRead r =
      (s.dropReport rep).setReloc { r with stage := .scan, cursor := r.cursor + 1, left := r.left + 1 }) := by
  unfold State.relocChunkRead
  rw [hr]
  dsimp only
  refine ⟨fun bs h => ?_, fun h => by rw [h]⟩
  rcases h with h | h <;> rw [h]

/-- The placement of a relocated chunk in the open container (R78, R90). -/
theorem exec_chunkPlacement_of_relocation {s : State} {r : Reloc} {bs : List Byte} {c b : Nat} {v : Container} {x : StripeBuf}
    (hr : s.ctm.reloc = some r) (hs : r.stage = .place bs) (ha : s.ctm.state.attached = true) (hw : s.waitsFor .data = false)
    (ho : s.openOf .data = some c) (hv : s.cont c = some v) (hf : v.fill + bs.length ≤ s.layout.chunkSpace)
    (he : v.entries < 255) (hb : s.bufferOf c = some b) (hx : s.buffer b = some x) :
    exec (.chunkPlacement .relocation) s = .next ((s.placedIn c b bs.length v (x.places ++ [.empty])).setReloc
      { r with stage := .copy bs c v.fill v.entries }) := by
  have htry : s.tryChunk .relocation =
      (s.placedIn c b bs.length v (x.places ++ [.empty])).placedAt .relocation c v.fill v.entries := by
    unfold State.tryChunk
    rw [show s.placementLength .relocation = some bs.length by simp [State.placementLength, hr, hs]]
    dsimp only
    rw [State.placeChunk_of_fits ho hv hf he hb hx]
  have hplaced : (s.placedIn c b bs.length v (x.places ++ [.empty])).placedAt .relocation c v.fill v.entries =
      (s.placedIn c b bs.length v (x.places ++ [.empty])).setReloc { r with stage := .copy bs c v.fill v.entries } := by
    unfold State.placedAt State.onCtm State.setReloc State.onCtm
    dsimp only
    rw [show (s.placedIn c b bs.length v (x.places ++ [.empty])).ctm.reloc = some r from hr, Option.map_some, hs]
  change execChunkPlacement .relocation s = _
  unfold execChunkPlacement
  rw [if_pos ⟨ha, by simp [State.placementNew, hr, hs]⟩, hw, if_neg Bool.false_ne_true, htry, hplaced]

theorem State.relocCopy_of_opened {s : State} {r : Reloc} {bs : List Byte} {c off place b id : Nat} {x : StripeBuf}
    {e : DirEntry} {y : IdxEntry} {v : Container} (hv : s.cont c = some v) (hs : v.state = .opened) (hid : r.buffer = some id)
    (he : r.entries[r.cursor]? = some e) (hb : s.bufferOf c = some b) (hx : s.buffer b = some x)
    (hl : s.tables.lostPart e.handle = false) (hy : s.tables.entry e.handle = some y) (hf : y.fp = e.fp)
    (hc : y.container = r.source) : s.relocCopy r bs c off place =
      (((((s.writeMem (bufferAddress b off) bs).setBuffer b (some { x with
          places := x.places.set place (.chunk true e.handle e.fp off) })).onTables fun t =>
            t.setEntry e.handle (some { y with move := some c })).idxAnswer .ok).setReloc { r with
        stage := .scan, cursor := r.cursor + 1, moved := r.moved + 1, buffer := none,
        destinations := if r.destinations.contains c then r.destinations else r.destinations ++ [c] }).bufferDone id := by
  have hcopy : s.copyChunk c off place true e.handle e.fp bs = (s.writeMem (bufferAddress b off) bs).setBuffer b (some { x with
      places := x.places.set place (.chunk true e.handle e.fp off) }) := by
    rw [State.copyChunk_of_buffer hb hx, State.lateCopy_of_not_sealing]
    intro w hw
    obtain rfl : v = w := Option.some.inj (hv.symm.trans hw)
    rw [hs]
    exact ContState.noConfusion
  unfold State.relocCopy State.relocBufferBack
  rw [hid]
  dsimp only
  unfold State.relocCopied
  rw [he]
  dsimp only
  rw [if_neg (by rw [hb]; exact Bool.false_ne_true), hcopy,
    State.idxSetMove_of_entry (e := y) (by exact hl) (by exact hy), if_pos ⟨hf, hc⟩]
  rfl

theorem exec_relocationEnd_of_kept {s : State} {r : Reloc} {v : Container} (hr : s.ctm.reloc = some r) (hs : r.stage = .ending)
    (hd : r.destinations = []) (hn : (SealBy.relocation) ∉ s.ctm.sealReqs) (hv : s.cont r.source = some v) (hl : v.live ≠ 0) :
    exec .relocationEnd s = .next (((s.onCtm fun m => { m with reloc := none }).setCont r.source
      (some { v with state := .sealed })).answer r.tag kindRelocateContainer (if r.full then .arrayFull else .ok)
        [⟨1, 1⟩, ⟨1, r.moved⟩, ⟨1, r.left⟩, ⟨4, v.live⟩]) := by
  change execRelocationEnd s = _
  unfold execRelocationEnd
  rw [hr]
  dsimp only
  rw [if_pos ⟨hs, by rw [hd]; rfl, by rw [← Bool.not_eq_true, List.contains_iff_mem]; exact hn⟩, hv, Option.map_some,
    Option.getD_some, if_neg hl]
  dsimp only
  rw [State.modCont_of_cont (s := s.onCtm fun m => { m with reloc := none }) (by exact hv)]

/-- Settles O39. -/
theorem relocationRuns : Obligations.RelocationRuns := by
  unfold Obligations.RelocationRuns
  refine ⟨?_, ?_, ?_, ?_, ?_, ?_, ?_, ?_⟩
  · intro s tag c v hr hc hv hs hk hl hn
    have hexec : exec (.relocateContainer tag c) s = .next _ := congrArg Host.Outcome.next
      (State.relocate_of_running (s := s.taken (.relocateContainer tag c)) (tag := tag) hr hc hv hs hk hl hn)
    generalize hu : State.onCtm _ _ = u at hexec
    obtain ⟨le, bq, rd, rp, dg, ch, it, sa, rt, hnew, _⟩ := u.newRead_spec .relocDirectory none .verify c
      (s.taken (.relocateContainer tag c)).layout.chunkSpace directorySize .directory
    have hcont : u.cont c = some { v with state := .draining } := by rw [← hu]; exact State.cont_setCont_same ..
    refine ⟨_, hexec, ?_, ?_, ?_, ?_⟩
    all_goals rw [hnew]
    · refine (congrArg (Option.map _) ((State.cont_modCont u c c _).trans (if_pos rfl))).trans ?_
      rw [hcont]
      rfl
    · rw [← hu]; rfl
    · rw [← hu]; rfl
    · show (u.readRaise c).tables.entries = _
      rw [State.readRaise, State.modCont_eq, ← hu]
      rfl
  · intro s r e hr hs hp he hc
    exact (exec_relocationStep_of_scan hr hs hp).trans (congrArg _ (State.relocScan_of_other he hc))
  · intro s r e v x hr hs hp he hfit hh hl hx h hv
    have hexec := (exec_relocationStep_of_scan hr hs hp).trans (congrArg _ (State.relocScan_of_candidate he
      (State.relocCandidate_of_located hfit hh hl hx h)))
    obtain ⟨le, bq, rd, rp, dg, ch, it, sa, rt, hnew, k, hk, hid, hwho, hhan, hcls, hcont, hoff, hlen, hchk⟩ :=
      (s.setReloc { r with stage := .chunk }).newRead_spec .relocChunk (some e.handle) .verify r.source e.offset (fpLength e.fp)
        (.chunk e.fp)
    refine ⟨_, hexec, ?_, ?_, ⟨k, hk, hwho, hhan, hcls, hcont, hoff, hlen, hchk⟩, ?_, fun d hd => ?_, ?_, ?_⟩
    all_goals rw [hnew]
    · rfl
    · rfl
    · exact ((State.cont_modCont _ _ _ _).trans (if_pos rfl)).trans
        (congrArg (Option.map fun r : Container => { r with reads := r.reads + 1 }) hv)
    · exact (State.cont_modCont _ _ _ _).trans (if_neg hd)
    · show (State.readRaise _ _).tables.entries = _
      rw [State.readRaise, State.modCont_eq]
      rfl
    · rfl
  · intro s r rep bs hr hs hrep ha
    exact (exec_relocationStep_of_chunk hr hs).trans (congrArg _ ((State.relocChunkRead_of_report hrep).1 bs ha))
  · intro s r rep hr hs hrep ha
    exact (exec_relocationStep_of_chunk hr hs).trans (congrArg _ ((State.relocChunkRead_of_report hrep).2 ha))
  · intro s r bs c b v x hr hs ha hw ho hv hf he hb hb4 hx
    exact ⟨_, exec_chunkPlacement_of_relocation hr hs ha hw ho hv hf he hb hx, rfl, State.cont_setCont_same ..,
      fun d hd => State.cont_setCont_other _ hd _, State.buffer_setBuffer hb4 _, rfl, rfl⟩
  · intro s r bs c off place b id x e y v hv hs hr hst hid he hb hb4 hx hl hy hf hc hq
    have hexec := (exec_relocationStep_of_copy hr hst).trans
      (congrArg _ (State.relocCopy_of_opened (off := off) (place := place) (bs := bs) hv hs hid he hb hx hl hy hf hc))
    rw [State.bufferDone, State.returnBuffers_of_none_waiting (by exact hq)] at hexec
    refine ⟨_, hexec, State.read_writeMem .., fun a ha hbad => ?_, State.buffer_setBuffer hb4 _,
      Tables.entry_setEntry_of_entry hy _, fun p hp => Tables.getKey_setEntry_other _ hp _, ?_, Mec.heldBy_setHeld .., rfl⟩
    · exact Memory.get_writeMem ha fun w hw _ => hbad w hw
    · simp only [List.contains_eq_mem, decide_eq_true_eq]
      rfl
  · intro s r v hr hs hd hn hv hl
    have hexec := exec_relocationEnd_of_kept hr hs hd hn hv hl
    rw [State.answer_eq] at hexec
    exact ⟨_, hexec, State.cont_setCont_same .., rfl, rfl⟩

end Sys2Proof.Machine

/-! # Proofs: Sharing: grants and read streams -/

namespace Sys2Proof.Machine

/-! ## Grants (R117 to R121) -/

theorem State.grant_setGrant_same {s : State} {g : Nat} (hg : g ≤ 63) (v : Grant) : (s.setGrant g v).grant g = v :=
  (State.grant_setGrant ..).trans (if_pos ⟨rfl, Nat.lt_succ_of_le hg⟩)

theorem State.grant_setGrant_other {s : State} {g h : Nat} (hn : h ≠ g) (v : Grant) : (s.setGrant g v).grant h = s.grant h :=
  (State.grant_setGrant ..).trans (if_neg fun hc => hn hc.1.symm)

theorem State.putGrant_of_time {s : State} {tag g l : Nat} {al : Albums} {na : Time} {a : Option Nat} (hg : g ≤ 63)
    (hf : s.ctm.state ≠ .failed) (ht : s.pwc.time < na) : s.putGrant tag g al na a l =
      if (s.grant g).opens ≠ 0 then s.refuse tag kindPutGrant .busy
      else (s.setGrant g (Grant.put al na a l)).answer tag kindPutGrant .ok (Grant.put al na a l).fields := by
  unfold State.putGrant
  rw [if_neg hf, if_neg (Nat.not_lt.2 hg), if_neg (BitVec.not_le.2 ht)]

theorem State.putGrant_of_past {s : State} {tag g l : Nat} {al : Albums} {na : Time} {a : Option Nat} (hg : g ≤ 63)
    (hf : s.ctm.state ≠ .failed) (ht : na ≤ s.pwc.time) : s.putGrant tag g al na a l = s.refuse tag kindPutGrant .expired := by
  unfold State.putGrant
  rw [if_neg hf, if_neg (Nat.not_lt.2 hg), if_pos ht]

theorem State.compareGrant_of_time {s : State} {g : Nat} (ht : s.pwc.time < (s.grant g).notAfter) : s.compareGrant g = s :=
  if_neg fun h => BitVec.not_le.2 ht h.2

theorem State.expireGrant_of_no_reader {s : State} {g : Nat} (hr : ∀ i < 16, (s.reader i).grant ≠ some g) :
    s.expireGrant g = s.setGrant g { s.grant g with state := .expired } := by
  have hfixed : ∀ ns : List Nat, (∀ i ∈ ns, i < 16) → ∀ u : State, (∀ i < 16, (u.reader i).grant ≠ some g) →
      u.each ns (fun s i => if (s.reader i).grant = some g then s.enterEnding i .expired else s) = u := fun ns => by
    induction ns with
    | nil => exact fun _ _ _ => rfl
    | cons n ns ih =>
      intro hn u hu
      show State.each (if (u.reader n).grant = some g then u.enterEnding n .expired else u) ns _ = u
      rw [if_neg (hu n (hn n List.mem_cons_self))]
      exact ih (fun i hi => hn i (List.mem_cons_of_mem _ hi)) u hu
  exact hfixed (List.range 16) (fun i hi => List.mem_range.1 hi) (s.setGrant g { s.grant g with state := .expired }) hr

theorem State.revokeGrant_of_active {s : State} {tag g : Nat} (hg : g ≤ 63) (hf : s.ctm.state ≠ .failed)
    (ha : (s.grant g).state = .active) (hl : s.liveUnder g = []) : s.revokeGrant tag g =
      (s.setGrant g { s.grant g with state := .revoked }).answer tag kindRevokeGrant .ok [⟨1, 0⟩] := by
  unfold State.revokeGrant
  rw [if_neg hf, if_neg (Nat.not_lt.2 hg), ha]
  dsimp only
  rw [hl]
  rfl

theorem State.revokeGrant_of_ended {s : State} {tag g : Nat} (hg : g ≤ 63) (hf : s.ctm.state ≠ .failed) :
    ((s.grant g).state = .free → s.revokeGrant tag g = s.refuse tag kindRevokeGrant .noSuchGrant) ∧
    ((s.grant g).state = .revoked → s.revokeGrant tag g = s.answer tag kindRevokeGrant .ok [⟨1, 0⟩]) := by
  unfold State.revokeGrant
  rw [if_neg hf, if_neg (Nat.not_lt.2 hg)]
  exact ⟨fun h => by rw [h], fun h => by rw [h]⟩

/-- Settles O47. -/
theorem grantsBeginAndEnd : Obligations.GrantsBeginAndEnd := by
  unfold Obligations.GrantsBeginAndEnd
  refine ⟨?_, ?_, ?_, ?_, ?_, ?_, ?_⟩
  · intro s tag g al na a l hg hf
    refine ⟨fun ht ho => ?_, fun ht => ?_, fun ht ho => ?_⟩
    · have hput := (State.putGrant_of_time (s := s.taken (.putGrant tag g al na a l)) (tag := tag) (al := al) (a := a) (l := l)
        hg hf ht).trans (if_neg fun h => h ho)
      rw [State.answer_of_handedOver (l := s.lnk) (by rfl)] at hput
      have hexec : exec (.putGrant tag g al na a l) s = .next _ := congrArg Host.Outcome.next hput
      refine ⟨_, hexec, State.grant_setGrant_same hg _, fun h hh => State.grant_setGrant_other hh _, ?_, rfl⟩
      exact congrArg (fun v : Grant => s.lnk.answered (.putGrant tag g al na a l) (ownerReply tag kindPutGrant .ok v.fields))
        (State.grant_setGrant_same (s := s) hg (Grant.put al na a l)).symm
    · have hput := State.putGrant_of_past (s := s.taken (.putGrant tag g al na a l)) (tag := tag) (al := al) (a := a) (l := l)
        hg hf ht
      exact congrArg Host.Outcome.next (hput.trans (State.taken_refuse ..))
    · have hput := (State.putGrant_of_time (s := s.taken (.putGrant tag g al na a l)) (tag := tag) (al := al) (a := a) (l := l)
        hg hf ht).trans (if_pos ho)
      exact congrArg Host.Outcome.next (hput.trans (State.taken_refuse ..))
  · intro s tag g hg hf ha hl
    have hrevoke := State.revokeGrant_of_active (s := s.taken (.revokeGrant tag g)) (tag := tag) hg hf ha hl
    exact congrArg Host.Outcome.next (hrevoke.trans (State.answer_of_handedOver (l := s.lnk) rfl ..))
  · intro s tag g hg hf h
    have hrevoke := (State.revokeGrant_of_ended (s := s.taken (.revokeGrant tag g)) (tag := tag) hg hf).1 h
    exact congrArg Host.Outcome.next (hrevoke.trans (State.taken_refuse ..))
  · intro s tag g hg hf h
    have hrevoke := (State.revokeGrant_of_ended (s := s.taken (.revokeGrant tag g)) (tag := tag) hg hf).2 h
    exact congrArg Host.Outcome.next (hrevoke.trans (State.taken_answer ..))
  · intro s g hg ha ht hr
    refine congrArg Host.Outcome.next ((if_neg (Nat.not_lt.2 hg)).trans ((if_pos ⟨ha, ht⟩).trans ?_))
    exact State.expireGrant_of_no_reader hr
  · intro s g ht
    exact congrArg Host.Outcome.next (ite_eq_left_iff.2 fun _ => State.compareGrant_of_time ht)
  · intro s tag g hg hf
    have hget : (s.taken (.getGrant tag g)).getGrant tag g =
        (s.taken (.getGrant tag g)).answer tag kindGetGrant .ok ((s.grant g).fields ++ [⟨6, (s.grant g).charged⟩]) := by
      unfold State.getGrant
      rw [if_neg (by exact hf), if_neg (Nat.not_lt.2 hg)]
      rfl
    exact congrArg Host.Outcome.next (hget.trans (State.taken_answer ..))

/-! ## Readers of an object (R60, R124) -/

theorem State.readersOf_setReaders (s : State) (o p n : Nat) :
    (s.setReaders o n).readersOf p = if p = o then n else s.readersOf p := by
  unfold State.readersOf
  show (getKey (if n = 0 then dropKey s.oru.readers o else putKey s.oru.readers o n) p).getD 0 = _
  split
  · rename_i h
    rw [getKey_dropKey]
    split
    · exact h.symm
    · rfl
  · rw [getKey_putKey]
    split <;> rfl

theorem State.readerLower_of_sealed {s : State} {o : Nat} {r : Obj} (ho : s.obj o = some r) (hs : r.state = .sealed)
    (hn : s.readersOf o ≠ 0) : s.readerLower o = s.setReaders o (s.readersOf o - 1) := by
  unfold State.readerLower
  dsimp only
  rw [if_neg hn]
  split
  · rfl
  · rw [show (s.setReaders o (s.readersOf o - 1)).obj o = some r from ho]
    dsimp only
    rw [hs]

/-! ## OPEN_READ (R123, R124) -/

/-- A grant admits a stream of an object, and stream `i` is the one to take (R123, R124). -/
structure State.Admits (s : State) (o g i : Nat) (r : Obj) : Prop where
  grants : g ≤ 63
  object : 1 ≤ o ∧ o ≤ 65535
  running : s.running = true
  active : (s.grant g).state = .active
  time : s.pwc.time < (s.grant g).notAfter
  found : s.obj o = some r
  isSealed : r.state = .sealed
  shared : r.albums &&& (s.grant g).albums ≠ 0
  room : (s.grant g).opens < (s.grant g).limit
  stream : i < 16
  free : (s.reader i).state = .free
  lowest : ∀ j < i, (s.reader j).state ≠ .free

theorem State.freeReader_of_lowest {s : State} {i : Nat} (hi : i < 16) (hf : (s.reader i).state = .free)
    (hl : ∀ j < i, (s.reader j).state ≠ .free) : s.freeReader = some i := by
  unfold State.freeReader
  rw [List.find?_range_eq_some]
  exact ⟨by simpa using hf, List.mem_range.2 hi, fun j hj => by simpa using hl j hj⟩

/-- The end of the range that an OPEN_READ asks for (R124). -/
def readStop (start count length : Nat) : Nat := if count = 0 then length else min (start + count) length

/-- The state in which a read stream has been taken, counted in its grant and in its object's readers (R124). -/
def State.readOpened (s : State) (o g i start stop : Nat) : State :=
  ((s.readerRaise o).setGrant g { s.grant g with opens := (s.grant g).opens + 1 }).setReader i
    (ReadStream.opened o g start stop)

theorem State.grantRefusal_of_active {s : State} {g : Nat} (hg : g ≤ 63) (ha : (s.grant g).state = .active) :
    s.grantRefusal g = none := by
  unfold State.grantRefusal
  rw [if_neg (by unfold ownerAccess; omega), ha]

/-- The checks of an OPEN_READ up to those of the object (R123). -/
theorem State.openRead_of_granted {s : State} {tag o g start count : Nat} (hg : g ≤ 63) (ho : 1 ≤ o ∧ o ≤ 65535)
    (hr : s.running = true) (ha : (s.grant g).state = .active) (ht : s.pwc.time < (s.grant g).notAfter) :
    (∀ st, s.openChecks o g start = .error st → s.openRead tag o g start count = s.refuse tag kindOpenRead st) ∧
    (∀ i r, s.openChecks o g start = .ok (i, r) → s.openRead tag o g start count =
      if start = readStop start count r.length then
        ((s.readOpened o g i start (readStop start count r.length)).answer tag kindOpenRead .ok
          [⟨1, i⟩, ⟨6, r.length⟩, ⟨6, readStop start count r.length⟩]).seekEnds i (some .complete)
      else (s.readOpened o g i start (readStop start count r.length)).answer tag kindOpenRead .ok
          [⟨1, i⟩, ⟨6, r.length⟩, ⟨6, readStop start count r.length⟩]) := by
  have hown : g ≠ ownerAccess := by unfold ownerAccess; omega
  have hpre : ¬((63 < g ∧ g ≠ ownerAccess) ∨ o = 0 ∨ 65535 < o) := by omega
  unfold State.openRead
  rw [if_neg hpre, if_neg (State.not_failed_of_running hr), if_neg (by rw [hr]; exact Bool.false_ne_true)]
  dsimp only
  rw [if_neg hown, State.compareGrant_of_time ht, State.grantRefusal_of_active hg ha]
  dsimp only
  refine ⟨fun st h => by rw [h], fun i r h => ?_⟩
  rw [h]
  dsimp only
  rw [if_neg hown]
  rfl

theorem State.openChecks_of_admitted {s : State} {o g i start : Nat} {r : Obj} (h : s.Admits o g i r)
    (hs : start ≤ r.length) : s.openChecks o g start = .ok (i, r) := by
  have hown : decide (g = ownerAccess) = false := by
    have := h.grants
    unfold ownerAccess
    simp only [decide_eq_false_iff_not]
    omega
  unfold State.openChecks
  rw [h.found]
  dsimp only
  rw [hown, if_neg (fun hn => hn h.isSealed), if_neg (fun hd => h.shared hd.2), if_neg (fun hl => Nat.not_le.2 h.room hl.2),
    State.freeReader_of_lowest h.stream h.free h.lowest]
  dsimp only
  rw [if_neg (Nat.not_lt.2 hs)]

theorem State.openChecks_of_denied {s : State} {o g start : Nat} {r : Obj} (hg : g ≤ 63) (ho : s.obj o = some r)
    (hs : r.state = .sealed) (hd : r.albums &&& (s.grant g).albums = 0) : s.openChecks o g start = .error .denied := by
  have hown : decide (g = ownerAccess) = false := by
    unfold ownerAccess
    simp only [decide_eq_false_iff_not]
    omega
  unfold State.openChecks
  rw [ho]
  dsimp only
  rw [hown, if_neg (fun hn => hn hs), if_pos ⟨rfl, hd⟩]

/-- What a taken read stream leaves of the grants, the readers and the streams (R124). -/
theorem State.readOpened_spec {s : State} {o g i start stop : Nat} (hg : g ≤ 63) (hi : i < 16) :
    (s.readOpened o g i start stop).reader i = ReadStream.opened o g start stop ∧
    (∀ j, j ≠ i → (s.readOpened o g i start stop).reader j = s.reader j) ∧
    (s.readOpened o g i start stop).grant g = { s.grant g with opens := (s.grant g).opens + 1 } ∧
    (∀ h, h ≠ g → (s.readOpened o g i start stop).grant h = s.grant h) ∧
    (s.readOpened o g i start stop).readersOf o = s.readersOf o + 1 ∧
    ∀ p, p ≠ o → (s.readOpened o g i start stop).readersOf p = s.readersOf p :=
  ⟨State.reader_setReader_same hi _, fun _ hj => State.reader_setReader_other hj _, State.grant_setGrant_same hg _,
    fun _ hh => State.grant_setGrant_other hh _, (State.readersOf_setReaders ..).trans (if_pos rfl),
    fun _ hp => (State.readersOf_setReaders ..).trans (if_neg hp)⟩

/-! ## The end of a read stream (R125, R133) -/

theorem ReadStream.offerNext_of_no_flights {r : ReadStream} (h : r.flights = []) : r.offerNext = r := by
  unfold ReadStream.offerNext
  split
  · rw [h]
  · rfl

theorem State.setReader_setReader (s : State) (i : Nat) (v w : ReadStream) : (s.setReader i v).setReader i w = s.setReader i w := by
  unfold State.setReader
  simp

/-- A stream over an empty range ends as it is opened: it is FREE again, its grant and its object count it no more, and STREAM_END
is raised (R125, R133). -/
theorem State.seekEnds_of_empty {s : State} {i g o start : Nat} {r : Obj} (hi : i < 16)
    (hr : s.reader i = ReadStream.opened o g start start) (ho : s.obj o = some r) (hs : r.state = .sealed)
    (hn : s.readersOf o ≠ 0) : ∃ v fs ends, s.seekEnds i (some .complete) = ((({ s.setReader i v with
        lnk := s.lnk.raised (slotStreamEnd i) fs, rds := { (s.setReader i v).rds with ends := ends } } : State).setGrant g
          { s.grant g with opens := (s.grant g).opens - 1 }).setReaders o (s.readersOf o - 1)).setReader i
            ReadStream.freeRecord := by
  generalize hv : ({ ReadStream.opened o g start start with state := .running, reason := some .complete, endPoint := start } :
    ReadStream) = v
  have hset : s.seekEnds i (some .complete) = (s.setReader i v).readerSettle i := by
    unfold State.seekEnds State.modReader
    rw [hr, ← hv]
    rfl
  have hread : (s.setReader i v).reader i = v := State.reader_setReader_same hi v
  have hoffer : (s.setReader i v).modReader i ReadStream.offerNext = s.setReader i v := by
    unfold State.modReader
    rw [hread, ReadStream.offerNext_of_no_flights (by rw [← hv]; rfl), State.setReader_setReader]
  have hsettle : (s.setReader i v).readerSettle i = (s.setReader i v).readerFree i := by
    unfold State.readerSettle
    dsimp only
    rw [hoffer, hread, if_pos (by rw [← hv]; rfl)]
  have hreason : v.reason = some .complete := by rw [← hv]
  have hgrant : v.grant = some g := by rw [← hv]; rfl
  have hobject : v.object = some o := by rw [← hv]; rfl
  rw [hset, hsettle]
  unfold State.readerFree
  dsimp only
  rw [hread, hreason, hgrant, hobject]
  dsimp only
  rw [State.readerLower_of_sealed (r := r) (by exact ho) hs (by exact hn)]
  exact ⟨v, _, _, rfl⟩

/-! ## STOP_READ (R131, R132) -/

/-- A seeking stream whose segment read alone is out is stopped: it waits for that read in ENDING (R131, R132). -/
theorem State.enterEnding_of_seeking {s : State} {i : Nat} (hi : i < 16) (hs : (s.reader i).state = .seeking)
    (hseg : (s.reader i).segRead = .reading) (hf : (s.reader i).flights = []) (hr : (s.reader i).reason = none)
    (hc : s.waitingReads (ReadWho.isChunkOf i) = []) (hw : s.waitingReads (ReadWho.isSegOf i) = []) :
    s.enterEnding i .stopped = s.setReader i { s.reader i with state := .ending, reason := some .stopped, offered := none } := by
  generalize hv : ({ s.reader i with state := .ending, reason := some .stopped, offered := none } : ReadStream) = v
  have hflights : v.flights = [] := by rw [← hv]; exact hf
  have hread : (s.setReader i v).reader i = v := State.reader_setReader_same hi v
  have hwithdraw : (s.setReader i v).withdrawReads i = s.setReader i v := by
    unfold State.withdrawReads State.modReader
    dsimp only
    rw [show (s.setReader i v).waitingReads (ReadWho.isChunkOf i) = [] from hc,
      show (s.setReader i v).waitingReads (ReadWho.isSegOf i) = [] from hw]
    simp only [List.append_nil, List.foldl_nil]
    rw [hread, hflights, State.setReader_setReader, List.filter_nil, ← hflights]
    rfl
  have hsettle : (s.setReader i v).readerSettle i = s.setReader i v := by
    have hoffer : (s.setReader i v).modReader i ReadStream.offerNext = s.setReader i v := by
      unfold State.modReader
      rw [hread, ReadStream.offerNext_of_no_flights hflights, State.setReader_setReader]
    unfold State.readerSettle
    dsimp only
    rw [hoffer, hread, if_neg]
    have hbusy : v.segRead = .reading := by rw [← hv]; exact hseg
    simp [ReadStream.finished, ReadStream.drained, hbusy]
  unfold State.enterEnding
  dsimp only
  rw [if_pos (.inl hs), hr, hf]
  have hkept : ({ s.reader i with state := .ending, reason := some .stopped, offered := none, flights := [] } : ReadStream) =
      v := by rw [← hv, ← hf]
  rw [if_pos (.inl rfl)]
  refine (congrArg (fun x : ReadStream => ((s.setReader i x).withdrawReads i).readerSettle i) hkept).trans ?_
  exact (congrArg (fun t : State => t.readerSettle i) hwithdraw).trans hsettle

/-- Settles O48. -/
theorem readStreamsOpenAndStop : Obligations.ReadStreamsOpenAndStop := by
  unfold Obligations.ReadStreamsOpenAndStop
  refine ⟨?_, ?_, ?_, ?_, ?_⟩
  · intro s tag o g start count i r hg ho1 ho2 hr ha ht ho hs hal hop hi hf hl hlen
    have hadmits : (s.taken (.openRead tag o g start count)).Admits o g i r :=
      ⟨hg, ⟨ho1, ho2⟩, hr, ha, ht, ho, hs, hal, hop, hi, hf, hl⟩
    have hne : start ≠ readStop start count r.length := by
      unfold readStop
      split <;> omega
    have hopen := ((State.openRead_of_granted (tag := tag) (count := count) hg ⟨ho1, ho2⟩ hadmits.running hadmits.active
      hadmits.time).2 i r (State.openChecks_of_admitted hadmits (Nat.le_of_lt hlen))).trans (if_neg hne)
    rw [State.answer_of_handedOver (l := s.lnk) (by rfl)] at hopen
    have hexec : exec (.openRead tag o g start count) s = .next _ := congrArg Host.Outcome.next hopen
    obtain ⟨hreader, hreaders, hgrant, hgrants, hof, hofs⟩ := State.readOpened_spec
      (s := s.taken (.openRead tag o g start count)) (o := o) (start := start) (stop := readStop start count r.length) hg hi
    exact ⟨_, hexec, hreader, hreaders, hgrant, hgrants, hof, hofs, rfl, rfl, rfl⟩
  · intro s tag o g count i r hg ho1 ho2 hr ha ht ho hs hal hop hi hf hl
    have hadmits : (s.taken (.openRead tag o g r.length count)).Admits o g i r :=
      ⟨hg, ⟨ho1, ho2⟩, hr, ha, ht, ho, hs, hal, hop, hi, hf, hl⟩
    have heq : readStop r.length count r.length = r.length := by
      unfold readStop
      split
      · rfl
      · exact Nat.min_eq_right (Nat.le_add_right ..)
    have hopen := ((State.openRead_of_granted (tag := tag) (count := count) hg ⟨ho1, ho2⟩ hadmits.running hadmits.active
      hadmits.time).2 i r (State.openChecks_of_admitted hadmits (Nat.le_refl _))).trans (if_pos heq.symm)
    rw [heq] at hopen
    have hexec : exec (.openRead tag o g r.length count) s = .next _ := congrArg Host.Outcome.next hopen
    obtain ⟨hreader, hreaders, hgrant, hgrants, hof, hofs⟩ := State.readOpened_spec
      (s := s.taken (.openRead tag o g r.length count)) (o := o) (start := r.length) (stop := r.length) hg hi
    rw [State.answer_of_handedOver (l := s.lnk) (by rfl)] at hexec
    generalize hu : (s.taken (.openRead tag o g r.length count)).readOpened o g i r.length r.length = u at *
    obtain ⟨v, fs, ends, hend⟩ := State.seekEnds_of_empty (s := { u with
      lnk := s.lnk.answered (.openRead tag o g r.length count) (ownerReply tag kindOpenRead .ok [⟨1, i⟩, ⟨6, r.length⟩, ⟨6, r.length⟩]) })
      hi hreader (by rw [← hu]; exact ho) hs (fun h => Nat.succ_ne_zero _ (hof.symm.trans h))
    rw [hend] at hexec
    refine ⟨_, hexec, ?_, fun j hj => ?_, fun h => ?_, fun p => ?_, ?_, ?_, ?_⟩
    · rw [State.reader_setReader_same hi]; rfl
    · refine (State.reader_setReader_other hj _).trans ((State.reader_setReader_other (s := u) hj v).trans (hreaders j hj))
    · by_cases hh : h = g
      · subst hh
        refine (State.grant_setGrant_same hg _).trans ?_
        show { u.grant h with opens := (u.grant h).opens - 1 } = _
        rw [hgrant]
        rfl
      · exact (State.grant_setGrant_other hh _).trans (hgrants h hh)
    · refine (State.readersOf_setReaders ..).trans ?_
      split
      · rename_i hp
        rw [hp]
        exact congrArg (· - 1) hof
      · rename_i hp
        exact hofs p hp
    · exact Lnk.isSome_raised_same _ _ (Nat.lt_of_lt_of_le (Nat.add_lt_add_left hi 15) (by decide))
    · rw [← hu]; rfl
    · rw [← hu]; rfl
  · intro s tag o g start count r hg ho1 ho2 hr ha ht ho hs hd
    have hopen := (State.openRead_of_granted (s := s.taken (.openRead tag o g start count)) (tag := tag) (start := start)
      (count := count) hg ⟨ho1, ho2⟩ hr ha ht).1 .denied (State.openChecks_of_denied hg ho hs hd)
    exact congrArg Host.Outcome.next (hopen.trans (State.taken_refuse ..))
  · intro s tag i hi hf hs hseg hfl hr hc hw
    have hending := State.enterEnding_of_seeking (s := s.taken (.stopRead tag i)) hi hs hseg hfl hr hc hw
    have hstop : (s.taken (.stopRead tag i)).stopRead tag i = ((s.taken (.stopRead tag i)).enterEnding i .stopped).answer tag
        kindStopRead .ok [⟨6, (s.reader i).delivered⟩] := by
      unfold State.stopRead
      rw [if_neg (by exact hf), if_neg (Nat.not_lt.2 (Nat.le_of_lt_succ hi)),
        if_neg (by rw [show ((s.taken (.stopRead tag i)).reader i).state = _ from hs]; exact ReadState.noConfusion)]
      rfl
    rw [hending, State.answer_of_handedOver (l := s.lnk) (by rfl)] at hstop
    have hexec : exec (.stopRead tag i) s = .next _ := congrArg Host.Outcome.next hstop
    exact ⟨_, hexec, State.reader_setReader_same hi _, fun j hj => State.reader_setReader_other hj _, rfl, rfl⟩
  · intro s tag i hi hf hs
    have hstop : (s.taken (.stopRead tag i)).stopRead tag i = (s.taken (.stopRead tag i)).refuse tag kindStopRead .wrongState := by
      unfold State.stopRead
      rw [if_neg (by exact hf), if_neg (Nat.not_lt.2 (Nat.le_of_lt_succ hi)), if_pos (by exact hs)]
    exact congrArg Host.Outcome.next (hstop.trans (State.taken_refuse ..))

/-! ## Seeking and issuing (R125 to R127) -/

theorem Tables.locate_of_entry {t : Tables} {h : Nat} {e : IdxEntry} (hl : t.lostPart h = false) (he : t.entry h = some e)
    (hd : e.state ≠ .damaged) : t.locate h = .found e.state e.fp e.container e.offset := by
  unfold Tables.locate
  rw [hl, if_neg Bool.false_ne_true, he]
  exact if_neg hd

theorem exec_seekStep_of_passed {s : State} {i h c off : Nat} {f : Fp} {st : EntryState} (hs : (s.reader i).state = .seeking)
    (hseg : (s.reader i).segRead = .idle) (hh : (s.reader i).handleAt = some h) (hl : s.tables.locate h = .found st f c off)
    (hp : (s.reader i).offset + fpLength f ≤ (s.reader i).start) : exec (.seekStep i) s =
      .next (s.setReader i { s.reader i with
        offset := (s.reader i).offset + fpLength f, position := (s.reader i).position + 1 }) := by
  change execSeekStep i s = _
  unfold execSeekStep
  dsimp only
  rw [if_pos ⟨hs, hseg⟩, hh]
  dsimp only
  rw [hl]
  dsimp only [IdxAnswer.carriedFp]
  rw [if_pos hp]

/-- A stream that may issue under its grant goes to the charge of its next chunk (R127). -/
theorem exec_chunkIssue_of_mayIssue {s : State} {i g h : Nat} {e : IdxEntry} (hm : s.mayIssueNow i h e)
    (hg : (s.reader i).grant = some g) (hok : g = ownerAccess ∨ s.pwc.time < (s.grant g).notAfter) :
    exec (.chunkIssue i) s = .next (s.issueAt i g h) := by
  obtain ⟨hst, hr, hf, ho, hseg, hh, _, _, _, hstall⟩ := hm
  have hmay : ((s.reader i).mayIssue && (s.stalledAt (.readStream i) .read).isNone) = true := by
    simp [ReadStream.mayIssue, hst, hr, hf, ho, hseg, hstall]
  have hcompare : (if g = ownerAccess then s else s.compareGrant g) = s := by
    rcases hok with hok | hok
    · exact if_pos hok
    · rw [State.compareGrant_of_time hok, ite_self]
  change execChunkIssue i s = _
  unfold execChunkIssue
  dsimp only
  rw [hmay, hg, hh]
  dsimp only
  rw [hcompare, if_pos hst]

/-- A charge that the allowance covers: a limited allowance falls by it, and nothing else changes (R127). -/
theorem State.charge_of_covered {s : State} {g n : Nat}
    (h : g = ownerAccess ∨ g ≤ 63 ∧ ∀ left, (s.grant g).remaining = some left → n ≤ left) :
    ∃ u, s.charge g n = some u ∧ u = { s with rds := { s.rds with grants := u.rds.grants } } ∧
      ∀ k ≤ 63, u.grant k = if k = g then
        { s.grant k with remaining := (s.grant k).remaining.map fun left => left - n } else s.grant k := by
  unfold State.charge
  rcases h with hown | ⟨hg, hleft⟩
  · refine ⟨s, if_pos hown, rfl, fun k hk => (if_neg ?_).symm⟩
    rw [hown]
    unfold ownerAccess
    omega
  · have hown : g ≠ ownerAccess := by unfold ownerAccess; omega
    rw [if_neg hown]
    cases hr : (s.grant g).remaining with
    | none =>
      refine ⟨s, rfl, rfl, fun k hk => ?_⟩
      split
      · rename_i hkg
        rw [hkg, hr, Option.map_none, ← hr]
      · rfl
    | some left =>
      refine ⟨_, if_neg (Nat.not_lt.2 (hleft left hr)), rfl, fun k hk => ?_⟩
      split
      · rename_i hkg
        rw [hkg, State.grant_setGrant_same hg, hr]
        rfl
      · rename_i hkg
        exact State.grant_setGrant_other hkg _

/-- The record of a read stream that has issued a chunk (R126, R127). -/
def ReadStream.issued (r : ReadStream) (h : Nat) (f : Fp) : ReadStream :=
  let past := r.offset + fpLength f
  { r with
    flights := r.flights ++
      [{ handle := h, fp := f, position := r.position, base := r.offset, from_ := max r.offset r.start,
         upto := min past r.stop, state := .reading, bytes := [], sent := max r.offset r.start, reread := false,
         discarded := false, buffer := none }],
    position := r.position + 1, offset := past,
    reason := if r.stop ≤ past then some .complete else none,
    endPoint := if r.stop ≤ past then r.stop else r.endPoint,
    segRead := if (r.seg.bind fun x => x.handles[r.position + 1 - x.first]?) = none then .wanted else .idle }

theorem ReadStream.nextSegment_of_idle {r : ReadStream} (h : r.segRead = .idle) :
    r.nextSegment = { r with segRead := if r.handleAt = none then .wanted else .idle } := by
  unfold ReadStream.nextSegment
  by_cases hn : r.handleAt = none
  · rw [if_pos ⟨Option.isNone_iff_eq_none.2 hn, h⟩, if_pos hn]
  · rw [if_neg (fun hc => hn (Option.isNone_iff_eq_none.1 hc.1)), if_neg hn, ← h]

theorem State.sendChunk_of_idle {s : State} {i h : Nat} {f : Fp} (hseg : (s.reader i).segRead = .idle)
    (hr : (s.reader i).reason = none) : s.sendChunk i h f =
      (s.setReader i ((s.reader i).issued h f)).onCtm fun m =>
        { m with chunkReqs := m.chunkReqs ++
            [{ handle := h, fp := f, cls := .read, who := .stream i (s.reader i).position }] } := by
  unfold State.sendChunk
  dsimp only
  rw [ReadStream.nextSegment_of_idle (by exact hseg), hr]
  simp only [decide_eq_true_eq]
  rfl

theorem ReadStream.offerNext_of_ready {r : ReadStream} {f : Flight} {fs : List Flight} (h : r.state = .running)
    (ho : r.offered = none) (hs : r.sending = none) (hf : r.flights = f :: fs) (hr : f.state = .ready) (hl : f.sent < f.upto) :
    r.offerNext = { r with offered := some { offset := f.sent, length := min messageSize (f.upto - f.sent), bytes := none } } := by
  unfold ReadStream.offerNext
  rw [if_pos ⟨h, ho, hs⟩, hf]
  exact if_pos ⟨hr, hl⟩

theorem State.setFlight_of_single {s : State} {i : Nat} {f g : Flight} (hfs : (s.reader i).flights = [f])
    (hp : g.position = f.position) : s.setFlight i g = s.setReader i { s.reader i with flights := [g] } := by
  unfold State.setFlight State.modReader
  simp [hfs, hp]

theorem State.readerSettle_eq_offerNext {s : State} {i : Nat} (hi : i < 16) (hf : (s.reader i).offerNext.flights ≠ []) :
    s.readerSettle i = s.setReader i (s.reader i).offerNext := by
  have hnot : ((s.setReader i (s.reader i).offerNext).reader i).finished = false := by
    rw [State.reader_setReader_same hi]
    simp [ReadStream.finished, ReadStream.drained, hf]
  unfold State.readerSettle State.modReader
  dsimp only
  rw [hnot]
  rfl

theorem exec_chunkReadReport_of_bytes {s : State} {i : Nat} {rep : ReadReport} {f : Flight} {bs : List Byte}
    (hrep : s.reportFor (ReadWho.isChunkOf i) = some rep) (hwho : rep.who = .chunk (.stream i f.position))
    (hans : rep.answer = .bytes bs) (hfs : (s.reader i).flights = [f]) (hdis : f.discarded = false) :
    exec (.chunkReadReport i) s = .next (((s.dropReport rep).setReader i { s.reader i with
      flights := [{ f with state := .ready, bytes := bs, buffer := some rep.job }] }).readerSettle i) := by
  have hfind : ((s.dropReport rep).reader i).flights.find? (fun g => some g.position = rep.who.position) = some f := by
    rw [show ((s.dropReport rep).reader i).flights = [f] from hfs, hwho]
    simp [ReadWho.position]
  change execChunkReadReport i s = _
  unfold execChunkReadReport
  rw [hrep]
  dsimp only
  rw [hfind]
  dsimp only
  unfold State.flightReported
  rw [hans]
  dsimp only
  rw [hdis, if_neg Bool.false_ne_true]
  rw [State.setFlight_of_single (s := s.dropReport rep) (f := f) hfs (by rfl)]
  rfl

/-- Settles O49. -/
theorem readersAdvance : Obligations.ReadersAdvance := by
  unfold Obligations.ReadersAdvance
  refine ⟨?_, ?_, ?_, ?_⟩
  · intro s i h f st c off _ hs hseg hh hl hp
    exact exec_seekStep_of_passed hs hseg hh hl hp
  · intro s i g h e hi hm hg hok
    have hexec := exec_chunkIssue_of_mayIssue hm hg (hok.imp id fun h => h.2.2.1)
    obtain ⟨u, hcharge, hu, hgrants⟩ := State.charge_of_covered (s := s) (n := (s.reader i).wanted (fpLength e.fp))
      (hok.imp id fun h => ⟨h.1, h.2.2.2⟩)
    obtain ⟨hst, hr, hf, ho, hseg, hh, hl, he, hd, hstall⟩ := hm
    have hissue : s.issueAt i g h = u.sendChunk i h e.fp := by
      unfold State.issueAt
      dsimp only
      rw [Tables.locate_of_entry hl he hd]
      dsimp only
      rw [show s.charge g (((s.reader i).range (fpLength e.fp)).2 - ((s.reader i).range (fpLength e.fp)).1) = some u from hcharge]
    have hreader : ∀ j, u.reader j = s.reader j := fun j => by rw [hu]; rfl
    rw [hissue, State.sendChunk_of_idle (by rw [hreader]; exact hseg) (by rw [hreader]; exact hr)] at hexec
    refine ⟨_, hexec, hgrants, ?_, ?_, fun j hj => ?_, ?_⟩
    · exact (State.reader_setReader_same hi _).trans (congrArg (fun r : ReadStream => r.issued h e.fp) (hreader i))
    · rw [hreader, hu]; rfl
    · exact (State.reader_setReader_other hj _).trans (hreader j)
    · rw [hu]; rfl
  · intro s i g h left e fl fs hi hg hm hfl hgr ha ht hleft hless
    have hown : g ≠ ownerAccess := by unfold ownerAccess; omega
    have hexec := exec_chunkIssue_of_mayIssue hm hgr (.inr ht)
    obtain ⟨hst, hr, hf, ho, hseg, hh, hl, he, hd, hstall⟩ := hm
    have hissue : s.issueAt i g h = (s.setReader i { s.reader i with
        reason := some .allowanceSpent, endPoint := max (s.reader i).offset (s.reader i).start }).readerSettle i := by
      have hcharge : s.charge g (((s.reader i).range (fpLength e.fp)).2 - ((s.reader i).range (fpLength e.fp)).1) = none := by
        unfold State.charge
        rw [if_neg hown, hleft]
        exact if_pos hless
      unfold State.issueAt
      dsimp only
      rw [Tables.locate_of_entry hl he hd]
      dsimp only
      rw [hcharge]
    generalize hv : ({ s.reader i with
      reason := some .allowanceSpent, endPoint := max (s.reader i).offset (s.reader i).start } : ReadStream) = v at hissue
    have hread : (s.setReader i v).reader i = v := State.reader_setReader_same hi v
    obtain ⟨o, hsettle⟩ := State.readerSettle_of_flights (s := s.setReader i v) hi (by rw [hread, ← hv]; simp [hfl])
    rw [hissue, hsettle, State.setReader_setReader, hread] at hexec
    refine ⟨_, hexec, ?_, ?_, ?_, rfl, rfl⟩
    all_goals rw [State.reader_setReader_same hi, ← hv]
    exact hfl
  · intro s i rep f bs hi hrep hwho hans hst hfl hfs hdis hoff hsend hsent
    have hexec := exec_chunkReadReport_of_bytes hrep hwho hans hfl hdis
    generalize hv : ({ s.reader i with flights := [{ f with state := .ready, bytes := bs, buffer := some rep.job }] } :
      ReadStream) = v at hexec
    have hoffer : v.offerNext = { v with
        offered := some { offset := f.sent, length := min messageSize (f.upto - f.sent), bytes := none } } := by
      rw [← hv]
      exact ReadStream.offerNext_of_ready hst hoff hsend (f := { f with state := .ready, bytes := bs, buffer := some rep.job })
        (by rfl) rfl hsent
    have hread : ((s.dropReport rep).setReader i v).reader i = v := State.reader_setReader_same hi v
    rw [State.readerSettle_eq_offerNext hi (by rw [hread, hoffer, ← hv]; exact List.cons_ne_nil _ _), State.setReader_setReader,
      hread, hoffer] at hexec
    refine ⟨_, hexec, ?_, ?_, rfl, fun j hj => State.reader_setReader_other hj _⟩
    · rw [State.reader_setReader_same hi, ← hv]
    · rw [State.reader_setReader_same hi]
      rfl

end Sys2Proof.Machine

/-! # Proofs: Integrity: the scrub, adoptions and the rebuild walk -/

namespace Sys2Proof.Machine

/-! ## The test of a scrub step (R139, R140) -/

theorem State.not_lostPosition {s : State} {p : Nat} (ha : s.igu.adoption = none) (h : (s.member p).whole) :
    s.lostPosition p = false := by
  rw [State.lostPosition_of_whole h, State.adopting, ha]
  rfl

/-- A waiting step that finds a member at rest is deferred, and counted once (R139). -/
theorem State.scrubTest_of_standby {s : State} {st : ScrubStep} {p : Nat} (hs : s.igu.step = some st) (hr : st.reading = false)
    (hd : st.deferred = false) (hp : p ∈ s.positions) (hm : s.member p = .standby) (ha : s.igu.adoption = none) :
    s.scrubTest = { s with
      igu := { s.igu with step := some { st with deferred := true }, deferred := tallyUp 50 s.igu.deferred } } := by
  have hrest : ((s.positions.filter fun q => !s.lostPosition q).any fun q => s.member q = .standby || s.member q = .off) = true :=
    List.any_eq_true.2 ⟨p, List.mem_filter.2 ⟨hp, by
      rw [State.not_lostPosition ha (by rw [hm]; exact MemberState.whole_standby)]; rfl⟩, by rw [hm]; rfl⟩
  unfold State.scrubTest
  rw [hs]
  dsimp only
  rw [if_neg (by rw [hr]; exact Bool.false_ne_true), hrest, if_pos rfl, if_neg (by rw [hd]; exact Bool.false_ne_true)]
  rfl

/-- A waiting step begins its reads when every member is ACTIVE (R139, R140). -/
theorem State.scrubTest_of_active {s : State} {st : ScrubStep} (hs : s.igu.step = some st) (hr : st.reading = false)
    (hm : ∀ p ∈ s.positions, s.member p = .active) (hc : s.scrubbable st.container = true) :
    s.scrubTest = ((s.onIgu fun g => { g with step := some { st with reading := true } }).readRaise st.container).askBuffers
      .scrub (s.nMembers + 1) := by
  have hin : ∀ q ∈ s.positions.filter fun q => !s.lostPosition q, s.member q = .active :=
    fun q hq => hm q (List.mem_filter.1 hq).1
  have hrest : ((s.positions.filter fun q => !s.lostPosition q).any fun q => s.member q = .standby || s.member q = .off) = false :=
    List.any_eq_false.2 fun q hq => by rw [hin q hq]; decide
  have hready : ((s.positions.filter fun q => !s.lostPosition q).all fun q => s.member q = .active || s.member q = .rebuilding) =
      true := List.all_eq_true.2 fun q hq => by rw [hin q hq]; rfl
  unfold State.scrubTest
  rw [hs]
  dsimp only
  rw [if_neg (by rw [hr]; exact Bool.false_ne_true), hrest, if_neg Bool.false_ne_true, hready, if_pos rfl, hc, if_pos rfl]
  rfl

/-- A scrub step's reads, submitted or waiting for their buffers: of the rest only the channels, the pool and the returned
operations change (R140, R175). -/
theorem State.askBuffers_scrub {u : State} {st : ScrubStep} (h : u.igu.step = some st) (n : Nat) :
    ∃ le bq st2 ch it sa rt, u.askBuffers .scrub n = { u with
        igu := { u.igu with step := some st2 }, mec := { u.mec with lent := le, bufferQueue := bq }, chans := ch,
        pwc := { u.pwc with idleTimers := it, standbyAsks := sa }, returns := rt } ∧
      st2.container = st.container ∧ st2.reading = st.reading := by
  have hkeep : ∀ le bq, ({ u with mec := { u.mec with lent := le, bufferQueue := bq } } : State) = { u with
      igu := { u.igu with step := some st }, mec := { u.mec with lent := le, bufferQueue := bq } } := fun le bq => by
    rw [← h]
  unfold State.askBuffers State.takeBuffers
  by_cases hroom : n ≤ u.mec.freeBuffers
  · rw [if_pos hroom]
    dsimp only
    unfold State.startAsker
    split
    · dsimp only
      unfold State.startScrubReads
      rw [show (u.onMec fun m => m.setHeld .scrub (m.heldBy .scrub + n)).igu.step = some st from h]
      obtain ⟨ch, it, sa, rt, hsub⟩ := State.submitAll_frame ((u.onMec fun m => m.setHeld .scrub (m.heldBy .scrub + n)).onIgu
        fun g => { g with step := some { st with started := true, units := Vector.ofFn fun p : Fin 4 =>
          if ((u.onMec fun m => m.setHeld .scrub (m.heldBy .scrub + n)).positions.filter fun p =>
            !(u.onMec fun m => m.setHeld .scrub (m.heldBy .scrub + n)).unavailable p st.container).contains p.val then
              UnitRead.out else UnitRead.lost } })
        (((u.onMec fun m => m.setHeld .scrub (m.heldBy .scrub + n)).positions.filter fun p =>
          !(u.onMec fun m => m.setHeld .scrub (m.heldBy .scrub + n)).unavailable p st.container).map fun p =>
            (p, readOp .scrub st.container 0 unitSize .igu .scrubRead))
      exact ⟨_, u.mec.bufferQueue, _, ch, it, sa, rt, hsub, rfl, rfl⟩
    · exact ⟨_, u.mec.bufferQueue, st, u.chans, u.pwc.idleTimers, u.pwc.standbyAsks, u.returns, hkeep _ _, rfl, rfl⟩
  · rw [if_neg hroom]
    exact ⟨u.mec.lent, _, st, u.chans, u.pwc.idleTimers, u.pwc.standbyAsks, u.returns, hkeep _ _, rfl, rfl⟩

theorem State.scrubbable_of_sealed {s : State} {c : Nat} {v : Container} (hv : s.cont c = some v) (h : v.state = .sealed) :
    s.scrubbable c = true := by
  unfold State.scrubbable
  rw [hv]
  dsimp only
  rw [h]
  rfl

/-- A step that begins reads its container, which counts one read more (R140). -/
theorem State.scrubTest_begins {s : State} {st : ScrubStep} {v : Container} (hs : s.igu.step = some st) (hr : st.reading = false)
    (hm : ∀ p ∈ s.positions, s.member p = .active) (hc : s.scrubbable st.container = true)
    (hv : s.cont st.container = some v) : ∃ le bq st2 ch it sa rt,
      s.scrubTest = { s with
        igu := { s.igu with step := some st2 }, mec := { s.mec with lent := le, bufferQueue := bq }, chans := ch,
        pwc := { s.pwc with idleTimers := it, standbyAsks := sa }, returns := rt,
        tables := s.tables.setCont st.container (some { v with reads := v.reads + 1 }) } ∧
      st2.container = st.container ∧ st2.reading = true := by
  rw [State.scrubTest_of_active hs hr hm hc]
  generalize hw : (s.onIgu fun g => { g with step := some { st with reading := true } }) = w
  have hraise : w.readRaise st.container = w.setCont st.container (some { v with reads := v.reads + 1 }) :=
    State.modCont_of_cont (by rw [← hw]; exact hv) _
  obtain ⟨le, bq, st2, ch, it, sa, rt, hask, hcont, hreading⟩ := State.askBuffers_scrub
    (u := w.setCont st.container (some { v with reads := v.reads + 1 })) (st := { st with reading := true })
    (by rw [← hw]; rfl) (s.nMembers + 1)
  exact ⟨le, bq, st2, ch, it, sa, rt, by rw [hraise, hask, ← hw]; rfl, hcont, hreading⟩

/-! ## The scrub timer (R138) -/

theorem Lnk.isSome_raised_scrub (l : Lnk) (fs : List Field) : (l.raised slotScrub fs).notices[31].isSome = true := by
  simp [Lnk.raised, slotScrub]

/-- A step as the search of the timer makes it. -/
def ScrubStep.fresh (c : Nat) : ScrubStep :=
  { container := c, reading := false, deferred := false, started := false, units := Vector.replicate 4 .lost,
    reread := [], outcome := none }

/-- How often the search of the timer wraps the cursor (R138): when it starts again at container 0, and when it moves past the
last container. -/
def State.wraps (s : State) (c : Nat) (wrapped : Bool) : Nat :=
  (if wrapped = true then 1 else 0) + if s.containerCount ≤ c + 1 then 1 else 0

/-- The container that the search finds becomes the pending step, which is tested (R138). -/
theorem State.queueStep_eq (s : State) (c : Nat) (wrapped : Bool) : ∃ b l,
    s.queueStep c wrapped = ({ s with
      igu := { s.igu with step := some (ScrubStep.fresh c) }, lnk := l,
      tables := { s.tables with
        scrubCursor := if s.containerCount ≤ c + 1 then 0 else c + 1,
        scrubPass := (List.range (s.wraps c wrapped)).foldl (fun n _ => tallyUp 70 n) s.tables.scrubPass, bad := b } } :
      State).scrubTest ∧
    (0 < s.wraps c wrapped → l.notices[31].isSome = true) := by
  unfold State.queueStep State.wraps
  by_cases hend : s.containerCount ≤ c + 1 <;> cases wrapped
  all_goals simp only [hend, decide_true, decide_false, if_true, if_false, Bool.or_true, Bool.or_false, Bool.false_eq_true]
  · exact ⟨_, _, rfl, fun _ => Lnk.isSome_raised_scrub s.lnk _⟩
  · exact ⟨_, _, rfl, fun _ => Lnk.isSome_raised_scrub s.lnk _⟩
  · exact ⟨_, _, rfl, fun h => absurd h (Nat.lt_irrefl 0)⟩
  · exact ⟨_, _, rfl, fun _ => Lnk.isSome_raised_scrub s.lnk _⟩

/-- The timer that has reached 0 while it counts (R138). -/
def State.scrubDue (s : State) : Prop :=
  0 < s.igu.period ∧ s.pwc.box = .run ∧ s.ctm.state.attached = true ∧ s.igu.timer = 0

/-- The state with the scrub timer loaded again. -/
def State.scrubReloaded (s : State) : State := { s with igu := { s.igu with timer := s.igu.period } }

theorem exec_scrubTimerExpire_of_pending {s : State} {st : ScrubStep} (h : s.scrubDue) (hs : s.igu.step = some st) :
    exec .scrubTimerExpire s = .next { s with
      igu := { s.igu with timer := s.igu.period, lag := tallyUp 78 s.igu.lag } } := by
  obtain ⟨hp, hb, ha, ht⟩ := h
  change execScrubTimerExpire s = _
  unfold execScrubTimerExpire
  rw [if_pos ⟨by simp [State.scrubCounts, hp, hb, ha], ht⟩]
  dsimp only
  rw [if_pos (by rw [show (s.onIgu fun g => { g with timer := g.period }).igu.step = some st from hs]; rfl)]
  rfl

theorem exec_scrubTimerExpire_of_idle {s : State} (h : s.scrubDue) (hs : s.igu.step = none) :
    exec .scrubTimerExpire s = .next s.scrubReloaded.scrubSearch := by
  obtain ⟨hp, hb, ha, ht⟩ := h
  change execScrubTimerExpire s = _
  unfold execScrubTimerExpire
  rw [if_pos ⟨by simp [State.scrubCounts, hp, hb, ha], ht⟩]
  dsimp only
  rw [if_neg (by rw [show (s.onIgu fun g => { g with timer := g.period }).igu.step = none from hs]; exact Bool.false_ne_true)]
  rfl

/-- The container that a search finds can be scrubbed. -/
theorem State.scrubbable_of_next {s : State} {start c : Nat} (h : s.nextScrubbable start = some c) : s.scrubbable c = true := by
  obtain ⟨e, he, hc⟩ := Option.map_eq_some_iff.1 h
  have hfound := List.find?_some he
  rw [Bool.and_eq_true] at hfound
  rw [← hc]
  exact hfound.2

/-- The search from the cursor on, or else from container 0 on (R138). -/
theorem State.scrubSearch_of_found {s : State} {c : Nat} (h : s.nextScrubbable s.tables.scrubCursor = some c ∨
      s.nextScrubbable s.tables.scrubCursor = none ∧ s.nextScrubbable 0 = some c) :
    s.scrubSearch = s.queueStep c (decide (s.nextScrubbable s.tables.scrubCursor = none)) ∧ s.scrubbable c = true := by
  unfold State.scrubSearch
  rcases h with h | ⟨hnone, h⟩
  · rw [h]
    exact ⟨rfl, State.scrubbable_of_next h⟩
  · rw [hnone]
    dsimp only
    rw [h]
    exact ⟨rfl, State.scrubbable_of_next h⟩

theorem scrubRuns_timer_deferred (s : State) (c q : Nat) (h : s.scrubDue) (hs : s.igu.step = none) (hq : q ∈ s.positions)
    (hm : s.member q = .standby) (ha : s.igu.adoption = none)
    (hfound : s.nextScrubbable s.tables.scrubCursor = some c ∨
      s.nextScrubbable s.tables.scrubCursor = none ∧ s.nextScrubbable 0 = some c) :
    Completes .scrubTimerExpire s fun t =>
      let wraps := (if s.nextScrubbable s.tables.scrubCursor = none then 1 else 0) +
        (if s.containerCount ≤ c + 1 then 1 else 0)
      s.scrubbable c = true ∧
      t.igu.timer = s.igu.period ∧ (t.igu.step.map fun x => (x.container, x.reading, x.deferred)) = some (c, false, true) ∧
      t.igu.lag = s.igu.lag ∧ t.igu.deferred = tallyUp 50 s.igu.deferred ∧
      t.tables.scrubCursor = (if s.containerCount ≤ c + 1 then 0 else c + 1) ∧
      t.tables.scrubPass = (List.range wraps).foldl (fun n _ => tallyUp 70 n) s.tables.scrubPass ∧
      (0 < wraps → t.lnk.notices[31].isSome = true) ∧ t.tables.entries = s.tables.entries ∧
      t.tables.containers = s.tables.containers ∧ t.chans = s.chans ∧ t.mem = s.mem := by
  obtain ⟨hsearch, hscrub⟩ := State.scrubSearch_of_found (s := s.scrubReloaded) (by exact hfound)
  have hexec := exec_scrubTimerExpire_of_idle h hs
  obtain ⟨b, l, hqueue, hnotice⟩ := s.scrubReloaded.queueStep_eq c (decide (s.nextScrubbable s.tables.scrubCursor = none))
  have hwraps : s.scrubReloaded.wraps c (decide (s.nextScrubbable s.tables.scrubCursor = none)) =
      (if s.nextScrubbable s.tables.scrubCursor = none then 1 else 0) + if s.containerCount ≤ c + 1 then 1 else 0 := by
    unfold State.wraps
    simp only [decide_eq_true_eq]
    rfl
  rw [hwraps] at hqueue hnotice
  rw [hsearch, show s.scrubReloaded.queueStep c (decide (s.scrubReloaded.nextScrubbable s.scrubReloaded.tables.scrubCursor = none)) =
    s.scrubReloaded.queueStep c (decide (s.nextScrubbable s.tables.scrubCursor = none)) from rfl, hqueue,
    State.scrubTest_of_standby (st := ScrubStep.fresh c) (p := q) rfl rfl rfl (by exact hq) (by exact hm) (by exact ha)] at hexec
  exact ⟨_, hexec, hscrub, rfl, rfl, rfl, rfl, rfl, rfl, hnotice, rfl, rfl, rfl, rfl⟩

theorem scrubRuns_timer_begins (s : State) (c : Nat) (v : Container) (h : s.scrubDue) (hs : s.igu.step = none)
    (hm : ∀ p ∈ s.positions, s.member p = .active) (hfound : s.nextScrubbable s.tables.scrubCursor = some c)
    (hv : s.cont c = some v) (hc : c + 1 < s.containerCount) :
    Completes .scrubTimerExpire s fun t =>
      t.igu.timer = s.igu.period ∧ (t.igu.step.map fun x => (x.container, x.reading)) = some (c, true) ∧
      t.tables.scrubCursor = c + 1 ∧ t.tables.scrubPass = s.tables.scrubPass ∧
      t.cont c = some { v with reads := v.reads + 1 } ∧ t.tables.entries = s.tables.entries ∧ t.mem = s.mem := by
  obtain ⟨hsearch, hscrub⟩ := State.scrubSearch_of_found (s := s.scrubReloaded) (.inl hfound)
  have hexec := exec_scrubTimerExpire_of_idle h hs
  obtain ⟨b, l, hqueue, -⟩ := s.scrubReloaded.queueStep_eq c false
  have hwraps : s.scrubReloaded.wraps c false = 0 := by
    unfold State.wraps
    rw [if_neg Bool.false_ne_true, if_neg (show ¬ s.scrubReloaded.containerCount ≤ c + 1 from Nat.not_le.2 hc)]
  rw [hwraps] at hqueue
  generalize hu : ({ s.scrubReloaded with
      igu := { s.scrubReloaded.igu with step := some (ScrubStep.fresh c) }, lnk := l,
      tables := { s.scrubReloaded.tables with
        scrubCursor := if s.scrubReloaded.containerCount ≤ c + 1 then 0 else c + 1,
        scrubPass := (List.range 0).foldl (fun n _ => tallyUp 70 n) s.scrubReloaded.tables.scrubPass, bad := b } } : State) = u
    at hqueue
  obtain ⟨le, bq, st2, ch, it, sa, rt, htest, hcont, hreading⟩ := State.scrubTest_begins (s := u) (st := ScrubStep.fresh c) (v := v)
    (by rw [← hu]) rfl (by rw [← hu]; exact hm) (by rw [← hu]; exact hscrub) (by rw [← hu]; exact hv)
  rw [hsearch, show decide (s.scrubReloaded.nextScrubbable s.scrubReloaded.tables.scrubCursor = none) = false from
    decide_eq_false (by rw [show s.scrubReloaded.nextScrubbable s.scrubReloaded.tables.scrubCursor = some c from hfound]; simp),
    hqueue, htest] at hexec
  refine ⟨_, hexec, ?_, ?_, ?_, ?_, State.cont_setCont_same .., ?_, ?_⟩
  · rw [← hu]; rfl
  · exact congrArg some (Prod.ext hcont hreading)
  · rw [← hu]; exact if_neg (Nat.not_le.2 hc)
  · rw [← hu]; rfl
  · rw [← hu]; rfl
  · rw [← hu]; rfl

/-! ## Setting the period, and starting a waiting step (R137, R139) -/

theorem exec_setScrub (s : State) (tag p : Nat) (h : s.ctm.state ≠ .failed) :
    exec (.setScrub tag p) s = .next { s with
      igu := { s.igu with period := min 65535 p, timer := min 65535 p },
      lnk := s.lnk.answered (.setScrub tag p) (ownerReply tag 0x0F .ok [⟨2, min 65535 p⟩]) } := by
  have hexec : exec (.setScrub tag p) s = .next _ := congrArg Host.Outcome.next (if_neg h)
  rw [hexec, State.answer_of_handedOver (l := s.lnk) (by rfl)]
  rfl

theorem scrubRuns_begins (s : State) (st : ScrubStep) (v : Container) (hs : s.igu.step = some st) (hr : st.reading = false)
    (hm : ∀ p ∈ s.positions, s.member p = .active) (hv : s.cont st.container = some v) (hsealed : v.state = .sealed) :
    Completes .scrubStepStart s fun t =>
      (t.igu.step.map fun x => (x.container, x.reading)) = some (st.container, true) ∧
      t.cont st.container = some { v with reads := v.reads + 1 } ∧ t.mem = s.mem ∧
      t.tables.entries = s.tables.entries := by
  obtain ⟨le, bq, st2, ch, it, sa, rt, htest, hcont, hreading⟩ := State.scrubTest_begins hs hr hm
    (State.scrubbable_of_sealed hv hsealed) hv
  have hexec : exec .scrubStepStart s = .next s.scrubTest := rfl
  rw [htest] at hexec
  exact ⟨_, hexec, congrArg some (Prod.ext hcont hreading), State.cont_setCont_same .., rfl, rfl⟩

/-! ## An operation that joins an empty queue (R98, R99) -/

theorem State.stalledAt_congr {s t : State} (h : ∀ q k, (t.chan q).waitingFor k = (s.chan q).waitingFor k) (r : Requester)
    (k : Cls) : t.stalledAt r k = s.stalledAt r k := by
  unfold State.stalledAt
  simp only [h]

/-- An operation stands alone in the queue of its class of a channel, which has asked for a spin-up if its member was at rest. -/
def State.joinedAt (s t : State) (p : Nat) (o : Op) : Prop :=
  ∃ b a, t.chan p = { (s.chan p).setQueue o.cls [o] with idleReported := b, spinupAsked := a } ∧
    (s.member p = .standby ∨ s.member p = .off → a = true)

theorem State.joinedAt_queue {s t : State} {p : Nat} {o : Op} (h : s.joinedAt t p o) : (t.chan p).queue o.cls = [o] := by
  obtain ⟨b, a, hchan, -⟩ := h
  rw [hchan]
  exact (Channel.queue_setQueue ..).trans (if_pos rfl)

/-- Submitting an operation has put it, alone, into the queue of its class of one channel; of the rest only the idle timers can have
changed. -/
structure State.Joined (s t : State) (p : Nat) (o : Op) : Prop where
  frame : ∃ ch it sa, t = { s with chans := ch, pwc := { s.pwc with idleTimers := it, standbyAsks := sa } }
  here : s.joinedAt t p o
  others : ∀ q, q ≠ p → t.chan q = s.chan q

theorem State.Joined.chan {s t : State} {p : Nat} {o : Op} (h : s.Joined t p o) :
    ∃ b a, t.chan p = { (s.chan p).setQueue o.cls [o] with idleReported := b, spinupAsked := a } := by
  obtain ⟨b, a, hchan, -⟩ := h.here
  exact ⟨b, a, hchan⟩

theorem State.Joined.asks {s t : State} {p : Nat} {o : Op} (h : s.Joined t p o) (hm : s.member p = .standby ∨ s.member p = .off) :
    (t.chan p).spinupAsked = true := by
  obtain ⟨b, a, hchan, ha⟩ := h.here
  rw [hchan]
  exact ha hm

theorem State.Joined.queue {s t : State} {p : Nat} {o : Op} (h : s.Joined t p o) : (t.chan p).queue o.cls = [o] :=
  State.joinedAt_queue h.here

theorem State.Joined.member {s t : State} {p : Nat} {o : Op} (h : s.Joined t p o) (q : Nat) : t.member q = s.member q := by
  unfold State.member
  by_cases hq : q = p
  · obtain ⟨b, a, hchan⟩ := h.chan
    rw [hq, hchan]
    rfl
  · rw [h.others q hq]

theorem State.Joined.waitingFor {s t : State} {p : Nat} {o : Op} (h : s.Joined t p o) (q : Nat) (k : Cls) :
    (t.chan q).waitingFor k = (s.chan q).waitingFor k := by
  by_cases hq : q = p
  · obtain ⟨b, a, hchan⟩ := h.chan
    rw [hq, hchan]
    rfl
  · rw [h.others q hq]

/-- A valid operation submitted to a member that is there, whose queue of the class is empty with nobody waiting, joins it. -/
theorem State.submit_joins {s : State} {p : Nat} {o : Op} (hp : p < 4) (hmade : madeOp o = o) (hf : s.ctm.state ≠ .failed)
    (hv : s.opValid o = true) (hm : s.member p ≠ .failed ∧ s.member p ≠ .absent)
    (hst : s.stalledAt o.requester o.cls = none) (hq : (s.chan p).queue o.cls = []) (hw : (s.chan p).waitingFor o.cls = []) :
    s.Joined (s.submit p o) p o := by
  have hjoin : (s.chan p).enqueue o = (s.chan p).setQueue o.cls [o] := by
    rw [Channel.enqueue_of_room hw (by rw [hq]; decide), hq]
    rfl
  obtain ⟨b, hchan⟩ := State.chan_enqueue_same (s := s) hp o
  obtain ⟨ch, it, sa, hframe⟩ := State.enqueue_frame s p o
  rw [hjoin] at hchan
  have hsubmit : s.submit p o = s.arrive p o := by
    unfold State.submit
    dsimp only
    rw [if_neg hf, hmade, hst]
  have hasleep : s.member p = .standby ∨ s.member p = .off →
      s.submit p o = (s.enqueue p o).modChan p fun c => { c with spinupAsked := true } := fun h => by
    rw [hsubmit]
    unfold State.arrive
    rw [hv, if_neg (by exact Bool.false_ne_true)]
    rcases h with h | h <;> rw [h]
  have hawake : ¬ (s.member p = .standby ∨ s.member p = .off) → s.submit p o = s.enqueue p o := fun h => by
    rw [hsubmit]
    unfold State.arrive
    rw [hv, if_neg (by exact Bool.false_ne_true)]
    cases hs : s.member p <;> simp_all
  by_cases h : s.member p = .standby ∨ s.member p = .off
  · rw [hasleep h]
    have hsame := State.chan_modChan_same (s := s.enqueue p o) hp fun c => { c with spinupAsked := true }
    refine ⟨⟨_, it, sa, by rw [hframe]; rfl⟩, ⟨b, true, hsame.trans (by rw [hchan]), fun _ => rfl⟩, fun q hne => ?_⟩
    exact (State.chan_modChan_other hne _).trans (State.chan_enqueue_other hne o)
  · rw [hawake h]
    exact ⟨⟨ch, it, sa, hframe⟩, ⟨b, (s.chan p).spinupAsked, hchan, fun hc => absurd hc h⟩,
      fun q hne => State.chan_enqueue_other hne o⟩

/-- One operation is submitted to every position of a list whose queues of the class are empty with nobody waiting: each member
that is there has it, alone, in its queue, and the other channels stand (R98). -/
theorem State.submitAll_joins {o : Op} (hmade : madeOp o = o) (ps : List Nat) : ∀ {s : State}, ps.Nodup → s.ctm.state ≠ .failed →
    s.opValid o = true → s.stalledAt o.requester o.cls = none →
    (∀ q ∈ ps, q < 4 ∧ (s.chan q).queue o.cls = [] ∧ (s.chan q).waitingFor o.cls = []) →
    (∀ q ∈ ps, s.member q ≠ .failed ∧ s.member q ≠ .absent → s.joinedAt (s.submitAll (ps.map fun p => (p, o))) q o) ∧
      ∀ q ∉ ps, (s.submitAll (ps.map fun p => (p, o))).chan q = s.chan q := by
  induction ps with
  | nil => exact fun _ _ _ _ _ => ⟨fun q hq => absurd hq List.not_mem_nil, fun _ _ => rfl⟩
  | cons p ps ih =>
    intro s hnodup hf hv hst hall
    obtain ⟨hp, hq, hw⟩ := hall p List.mem_cons_self
    obtain ⟨hnot, hnodup⟩ := List.nodup_cons.1 hnodup
    obtain ⟨hother, hwait, hhere⟩ : (∀ q, q ≠ p → (s.submit p o).chan q = s.chan q) ∧
        (∀ q k, ((s.submit p o).chan q).waitingFor k = (s.chan q).waitingFor k) ∧
        (s.member p ≠ .failed ∧ s.member p ≠ .absent → s.joinedAt (s.submit p o) p o) := by
      by_cases hm : s.member p ≠ .failed ∧ s.member p ≠ .absent
      · have hjoin := State.submit_joins hp hmade hf hv hm hst hq hw
        exact ⟨hjoin.others, hjoin.waitingFor, fun _ => hjoin.here⟩
      · have hback : s.submit p o = s.giveBack p o .memberFailed := by
          unfold State.submit
          dsimp only
          rw [if_neg hf, hmade, hst]
          dsimp only
          unfold State.arrive
          rw [hv, if_neg (by exact Bool.false_ne_true)]
          cases hs : s.member p <;> simp_all
        have hchan : ∀ q, (s.submit p o).chan q = s.chan q := fun q => by rw [hback, State.chan_giveBack]
        exact ⟨fun q _ => hchan q, fun q k => by rw [hchan], fun h => absurd h hm⟩
    obtain ⟨ch, it, sa, rt, hframe⟩ := State.submit_frame s p o
    obtain ⟨hin, hout⟩ := ih (s := s.submit p o) hnodup (by rw [hframe]; exact hf) (by rw [hframe]; exact hv)
      (by rw [State.stalledAt_congr hwait]; exact hst) fun q hq => by
        obtain ⟨h4, hempty, hnone⟩ := hall q (List.mem_cons_of_mem _ hq)
        rw [hother q fun h => hnot (h ▸ hq)]
        exact ⟨h4, hempty, hnone⟩
    refine ⟨fun q hq hm => ?_, fun q hq => ?_⟩
    · rcases List.mem_cons.1 hq with rfl | hq
      · obtain ⟨b, a, hchan, ha⟩ := hhere hm
        exact ⟨b, a, (hout q hnot).trans hchan, ha⟩
      · have hsame := hother q fun h => hnot (h ▸ hq)
        have hmember : (s.submit p o).member q = s.member q := congrArg (fun c : Channel => c.member.state) hsame
        obtain ⟨b, a, hchan, ha⟩ := hin q hq (by rw [hmember]; exact hm)
        exact ⟨b, a, hchan.trans (by rw [hsame]), fun h => ha (by rw [hmember]; exact h)⟩
    · exact (hout q fun h => hq (List.mem_cons_of_mem _ h)).trans (hother q fun h => hq (h ▸ List.mem_cons_self))

/-! ## The array state with one member that is not ACTIVE (R69) -/

/-- Every position but one holds an ACTIVE member, and none but that one is being adopted. -/
abbrev State.othersActive (s : State) (p : Nat) : Prop :=
  p ∈ s.positions ∧ ∀ q ∈ s.positions, q ≠ p → s.member q = .active ∧ s.adopting q = false

theorem State.lost_rebuilding_of_others {s : State} {p : Nat} (h : s.othersActive p) :
    (s.positions.filter fun q => s.lostPosition q) = (if s.lostPosition p = true then [p] else []) ∧
      (s.positions.filter fun q => s.rebuildingPosition q) = if s.rebuildingPosition p = true then [p] else [] := by
  obtain ⟨hp, ho⟩ := h
  have hlost : ∀ q ∈ s.positions, q ≠ p → s.lostPosition q = false := fun q hq hne => by
    rw [State.lostPosition_of_whole (by rw [(ho q hq hne).1]; exact MemberState.whole_active), (ho q hq hne).2]
  have hreb : ∀ q ∈ s.positions, q ≠ p → s.rebuildingPosition q = false := fun q hq hne =>
    State.rebuildingPosition_of_whole (by rw [(ho q hq hne).1]; exact MemberState.whole_active)
  have hone : ∀ f : Nat → Bool, (∀ q ∈ s.positions, q ≠ p → f q = false) →
      s.positions.filter f = if f p = true then [p] else [] := fun f hf => by
    split
    · rename_i hfp
      refine filter_range_of_one hp fun q hq => ?_
      by_cases hqp : q = p
      · rw [hqp, hfp, decide_eq_true rfl]
      · rw [hf q hq hqp, decide_eq_false hqp]
    · rename_i hfp
      refine List.filter_eq_nil_iff.2 fun q hq => ?_
      by_cases hqp : q = p
      · rw [hqp]; exact hfp
      · rw [hf q hq hqp]; exact Bool.false_ne_true
  exact ⟨hone _ hlost, hone _ hreb⟩

theorem State.derived_of_adopting {s : State} {p : Nat} (h : s.othersActive p) (ha : s.adopting p = true) :
    s.derived = .degraded := by
  obtain ⟨hl, hr⟩ := State.lost_rebuilding_of_others h
  have hlost : s.lostPosition p = true := by
    unfold State.lostPosition
    rw [ha, Bool.or_true]
  have hreb : s.rebuildingPosition p = false := by
    unfold State.rebuildingPosition
    rw [ha, Bool.not_true, Bool.and_false]
  unfold State.derived
  rw [hl, hr, hlost, hreb]
  rfl

theorem State.derived_of_rebuilding {s : State} {p : Nat} (h : s.othersActive p) (hm : s.member p = .rebuilding)
    (ha : s.adopting p = false) : s.derived = .rebuilding := by
  obtain ⟨hl, hr⟩ := State.lost_rebuilding_of_others h
  have hlost : s.lostPosition p = false := by
    unfold State.lostPosition
    rw [ha, hm]
    rfl
  have hreb : s.rebuildingPosition p = true := by
    unfold State.rebuildingPosition
    rw [ha, hm]
    rfl
  unfold State.derived
  rw [hl, hr, hlost, hreb]
  rfl

theorem State.derived_of_active {s : State} (h : ∀ q ∈ s.positions, s.member q = .active) (ha : s.igu.adoption = none) :
    s.derived = .normal := by
  have hl : (s.positions.filter fun q => s.lostPosition q) = [] := List.filter_eq_nil_iff.2 fun q hq => by
    rw [State.not_lostPosition ha (by rw [h q hq]; exact MemberState.whole_active)]
    exact Bool.false_ne_true
  have hr : (s.positions.filter fun q => s.rebuildingPosition q) = [] := List.filter_eq_nil_iff.2 fun q hq => by
    rw [State.rebuildingPosition_of_whole (by rw [h q hq]; exact MemberState.whole_active)]
    exact Bool.false_ne_true
  unfold State.derived
  rw [hl, hr]
  rfl

/-- A report that R69 counts: the array is in the state derived, and noticed. -/
theorem State.memberReported_of_derived {s : State} {d : ArrayState} (hs : s.igu.step = none) (hb : s.pwc.box = .run)
    (ha : s.ctm.state.attached = true) (hd : s.derived = d) (hne : d ≠ s.ctm.state) (hf : d ≠ .failed) :
    s.memberReported = (s.onCtm fun m => { m with state := d }).noticeArray .state := by
  have hder : s.derive = (s.onCtm fun m => { m with state := d }).noticeArray .state := by
    unfold State.derive
    rw [if_pos ha]
    dsimp only
    rw [hd, if_neg hne, if_neg hf]
  unfold State.memberReported
  rw [hder, State.scrubTest_of_none (by exact hs), State.checkStep5_of_run (by exact hb)]

/-! ## The checks of a damaged container (R142, R143) -/

/-- What the chunk and record checks of a container can change: the index entries with its answer, and the two tallies. -/
def State.checksOnly (s t : State) : Prop := ∃ x es b m r, t = { s with
  idx := x, tables := { s.tables with entries := es, bad := b }, igu := { s.igu with chunksMarked := m, recordsFailed := r } }

theorem State.checksOnly_refl (s : State) : s.checksOnly s :=
  ⟨s.idx, s.tables.entries, s.tables.bad, s.igu.chunksMarked, s.igu.recordsFailed, rfl⟩

theorem State.checksOnly_trans {s t u : State} (h : s.checksOnly t) (h' : t.checksOnly u) : s.checksOnly u := by
  obtain ⟨x, es, b, m, r, rfl⟩ := h
  obtain ⟨x', es', b', m', r', rfl⟩ := h'
  exact ⟨x', es', b', m', r', rfl⟩

theorem State.checksOnly_idxDamage (s : State) (h : Nat) (f : Fp) : s.checksOnly (s.idxDamage h f) := by
  have hanswer : ∀ a, s.checksOnly (s.idxAnswer a) := fun a =>
    ⟨_, s.tables.entries, s.tables.bad, s.igu.chunksMarked, s.igu.recordsFailed, rfl⟩
  unfold State.idxDamage
  split
  · exact hanswer _
  · split
    · exact hanswer _
    · split
      · exact ⟨_, _, _, s.igu.chunksMarked, s.igu.recordsFailed, rfl⟩
      · exact hanswer _

theorem State.checksOnly_markHere (s : State) (c : Nat) (e : DirEntry) : s.checksOnly (s.markHere c e) := by
  unfold State.markHere
  split
  · split
    · refine State.checksOnly_trans (s.checksOnly_idxDamage e.handle e.fp) ?_
      generalize s.idxDamage e.handle e.fp = u
      exact ⟨u.idx, u.tables.entries, u.tables.bad, _, u.igu.recordsFailed, rfl⟩
    · exact s.checksOnly_refl
  · exact s.checksOnly_refl

theorem State.checksOnly_checkEntry (s : State) (c : Nat) (k : ContKind) (area : List Byte) (gone : List Nat) (e : DirEntry) :
    s.checksOnly (s.checkEntry c k area gone e) := by
  unfold State.checkEntry
  dsimp only
  split
  · cases k with
    | data =>
      dsimp only
      split
      · exact s.checksOnly_refl
      · exact s.checksOnly_markHere c e
    | recipe =>
      dsimp only
      split
      · exact s.checksOnly_refl
      · exact ⟨s.idx, s.tables.entries, s.tables.bad, s.igu.chunksMarked, _, rfl⟩
  · exact s.checksOnly_refl

theorem State.checksOnly_checkContainer (s : State) (c : Nat) (area : List Byte) (gone : List Nat) :
    s.checksOnly (s.checkContainer c area gone) := by
  have hall : ∀ (k : ContKind) (es : List DirEntry) (u : State), s.checksOnly u →
      s.checksOnly (es.foldl (fun s e => s.checkEntry c k area gone e) u) := fun k es => by
    induction es with
    | nil => exact fun _ h => h
    | cons e es ih => exact fun u h => ih _ (State.checksOnly_trans h (u.checksOnly_checkEntry c k area gone e))
  unfold State.checkContainer
  split
  · exact s.checksOnly_refl
  · exact hall _ _ s s.checksOnly_refl

/-! ## The end of a scrub step (R144, R146) -/

theorem State.readLower_of_live {s : State} {c : Nat} {v : Container} (hv : s.cont c = some v) (hk : v.kind = .data)
    (hl : v.live ≠ 0) : s.readLower c = s.setCont c (some { v with reads := v.reads - 1 }) := by
  unfold State.readLower
  rw [State.modCont_of_cont hv, State.testFree_of_held (State.cont_setCont_same ..)]
  rw [Container.not_spent_of_live (v := { v with reads := v.reads - 1 }) hk hl]
  rfl

/-- The end of a step over a container that holds live chunks, with no asker waiting for buffers: the read is counted down, the
mark is set or cleared, the outcome is counted, and one that is not CLEAN is noticed (R144, R146). -/
theorem State.scrubEnd_of_live {s : State} {c : Nat} {v : Container} (hv : s.cont c = some v) (hk : v.kind = .data)
    (hl : v.live ≠ 0) (hq : s.mec.bufferQueue = []) (f : Finding) : ∃ cs b l le,
    s.scrubEnd c f = { s with
      tables := { s.tables with containers := cs, bad := b }, lnk := l,
      igu := { (s.igu.counted c f) with step := none }, mec := { s.mec with lent := le } } ∧
    getKey cs c = some { v with scarred := decide (f = .damaged), reads := v.reads - 1 } ∧
    (f = .clean → l = s.lnk) ∧ (f ≠ .clean → l.notices[31].isSome = true) := by
  obtain ⟨cs, b, hmark, hcont⟩ : ∃ cs b, ((s.readLower c).modCont c fun r => { r with scarred := decide (f = .damaged) }) =
      { s with tables := { s.tables with containers := cs, bad := b } } ∧
      getKey cs c = some { v with scarred := decide (f = .damaged), reads := v.reads - 1 } := by
    rw [State.readLower_of_live hv hk hl, State.modCont_of_cont (State.cont_setCont_same ..)]
    exact ⟨_, _, rfl, getKey_setKey_same (s.setCont c (some { v with reads := v.reads - 1 })).tables.containers c
      (some { v with scarred := decide (f = .damaged), reads := v.reads - 1 })⟩
  unfold State.scrubEnd
  dsimp only
  rw [hmark, State.returnBuffers_of_none_waiting (by split <;> exact hq)]
  by_cases hf : f = .clean
  · rw [if_pos hf]
    exact ⟨cs, b, s.lnk, _, rfl, hcont, fun _ => rfl, fun h => absurd hf h⟩
  · rw [if_neg hf]
    exact ⟨cs, b, _, _, rfl, hcont, fun h => absurd h hf, fun _ => Lnk.isSome_raised_scrub s.lnk _⟩

/-! ## The reads of a step that have come back (R140 to R143) -/

theorem unitsOut_of_none {us : Vector UnitRead 4} (h : ∀ p : Fin 4, unitAt us p.val ≠ .out) : unitsOut us = [] :=
  List.filter_eq_nil_iff.2 fun p hp => by
    rw [decide_eq_true_eq]
    exact h ⟨p, List.mem_range.1 hp⟩

/-- A step's reads are back, none of them in error at MEC: its stripe is in hand and is judged (R140, R141). -/
theorem exec_scrubReadsDone_of_inHand {s : State} {st : ScrubStep} (hs : s.igu.step = some st) (hst : st.started = true)
    (ho : st.outcome = none) (hb : s.unitsBack st.units .scrubRead = true) (hf : s.ctm.state ≠ .failed)
    {us : Vector UnitRead 4} (hus : us = unitsAfter st.units (s.returned fun j => j = .scrubRead) [] st.reread)
    (hout : ∀ p : Fin 4, unitAt us p.val ≠ .out) :
    exec (.scrubReadsDone []) s = .next (((s.dropReturned fun j => j = .scrubRead).onIgu fun g =>
      { g with step := some { st with units := us } }).scrubEvaluate { st with units := us }) := by
  change execScrubReadsDone [] s = _
  unfold execScrubReadsDone
  rw [hs]
  dsimp only
  rw [if_neg (by rw [hst, ho, hb]; simp), ← hus, unitsOut_of_none hout, List.append_nil]
  exact congrArg Host.Outcome.next (if_neg hf)

theorem State.scrubEvaluate_of_end {s : State} {st : ScrubStep} {v : Verdict}
    (hv : ({ layout := s.layout, container := st.container, units := st.units } : Stripe).evaluate = v)
    (hc : v.checks = none) (hr : v.repair = none) : s.scrubEvaluate st = s.scrubEnd st.container v.finding := by
  unfold State.scrubEvaluate
  rw [hv]
  dsimp only
  rw [hc, hr]

theorem State.scrubEvaluate_of_repair {s : State} {st : ScrubStep} {v : Verdict} {p : Nat} {bs : List Byte}
    (hv : ({ layout := s.layout, container := st.container, units := st.units } : Stripe).evaluate = v)
    (hc : v.checks = none) (hr : v.repair = some (p, bs)) : s.scrubEvaluate st =
      (s.onIgu fun g => { g with step := some { st with outcome := some v.finding } }).submit p
        (writeOp .scrub st.container 0 bs .igu .scrubRepair) := by
  unfold State.scrubEvaluate
  rw [hv]
  dsimp only
  rw [hc, hr]

/-- A step that cannot have two of its units or more ends DAMAGED, its container's chunks checked (R143). -/
theorem State.scrubEvaluate_of_missing {s : State} {st : ScrubStep}
    (h : 2 ≤ ({ layout := s.layout, container := st.container, units := st.units } : Stripe).missing.length) :
    ∃ u, s.checksOnly u ∧ s.scrubEvaluate st = u.scrubEnd st.container .damaged := by
  generalize hx : ({ layout := s.layout, container := st.container, units := st.units } : Stripe) = x at h
  obtain ⟨area, gone, hv⟩ : ∃ area gone, x.evaluate = { finding := .damaged, repair := none, checks := some (area, gone) } := by
    unfold Stripe.evaluate
    split
    · rename_i hm
      rw [hm] at h
      exact absurd h (by decide)
    · rename_i hm
      rw [hm] at h
      exact absurd h (by simp)
    · exact ⟨_, _, rfl⟩
  refine ⟨s.checkContainer st.container area gone, s.checksOnly_checkContainer _ _ _, ?_⟩
  unfold State.scrubEvaluate
  rw [hx, hv]

theorem Stripe.evaluate_of_clean {x : Stripe} (h : x.missing = [] ∧ areaGood x.layout x.area = true ∧ x.parityHolds = true ∨
      ∃ p < 4, x.missing = [p] ∧ unitAt x.units p = .lost ∧ areaGood x.layout (x.areaWithout p) = true) :
    x.evaluate = { finding := .clean, repair := none, checks := none } := by
  unfold Stripe.evaluate
  rcases h with ⟨hm, ha, hp⟩ | ⟨p, -, hm, hu, ha⟩
  · rw [hm]
    dsimp only
    unfold Stripe.evaluateAll
    rw [ha, if_pos rfl, hp, if_pos rfl]
  · rw [hm]
    dsimp only
    unfold Stripe.evaluateOne
    rw [hu]
    exact (if_pos ha).trans rfl

/-! ## The member that holds a data unit (R70) -/

/-- The members that hold the data units of a stripe are distinct. -/
theorem dataMember_inj {n c j k : Nat} (hj : j < n - 1) (hk : k < n - 1) (h : dataMember n c j = dataMember n c k) : j = k := by
  unfold dataMember at h
  have hle := Nat.sub_mod_eq_zero_of_mod_eq h
  have hge := Nat.sub_mod_eq_zero_of_mod_eq h.symm
  rw [Nat.mod_eq_of_lt (by omega)] at hle hge
  omega

theorem unitOn_dataMember {n c j : Nat} (hj : j < n - 1) : unitOn n c (dataMember n c j) = some j := by
  unfold unitOn
  rw [List.find?_range_eq_some]
  refine ⟨decide_eq_true rfl, List.mem_range.2 hj, fun k hk => ?_⟩
  rw [Bool.not_eq_true', decide_eq_false_iff_not]
  exact fun h => absurd (dataMember_inj (by omega) hj h) (by omega)

theorem Stripe.areaWithout_holder (x : Stripe) {j : Nat} (hj : j < x.layout.dataUnits) :
    x.areaWithout (x.holder j) = x.areaWith j (x.xorOthers (x.holder j)) := by
  unfold Stripe.areaWithout
  rw [show unitOn x.layout.members x.container (x.holder j) = some j from unitOn_dataMember hj]

theorem Stripe.pinpoint_of_first {x : Stripe} {j : Nat} (hj : j < x.layout.dataUnits)
    (ha : areaGood x.layout (x.areaWithout (x.holder j)) = true)
    (hfirst : ∀ k < j, areaGood x.layout (x.areaWithout (x.holder k)) = false) : x.pinpoint = some j := by
  unfold Stripe.pinpoint
  rw [List.find?_range_eq_some]
  refine ⟨by rw [← x.areaWithout_holder hj]; exact ha, List.mem_range.2 hj, fun k hk => ?_⟩
  rw [← x.areaWithout_holder (Nat.lt_trans hk hj), hfirst k hk]
  rfl

/-- The three ways in which an evaluation finds a unit to repair (R141, R143). -/
theorem Stripe.evaluate_of_repair {x : Stripe} {d : Nat} {u : Option Nat}
    (h : (∃ j < x.layout.dataUnits, u = some j ∧ d = x.holder j ∧ x.missing = [] ∧ areaGood x.layout x.area = false ∧
        areaGood x.layout (x.areaWithout d) = true ∧ ∀ k < j, areaGood x.layout (x.areaWithout (x.holder k)) = false) ∨
      (u = none ∧ d = parityMember x.layout.members x.container ∧ x.missing = [] ∧
        areaGood x.layout x.area = true ∧ x.parityHolds = false) ∨
      (u = unitOn x.layout.members x.container d ∧ x.missing = [d] ∧ unitAt x.units d = .failed ∧
        areaGood x.layout (x.areaWithout d) = true)) :
    x.evaluate = { finding := .repaired u, repair := some (d, x.xorOthers d), checks := none } := by
  unfold Stripe.evaluate
  rcases h with ⟨j, hj, rfl, rfl, hm, hbad, ha, hfirst⟩ | ⟨rfl, rfl, hm, ha, hp⟩ | ⟨rfl, hm, hu, ha⟩
  · rw [hm]
    dsimp only
    unfold Stripe.evaluateAll
    dsimp only
    rw [hbad, if_neg Bool.false_ne_true, Stripe.pinpoint_of_first hj ha hfirst]
  · rw [hm]
    dsimp only
    unfold Stripe.evaluateAll
    dsimp only
    rw [ha, if_pos rfl, hp, if_neg Bool.false_ne_true]
  · rw [hm]
    dsimp only
    unfold Stripe.evaluateOne
    rw [hu]
    exact (if_pos ha).trans rfl

theorem scrubRuns_damaged (s : State) (st : ScrubStep) (v : Container) (hs : s.igu.step = some st) (hst : st.started = true)
    (ho : st.outcome = none) (hb : s.unitsBack st.units .scrubRead = true) (hf : s.ctm.state ≠ .failed)
    (hv : s.cont st.container = some v) (hl : v.live ≠ 0) (hk : v.kind = .data) (hq : s.mec.bufferQueue = [])
    (hout : ∀ p : Fin 4, unitAt (unitsAfter st.units (s.returned fun j => j = .scrubRead) [] st.reread) p.val ≠ .out)
    (hmissing : 2 ≤ ({ layout := s.layout, container := st.container,
                       units := unitsAfter st.units (s.returned fun j => j = .scrubRead) [] st.reread } : Stripe).missing.length) :
    Completes (.scrubReadsDone []) s fun t =>
      t.igu.step = none ∧ t.igu.damagedTotal = tallyUp 76 s.igu.damagedTotal ∧
      t.igu.foundDamaged = tallyUp 77 s.igu.foundDamaged ∧ t.igu.cleanTotal = s.igu.cleanTotal ∧
      t.igu.repairedTotal = s.igu.repairedTotal ∧ t.igu.lastFinding = some (st.container, .damaged) ∧
      t.cont st.container = some { v with scarred := true, reads := v.reads - 1 } ∧
      t.lnk.notices[31].isSome = true ∧ t.mem = s.mem := by
  have hexec := exec_scrubReadsDone_of_inHand hs hst ho hb hf rfl hout
  generalize hus : unitsAfter st.units (s.returned fun j => j = .scrubRead) [] st.reread = us at hexec hmissing
  obtain ⟨u, hu, heval⟩ := State.scrubEvaluate_of_missing (s := (s.dropReturned fun j => j = .scrubRead).onIgu fun g =>
    { g with step := some { st with units := us } }) (st := { st with units := us }) (by exact hmissing)
  obtain ⟨x, es, b, m, r, rfl⟩ := hu
  obtain ⟨cs, b', l, le, hend, hcont, -, hnotice⟩ := State.scrubEnd_of_live (s := { (s.dropReturned fun j => j = .scrubRead) with
    idx := x, tables := { s.tables with entries := es, bad := b }, igu := { s.igu with
      step := some { st with units := us }, chunksMarked := m, recordsFailed := r } }) (by exact hv) hk hl hq .damaged
  rw [heval] at hexec
  exact ⟨_, hexec.trans (congrArg Host.Outcome.next hend), rfl, rfl, rfl, rfl, rfl, rfl, hcont, hnotice Finding.noConfusion, rfl⟩

theorem scrubRuns_clean (s : State) (st : ScrubStep) (v : Container) (x : Stripe) (h : s.scrubInHand st v x)
    (hx : x.missing = [] ∧ areaGood x.layout x.area = true ∧ x.parityHolds = true ∨
      ∃ p < 4, x.missing = [p] ∧ unitAt x.units p = .lost ∧ areaGood x.layout (x.areaWithout p) = true)
    (hl : v.live ≠ 0) (hk : v.kind = .data) (hq : s.mec.bufferQueue = []) :
    Completes (.scrubReadsDone []) s fun t =>
      t.igu = { s.igu with step := none, cleanTotal := tallyUp 73 s.igu.cleanTotal } ∧
      t.cont st.container = some { v with scarred := false, reads := v.reads - 1 } ∧ t.lnk = s.lnk ∧
      t.tables.entries = s.tables.entries ∧ t.chans = s.chans ∧ t.mem = s.mem := by
  obtain ⟨hs, hst, ho, hb, hlayout, hcontainer, hunits, hout, hf, hv, -⟩ := h
  have hexec := exec_scrubReadsDone_of_inHand hs hst ho hb hf hunits hout
  rw [State.scrubEvaluate_of_end (v := { finding := .clean, repair := none, checks := none })
    ((congrArg Stripe.evaluate (by rw [← hcontainer]; exact congrArg (Stripe.mk · x.container x.units) hlayout.symm)).trans
      (Stripe.evaluate_of_clean hx)) rfl rfl] at hexec
  obtain ⟨cs, b, l, le, hend, hcont, hlnk, -⟩ := State.scrubEnd_of_live (s := (s.dropReturned fun j => j = .scrubRead).onIgu
    fun g => { g with step := some { st with units := x.units } }) (by exact hv) hk hl hq .clean
  exact ⟨_, hexec.trans (congrArg Host.Outcome.next hend), rfl, hcont, hlnk rfl, rfl, rfl, rfl⟩

theorem scrubRuns_repair (s : State) (st : ScrubStep) (v : Container) (x : Stripe) (d : Nat) (u : Option Nat)
    (h : s.scrubInHand st v x)
    (hx : (∃ j < x.layout.dataUnits, u = some j ∧ d = x.holder j ∧ x.missing = [] ∧ areaGood x.layout x.area = false ∧
        areaGood x.layout (x.areaWithout d) = true ∧ ∀ k < j, areaGood x.layout (x.areaWithout (x.holder k)) = false) ∨
      (u = none ∧ d = parityMember x.layout.members x.container ∧ x.missing = [] ∧
        areaGood x.layout x.area = true ∧ x.parityHolds = false) ∨
      (u = unitOn x.layout.members x.container d ∧ x.missing = [d] ∧ unitAt x.units d = .failed ∧
        areaGood x.layout (x.areaWithout d) = true))
    (hd : d < 4) (hm : s.member d = .active) (hempty : (s.chan d).queue .scrub = [])
    (hw : (s.chan d).waitingFor .scrub = []) (hstall : s.stalledAt .igu .scrub = none) (ha : s.arr.isSome = true)
    (hc : st.container < s.containerCount) (h1 : 1 ≤ (x.xorOthers d).length) (h2 : (x.xorOthers d).length ≤ unitSize) :
    Completes (.scrubReadsDone []) s fun t =>
      t.igu = { s.igu with step := some { st with units := x.units, outcome := some (.repaired u) } } ∧
      (t.chan d).queue .scrub = [writeOp .scrub st.container 0 (x.xorOthers d) .igu .scrubRepair] ∧
      (∀ q, q ≠ d → t.chan q = s.chan q) ∧ t.tables = s.tables ∧ t.lnk = s.lnk ∧ t.mem = s.mem := by
  obtain ⟨hs, hst, ho, hb, hlayout, hcontainer, hunits, hout, hf, hv, -⟩ := h
  have hexec := exec_scrubReadsDone_of_inHand hs hst ho hb hf hunits hout
  rw [State.scrubEvaluate_of_repair (v := { finding := .repaired u, repair := some (d, x.xorOthers d), checks := none })
    ((congrArg Stripe.evaluate (by rw [← hcontainer]; exact congrArg (Stripe.mk · x.container x.units) hlayout.symm)).trans
      (Stripe.evaluate_of_repair hx)) rfl rfl] at hexec
  generalize hu : ((s.dropReturned fun j => j = .scrubRead).onIgu fun g =>
    { g with step := some { st with units := x.units, outcome := some (.repaired u) } }) = w
  have hjoin := State.submit_joins (s := w) (o := writeOp .scrub st.container 0 (x.xorOthers d) .igu .scrubRepair) hd rfl
    (by rw [← hu]; exact hf)
    (by rw [← hu]; exact State.opValid_repair (s := s) (start := 0) ha hc h1 (Nat.le_trans (Nat.le_of_eq (Nat.zero_add _)) h2))
    (by rw [show w.member d = .active by rw [← hu]; exact hm]; decide) (by rw [← hu]; exact hstall)
    (by rw [← hu]; exact hempty) (by rw [← hu]; exact hw)
  obtain ⟨ch, it, sa, hframe⟩ := hjoin.frame
  refine ⟨_, hexec.trans (by rw [← hu]; rfl), ?_, hjoin.queue, fun q hq => (hjoin.others q hq).trans (by rw [← hu]; rfl), ?_, ?_, ?_⟩
  all_goals
    rw [hframe, ← hu]
    rfl

theorem scrubRuns_repaired (s : State) (st : ScrubStep) (r : Returned) (u : Option Nat) (v : Container) (bs : List Byte)
    (hs : s.igu.step = some st) (hr : (s.returns.find? fun r => r.op.job = .scrubRepair) = some r) (hok : r.result = .ok bs)
    (ho : st.outcome = some (.repaired u)) (hf : s.ctm.state ≠ .failed) (hv : s.cont st.container = some v)
    (hl : v.live ≠ 0) (hk : v.kind = .data) (hq : s.mec.bufferQueue = []) :
    Completes .repairWriteDone s fun t =>
      t.igu.step = none ∧ t.igu.repairedTotal = tallyUp 74 s.igu.repairedTotal ∧
      t.igu.foundRepaired = tallyUp 75 s.igu.foundRepaired ∧
      t.igu.lastFinding = some (st.container, .repaired u) ∧ t.returns = s.returns.erase r ∧
      t.cont st.container = some { v with scarred := false, reads := v.reads - 1 } ∧
      t.lnk.notices[31].isSome = true ∧ t.mem = s.mem := by
  have hexec : exec .repairWriteDone s = .next (({ s with returns := s.returns.erase r } : State).scrubEnd st.container
      (.repaired u)) := by
    change execRepairWriteDone s = _
    unfold execRepairWriteDone
    rw [hs, hr]
    dsimp only
    rw [ho]
    dsimp only
    rw [if_neg hf, if_neg (by rw [hok]; exact OpResult.noConfusion)]
  obtain ⟨cs, b, l, le, hend, hcont, -, hnotice⟩ := State.scrubEnd_of_live (s := { s with returns := s.returns.erase r })
    (by exact hv) hk hl hq (.repaired u)
  exact ⟨_, hexec.trans (congrArg Host.Outcome.next hend), rfl, rfl, rfl, rfl, rfl, hcont, hnotice Finding.noConfusion, rfl⟩

/-- Settles O50. -/
theorem scrubRuns : Obligations.ScrubRuns := by
  unfold Obligations.ScrubRuns
  refine ⟨exec_setScrub, fun s st hp hb ha ht hs => exec_scrubTimerExpire_of_pending ⟨hp, hb, ha, ht⟩ hs,
    fun s c q hp hb ha ht hs hq hm had h => scrubRuns_timer_deferred s c q ⟨hp, hb, ha, ht⟩ hs hq hm had h,
    fun s c v hp hb ha ht hs hm _ h hv hc => scrubRuns_timer_begins s c v ⟨hp, hb, ha, ht⟩ hs hm h hv hc,
    fun s hp hb ha ht hs hcur hzero => ?_,
    fun s st p hs hr hd hp hm ha => congrArg Host.Outcome.next (State.scrubTest_of_standby hs hr hd hp hm ha),
    fun s st v hs hr hm _ hv hsealed => scrubRuns_begins s st v hs hr hm hv hsealed,
    fun s st v hs hst ho hb hf hv _ hl hk hq hout hmissing =>
      scrubRuns_damaged s st v hs hst ho hb hf hv hl hk hq hout hmissing,
    scrubRuns_clean, scrubRuns_repair,
    fun s st r u v bs hs hr hok ho hf hv _ hl hk hq => scrubRuns_repaired s st r u v bs hs hr hok ho hf hv hl hk hq⟩
  have hsearch : s.scrubReloaded.scrubSearch = s.scrubReloaded := by
    unfold State.scrubSearch
    rw [show s.scrubReloaded.nextScrubbable s.scrubReloaded.tables.scrubCursor = none from hcur]
    dsimp only
    rw [show s.scrubReloaded.nextScrubbable 0 = none from hzero]
  rw [exec_scrubTimerExpire_of_idle ⟨hp, hb, ha, ht⟩ hs, hsearch]
  rfl

/-! ## The adoption and its label (R147, R148) -/

/-- An adoption as its request begins it (R148). -/
def Adoption.begun (tag b p : Nat) : Adoption :=
  { position := p, bay := b, tag := some tag, labelled := false, seq := none, walking := false, closing := false }

theorem State.opValid_label {s : State} (j : Job) (l : Label) :
    s.opValid (writeUnitOp .write 0 l.bytes .igu j) = true := by
  unfold State.opValid
  simp [writeUnitOp, unitSize]

theorem adoptionAndRebuild_adopts (s : State) (tag b p : Nat) (hdeg : s.ctm.state = .degraded) (hrun : s.pwc.box = .run)
    (hb : b ≤ 3) (hpn : p < s.nMembers) (hp : p < 4) (hm : s.member p = .failed ∨ s.member p = .absent)
    (hpres : (s.bay b).presence.level = true) (hbay : s.bayFor b p = true) (hstep : s.igu.step = none)
    (hothers : ∀ q ∈ s.positions, q ≠ p → s.member q = .active) (hq : (s.chan p).queue .write = [])
    (hst : s.stalledAt .igu .write = none) (hw : (s.chan p).waitingFor .write = []) :
    Completes (.adoptMember tag b p) s fun t =>
      t.igu.adoption = some { position := p, bay := b, tag := some tag, labelled := false, seq := none,
                              walking := false, closing := false } ∧
      t.igu.rebuildCursor = 0 ∧ t.member p = .off ∧ (t.chan p).bay = some b ∧ (t.chan p).member.errors = 0 ∧
      (t.chan p).queue .write = [writeUnitOp .write 0 (s.labelFor p true none).bytes .igu .adoptLabel] ∧
      (t.chan p).spinupAsked = true ∧ t.ctm.state = .degraded ∧ t.lnk.replyQueue = s.lnk.replyQueue ∧ t.tables = s.tables := by
  have hexec : exec (.adoptMember tag b p) s = .next ((s.taken (.adoptMember tag b p)).adopt tag b p) := by
    change Host.Outcome.next ((s.taken (.adoptMember tag b p)).adoptMember tag b p) = _
    unfold State.adoptMember
    rw [if_neg (by rw [show (s.taken (.adoptMember tag b p)).ctm.state = .degraded from hdeg]; decide),
      if_neg (by rw [show (s.taken (.adoptMember tag b p)).nMembers = s.nMembers from rfl]; omega),
      if_neg (fun hc => hc hrun), if_neg (fun hc => hc hdeg), if_neg (fun hc => hm.elim hc.1 hc.2),
      if_neg (by rw [show ((s.taken (.adoptMember tag b p)).bay b).presence.level = true from hpres]; exact Bool.noConfusion),
      if_neg (by rw [show (s.taken (.adoptMember tag b p)).bayFor b p = true from hbay]; exact Bool.noConfusion)]
  unfold State.adopt at hexec
  dsimp only at hexec
  generalize hu : (((s.taken (.adoptMember tag b p)).dropReturned isAdoptionJob).onIgu fun g =>
    { g with adoption := some (Adoption.begun tag b p), rebuildCursor := 0 }) = u
  rw [show (((s.taken (.adoptMember tag b p)).dropReturned isAdoptionJob).onIgu fun g =>
    { g with adoption := some { position := p, bay := b, tag := some tag, labelled := false, seq := none, walking := false,
                                closing := false }, rebuildCursor := 0 }) = u from hu] at hexec
  generalize hv : (u.modChan p fun c =>
    { c with bay := some b, member := { state := .off, cause := none, errors := 0 }, units := none }) = v at hexec
  have hvchan : v.chan p = { u.chan p with bay := some b, member := { state := .off, cause := none, errors := 0 }, units := none } := by
    rw [← hv, State.chan_modChan_same hp]
  have hvother : ∀ q, q ≠ p → v.chan q = s.chan q := fun q hne => by
    rw [← hv, State.chan_modChan_other hne, ← hu]
    rfl
  obtain ⟨⟨ch, it, sa, fs, hset⟩, ⟨b', hsame⟩, hother⟩ := State.setMember_spec (s := v) hp .off
  generalize hx : v.setMember p .off = x at hset hsame hother
  have hxs : x = { s with
      lnk := (s.lnk.handedOver (.adoptMember tag b p)).raised (slotMember p) fs, returns := u.returns, igu := u.igu, chans := ch,
      pwc := { s.pwc with idleTimers := it, standbyAsks := sa } } := by
    rw [hset, ← hv, ← hu]
    rfl
  have hxig : x.igu.adoption = some (Adoption.begun tag b p) := by rw [hxs, ← hu]; rfl
  have hxwait : ∀ q k, (x.chan q).waitingFor k = (s.chan q).waitingFor k := fun q k => by
    by_cases hqp : q = p
    · rw [hqp, hsame, hvchan, ← hu]
      rfl
    · rw [hother q hqp, hvother q hqp]
  have hxqueue : ∀ k, (x.chan p).queue k = (s.chan p).queue k := fun k => by
    rw [hsame, hvchan, ← hu]
    rfl
  have hxoff : x.member p = .off := by
    unfold State.member
    rw [hsame]
  have hreported : x.memberReported = x := by
    refine State.memberReported_of_settled (by rw [hxs, ← hu]; exact hstep) (by rw [hxs]; exact hrun) fun _ => ?_
    have hdx : x.ctm.state = .degraded := by rw [hxs]; exact hdeg
    rw [hdx]
    refine State.derived_of_adopting (p := p) ⟨by rw [hxs]; exact List.mem_range.2 hpn, fun q hqm hne => ⟨?_, ?_⟩⟩ ?_
    · unfold State.member
      rw [hother q hne, hvother q hne]
      exact hothers q (by rw [hxs] at hqm; exact hqm) hne
    · unfold State.adopting
      rw [hxig]
      simp [Adoption.begun, Ne.symm hne]
    · unfold State.adopting
      rw [hxig]
      simp [Adoption.begun]
  have hlabel : v.labelFor p true none = s.labelFor p true none := by rw [← hv, ← hu]; rfl
  rw [show v.memberChange p .off = x from (congrArg State.memberReported hx).trans hreported, hlabel] at hexec
  have hjoin := State.submit_joins (s := x) (o := writeUnitOp .write 0 (s.labelFor p true none).bytes .igu .adoptLabel) hp rfl
    (by rw [hxs]; exact fun h => by rw [show s.ctm.state = .degraded from hdeg] at h; exact ArrayState.noConfusion h)
    (State.opValid_label _ _) (by rw [hxoff]; decide) ((State.stalledAt_congr hxwait ..).trans hst)
    ((hxqueue _).trans hq) ((hxwait p _).trans hw)
  obtain ⟨bi, ba, hchan⟩ := hjoin.chan
  obtain ⟨ch', it', sa', hframe⟩ := hjoin.frame
  refine ⟨_, hexec, ?_, ?_, (hjoin.member p).trans hxoff, ?_, ?_, hjoin.queue, hjoin.asks (.inr hxoff), ?_, ?_, ?_⟩
  · rw [State.writeLabel, hframe]; exact hxig
  · rw [State.writeLabel, hframe, hxs, ← hu]; rfl
  · rw [State.writeLabel, hchan, hsame, hvchan]; rfl
  · rw [State.writeLabel, hchan, hsame, hvchan]; rfl
  · rw [State.writeLabel, hframe, hxs]; exact hdeg
  · rw [State.writeLabel, hframe, hxs]; rfl
  · rw [State.writeLabel, hframe, hxs]

/-! ## The copy of a slot onto the adopted member (R149) -/

theorem State.opValid_unit {s : State} {x : ArrayRec} {u : Nat} (hx : s.arr = some x) (hu : u ≤ 2 * x.reserved) :
    (∀ cls data who j, s.opValid (writeUnitOp cls u data who j) = true) ∧ ∀ cls j, s.opValid (readUnitOp cls u j) = true := by
  have hr : s.opReserved = x.reserved := by
    unfold State.opReserved
    rw [hx]
  unfold State.opValid
  simp [writeUnitOp, readUnitOp, unitSize, hr, hu]

theorem State.copyUnit_of_source {s : State} {c : SlotCopy} {start target q : Nat} (h : s.copySource start target = some q) :
    s.copyUnit c start target = (s.onCkr fun k => { k with copy := some { c with writing := false, source := some q } }).submit q
      (readUnitOp .rebuild (slotBase s.reserved c.slot + c.unit) .copyRead) := by
  unfold State.copyUnit
  dsimp only
  rw [h]

theorem adoptionAndRebuild_labelled (s : State) (a : Adoption) (r : Returned) (bs : List Byte) (x : ArrayRec) (sl : Slot) (q : Nat)
    (hr : (s.returns.find? fun r => r.op.job = .adoptLabel) = some r) (hok : r.result = .ok bs) (ha : s.igu.adoption = some a)
    (hl : a.labelled = false) (hp : a.position < 4) (hpos : a.position ∈ s.positions) (hx : s.arr = some x) (hres : 1 ≤ x.reserved)
    (hdeg : s.ctm.state = .degraded) (hm : s.member a.position = .rebuilding)
    (hothers : ∀ q ∈ s.positions, q ≠ a.position → s.member q = .active) (hstep : s.igu.step = none) (hrun : s.pwc.box = .run)
    (hslot : s.ckr.slot = some sl) (hq : q < 4) (hsource : s.copySource 0 a.position = some q)
    (hpq : (s.chan a.position).queue .write = []) (hpw : (s.chan a.position).waitingFor .write = [])
    (hqq : (s.chan q).queue .rebuild = []) (hqw : (s.chan q).waitingFor .rebuild = [])
    (hst : s.stalledAt .igu .write = none) (hst' : s.stalledAt .ckr .rebuild = none) :
    Completes .adoptLabelWritten s fun t =>
      t.igu.adoption = some { a with labelled := true, seq := some x.seq } ∧ t.ctm.state = .rebuilding ∧
      t.lnk.notices[2].isSome = true ∧ (t.lnk.notices[3 + a.position]?.getD none).isSome = true ∧
      (t.chan a.position).queue .write =
        [writeUnitOp .write 0 (s.labelFor a.position true (some x.seq)).bytes .igu .adoptLabelSecond] ∧
      t.ckr.copy = some { slot := sl, unit := 0, writing := false, source := some q } ∧
      (t.chan q).queue .rebuild = [readUnitOp .rebuild (slotBase s.reserved sl) .copyRead] ∧
      (∀ p, t.member p = s.member p) ∧ t.tables = s.tables ∧ t.mem = s.mem := by
  obtain ⟨hqpos, hqne⟩ : q ∈ s.positions ∧ q ≠ a.position := by
    have hfound := List.find?_some hsource
    rw [Bool.and_eq_true, Bool.and_eq_true] at hfound
    exact ⟨List.mem_of_find?_eq_some hsource, by simpa using hfound.1.2⟩
  have hexec : exec .adoptLabelWritten s = .next (({ s with returns := s.returns.erase r } : State).labelWritten a) := by
    change execAdoptLabelWritten s = _
    unfold execAdoptLabelWritten
    rw [hr]
    dsimp only
    rw [ha]
    dsimp only
    rw [hl, if_neg Bool.false_ne_true, hok, if_pos (by rfl)]
  unfold State.labelWritten at hexec
  dsimp only at hexec
  rw [show (({ s with returns := s.returns.erase r } : State).arr.map fun r => r.seq).getD 0 = x.seq by
    rw [show ({ s with returns := s.returns.erase r } : State).arr = some x from hx]; rfl] at hexec
  generalize hu : (({ s with returns := s.returns.erase r } : State).onIgu fun g =>
    { g with adoption := some { a with labelled := true, seq := some x.seq } }).noticeMember a.position = u at hexec
  obtain ⟨fs, hus⟩ : ∃ fs, u = { s with
      returns := s.returns.erase r, lnk := s.lnk.raised (slotMember a.position) fs,
      igu := { s.igu with adoption := some { a with labelled := true, seq := some x.seq } } } := by
    rw [← hu]; exact ⟨_, rfl⟩
  have hadopting : ∀ p, u.adopting p = false := fun p => by
    unfold State.adopting
    rw [hus]
    simp
  have hderived : u.derived = .rebuilding := by
    refine State.derived_of_rebuilding (p := a.position) ⟨by rw [hus]; exact hpos, fun p hpm hne => ⟨?_, hadopting p⟩⟩
      (by rw [hus]; exact hm) (hadopting _)
    rw [hus] at hpm ⊢
    exact hothers p hpm hne
  rw [State.memberReported_of_derived (by rw [hus]; exact hstep) (by rw [hus]; exact hrun)
    (by rw [hus]; show s.ctm.state.attached = true; rw [hdeg]; rfl) hderived
    (by rw [hus]; show ArrayState.rebuilding ≠ s.ctm.state; rw [hdeg]; decide) (by decide)] at hexec
  generalize hv : (u.onCtm fun m => { m with state := .rebuilding }).noticeArray .state = v at hexec
  obtain ⟨gs, hvs⟩ : ∃ gs, v = { s with
      returns := s.returns.erase r, lnk := (s.lnk.raised (slotMember a.position) fs).raised slotArray gs,
      igu := { s.igu with adoption := some { a with labelled := true, seq := some x.seq } },
      ctm := { s.ctm with state := .rebuilding } } := by
    rw [← hv, hus]; exact ⟨_, rfl⟩
  have hlabel : v.labelFor a.position true (some x.seq) = s.labelFor a.position true (some x.seq) := by rw [hvs]; rfl
  rw [hlabel, State.writeLabel] at hexec
  have hnotfailed : v.ctm.state ≠ .failed := by rw [hvs]; exact ArrayState.noConfusion
  have hjoin := State.submit_joins (s := v)
    (o := writeUnitOp .write 0 (s.labelFor a.position true (some x.seq)).bytes .igu .adoptLabelSecond) hp rfl hnotfailed
    (State.opValid_label _ _)
    (by rw [show v.member a.position = .rebuilding by rw [hvs]; exact hm]; decide)
    (by rw [hvs]; exact hst) (by rw [hvs]; exact hpq) (by rw [hvs]; exact hpw)
  generalize hw : v.submit a.position
    (writeUnitOp .write 0 (s.labelFor a.position true (some x.seq)).bytes .igu .adoptLabelSecond) = w at hexec hjoin
  obtain ⟨ch, it, sa, hws⟩ := hjoin.frame
  have hwmember : ∀ p, w.member p = s.member p := fun p => (hjoin.member p).trans (by rw [hvs]; rfl)
  have hwsource : w.copySource 0 a.position = some q := by
    rw [← hsource]
    unfold State.copySource
    rw [show w.positions = s.positions by rw [hws, hvs]; rfl]
    congr 1
    funext p
    by_cases hpa : p = a.position
    · simp [hpa]
    · have h1 : w.adopting p = false := by
        unfold State.adopting
        rw [hws, hvs]
        simp
      have h2 : s.adopting p = false := by
        unfold State.adopting
        rw [ha]
        simp [Ne.symm hpa]
      unfold State.lostPosition
      rw [hwmember, h1, h2]
  have hstart : w.startCopy a.position = (w.onCkr fun k =>
      { k with copy := some { slot := sl, unit := 0, writing := false, source := some q } }).submit q
        (readUnitOp .rebuild (slotBase s.reserved sl) .copyRead) := by
    unfold State.startCopy
    rw [show w.ckr.slot = some sl by rw [hws, hvs]; exact hslot]
    dsimp only
    rw [State.copyUnit_of_source hwsource, show w.reserved = s.reserved by rw [hws, hvs]; rfl]
    rfl
  rw [hstart] at hexec
  generalize hy : (w.onCkr fun k => { k with copy := some { slot := sl, unit := 0, writing := false, source := some q } }) = y
    at hexec
  have hychan : ∀ p, y.chan p = w.chan p := fun p => by rw [← hy]; rfl
  have hywait : ∀ p k, (y.chan p).waitingFor k = (s.chan p).waitingFor k := fun p k => by
    rw [hychan, hjoin.waitingFor, hvs]; rfl
  have hbase : slotBase s.reserved sl ≤ 2 * x.reserved := by
    rw [show s.reserved = x.reserved by unfold State.reserved; rw [hx]; rfl]
    cases sl <;> (dsimp only [slotBase]; omega)
  have hjoin' := State.submit_joins (s := y) (o := readUnitOp .rebuild (slotBase s.reserved sl) .copyRead) hq rfl
    (by rw [← hy, hws]; exact hnotfailed) ((State.opValid_unit (by rw [← hy, hws, hvs]; exact hx) hbase).2 _ _)
    (by rw [show y.member q = .active by rw [← hy]; exact (hwmember q).trans (hothers q hqpos hqne)]; decide)
    ((State.stalledAt_congr hywait ..).trans hst')
    (by rw [hychan, hjoin.others q hqne, hvs]; exact hqq) ((hywait q _).trans hqw)
  obtain ⟨ch', it', sa', hts⟩ := hjoin'.frame
  refine ⟨_, hexec, ?_, ?_, ?_, ?_, ?_, ?_, hjoin'.queue, fun p => ?_, ?_, ?_⟩
  · rw [hts, ← hy, hws, hvs]; rfl
  · rw [hts, ← hy, hws, hvs]; rfl
  · rw [hts, ← hy, hws, hvs]; exact Lnk.isSome_raised_array _ _
  · rw [hts, ← hy, hws, hvs]
    exact Lnk.isSome_raised (s.lnk.raised (slotMember a.position) fs) _
      (Lnk.isSome_raised_same s.lnk fs (Nat.lt_of_lt_of_le (Nat.add_lt_add_left hp 3) (by decide)))
  · rw [hjoin'.others _ (Ne.symm hqne), hychan]
    exact hjoin.queue
  · rw [hts, ← hy]; rfl
  · rw [hjoin'.member, ← hy]
    exact hwmember p
  · rw [hts, ← hy, hws, hvs]; rfl
  · rw [hts, ← hy, hws, hvs]; rfl

theorem adoptionAndRebuild_copyRead (s : State) (c : SlotCopy) (a : Adoption) (r : Returned) (bs : List Byte)
    (hc : s.ckr.copy = some c) (ha : s.igu.adoption = some a) (hp : a.position < 4) (hwr : c.writing = false)
    (hr : (s.returns.find? fun r => r.op.job = .copyRead) = some r) (hadd : s.copyAddresses c r = true) (hok : r.result = .ok bs)
    (hf : s.ctm.state ≠ .failed) (hm : s.member a.position = .rebuilding) (harr : s.arr.isSome = true)
    (hunit : slotBase s.reserved c.slot + c.unit ≤ 2 * s.reserved) (hq : (s.chan a.position).queue .write = [])
    (hw : (s.chan a.position).waitingFor .write = []) (hst : s.stalledAt .ckr .write = none) :
    Completes .checkpointCopyDone s fun t =>
      t.ckr.copy = some { c with writing := true, source := none } ∧
      (t.chan a.position).queue .write =
        [writeUnitOp .write (slotBase s.reserved c.slot + c.unit) bs .ckr .copyWrite] ∧
      (∀ q, q ≠ a.position → t.chan q = s.chan q) ∧ t.igu = s.igu ∧ t.tables = s.tables ∧ t.mem = s.mem := by
  obtain ⟨x, hx⟩ := Option.isSome_iff_exists.1 harr
  have hres : s.reserved = x.reserved := by unfold State.reserved; rw [hx]; rfl
  have hexec : exec .checkpointCopyDone s =
      .next ((({ s with returns := s.returns.erase r } : State).onCkr fun k =>
        { k with copy := some { c with writing := true, source := none } }).submit a.position
          (writeUnitOp .write (slotBase s.reserved c.slot + c.unit) bs .ckr .copyWrite)) := by
    change execCheckpointCopyDone s = _
    unfold execCheckpointCopyDone
    rw [hc, ha]
    dsimp only
    rw [hwr, if_neg Bool.false_ne_true, hr]
    dsimp only
    rw [show ({ s with returns := s.returns.erase r } : State).copyAddresses c r = true from hadd, if_pos rfl,
      if_neg Bool.false_ne_true]
    unfold State.copyReadBack
    rw [hok]
    rfl
  have hjoin := State.submit_joins (s := ({ s with returns := s.returns.erase r } : State).onCkr fun k =>
      { k with copy := some { c with writing := true, source := none } })
    (o := writeUnitOp .write (slotBase s.reserved c.slot + c.unit) bs .ckr .copyWrite) hp rfl hf
    ((State.opValid_unit (s := s) hx (by rw [← hres]; exact hunit)).1 _ _ _ _)
    (by show s.member a.position ≠ _ ∧ s.member a.position ≠ _; rw [hm]; decide) hst hq hw
  obtain ⟨ch, it, sa, hframe⟩ := hjoin.frame
  exact ⟨_, hexec, by rw [hframe]; rfl, hjoin.queue, hjoin.others, by rw [hframe]; rfl, by rw [hframe]; rfl,
    by rw [hframe]; rfl⟩

/-! ## The rebuild walk (R150) -/

theorem exec_rebuildStep_of_walking {s : State} {a : Adoption} (ha : s.igu.adoption = some a) (hw : a.walking = true)
    (hc : a.closing = false) (hr : s.igu.rebuild = none) (hatt : s.ctm.state.attached = true) :
    exec .rebuildStep s = .next (s.walkContainer a s.igu.rebuildCursor) := by
  change execRebuildStep s = _
  unfold execRebuildStep
  rw [ha]
  dsimp only
  rw [if_pos ⟨hw, hc, by rw [hr]; rfl, hatt⟩]

/-- The cursor moves on past a container that is not the last one; at each multiple of 1,024 the member is noticed (R150). -/
theorem State.cursorUp_of_more {s : State} {c : Nat} (h : c + 1 < s.containerCount) (a : Adoption) :
    ∃ l, s.cursorUp a c = { s with igu := { s.igu with rebuildCursor := c + 1 }, lnk := l } := by
  unfold State.cursorUp
  dsimp only
  split
  · exact ⟨_, if_neg (Nat.not_le.2 h)⟩
  · exact ⟨s.lnk, if_neg (Nat.not_le.2 h)⟩

/-- The rebuild of a container as the walk begins it (R150, step 1). -/
def RebuildJob.begun (c : Nat) : RebuildJob :=
  { container := c, started := false, writing := false, units := Vector.replicate 4 .lost, reread := [], abandoned := false }

/-- A rebuild that has its buffers reads the units of every other member (R150). -/
theorem State.askBuffers_rebuild {s : State} {r : RebuildJob} {a : Adoption} {n : Nat} (hr : s.igu.rebuild = some r)
    (hs : r.started = false) (ha : s.igu.adoption = some a) (hn : n ≤ s.mec.freeBuffers) :
    ∃ u, (∃ us le, u = { s with
        igu := { s.igu with rebuild := some { r with started := true, units := us } }, mec := { s.mec with lent := le } }) ∧
      s.askBuffers .rebuild n =
        u.submitAll ((s.others a.position).map fun p => (p, readOp .rebuild r.container 0 unitSize .igu .rebuildRead)) := by
  unfold State.askBuffers State.takeBuffers
  rw [if_pos hn]
  dsimp only
  unfold State.startAsker
  rw [if_pos (by
    show (s.igu.rebuild.any fun r => !r.started) = true
    rw [hr]
    simp [hs])]
  dsimp only
  unfold State.startRebuildReads
  rw [show (s.onMec fun m => m.setHeld .rebuild (m.heldBy .rebuild + n)).igu.rebuild = some r from hr,
    show (s.onMec fun m => m.setHeld .rebuild (m.heldBy .rebuild + n)).igu.adoption = some a from ha]
  exact ⟨_, ⟨_, _, rfl⟩, rfl⟩

theorem State.opValid_read {s : State} {c : Nat} (ha : s.arr.isSome = true) (hc : c < s.containerCount) (cls : Cls)
    (who : Requester) (j : Job) : s.opValid (readOp cls c 0 unitSize who j) = true := by
  obtain ⟨x, hx⟩ := Option.isSome_iff_exists.1 ha
  have hcount : s.opContainers = s.containerCount := by
    unfold State.opContainers State.containerCount
    rw [hx]
    rfl
  show (decide (c < s.opContainers) && decide (1 ≤ unitSize ∧ 0 + unitSize ≤ unitSize)) = true
  rw [hcount]
  simp [hc, unitSize]

theorem adoptionAndRebuild_reads (s : State) (a : Adoption) (v : Container) (x y : Nat) (ha : s.igu.adoption = some a)
    (hw : a.walking = true) (hc : a.closing = false) (hr : s.igu.rebuild = none) (hatt : s.ctm.state.attached = true)
    (hv : s.cont s.igu.rebuildCursor = some v) (hs : v.state = .sealed) (hx : v.seq = some x) (hy : a.seq = some y) (hxy : x < y)
    (hcount : s.igu.rebuildCursor < s.containerCount) (hfree : s.nMembers ≤ s.mec.freeBuffers)
    (hst : s.stalledAt .igu .rebuild = none)
    (hothers : ∀ q ∈ s.others a.position, (s.chan q).queue .rebuild = [] ∧ (s.chan q).waitingFor .rebuild = []) :
    Completes .rebuildStep s fun t =>
      (t.igu.rebuild.map fun j => (j.container, j.started, j.writing, j.reread, j.abandoned)) =
        some (s.igu.rebuildCursor, true, false, [], false) ∧
      t.igu.rebuildCursor = s.igu.rebuildCursor ∧ t.igu.adoption = some a ∧
      t.cont s.igu.rebuildCursor = some { v with reads := v.reads + 1 } ∧
      (∀ q < 4, q ∈ s.others a.position → s.member q = .active →
        (t.chan q).queue .rebuild = [readOp .rebuild s.igu.rebuildCursor 0 unitSize .igu .rebuildRead]) ∧
      t.tables.entries = s.tables.entries ∧ t.mem = s.mem := by
  have harr : s.arr.isSome = true := by
    unfold State.containerCount at hcount
    cases hs : s.arr with
    | none => rw [hs] at hcount; exact absurd hcount (Nat.not_lt_zero _)
    | some a => rfl
  have hexec := exec_rebuildStep_of_walking ha hw hc hr hatt
  generalize hcur : s.igu.rebuildCursor = c at *
  have hwalk : s.walkContainer a c = s.rebuildBegin c := by
    unfold State.walkContainer
    dsimp only
    rw [hv]
    dsimp only
    rw [hs, hx, hy]
    dsimp only
    rw [decide_eq_true hxy]
  have hraise : s.readRaise c = s.setCont c (some { v with reads := v.reads + 1 }) := State.modCont_of_cont hv _
  obtain ⟨u, ⟨us, le, hu⟩, hask⟩ := State.askBuffers_rebuild (s := (s.setCont c (some { v with reads := v.reads + 1 })).onIgu fun g =>
    { g with rebuild := some (RebuildJob.begun c) }) (r := RebuildJob.begun c) (n := s.nMembers) rfl rfl ha hfree
  have hbegin : s.rebuildBegin c = ((s.readRaise c).onIgu fun g =>
    { g with rebuild := some (RebuildJob.begun c) }).askBuffers .rebuild s.nMembers := rfl
  rw [hwalk, hbegin, hraise, hask] at hexec
  obtain ⟨hqueue, -⟩ := State.submitAll_joins (s := u) (o := readOp .rebuild c 0 unitSize .igu .rebuildRead) rfl (s.others a.position)
    (List.nodup_range.filter _) (by rw [hu]; intro hf; rw [show s.ctm.state = .failed from hf] at hatt; exact Bool.noConfusion hatt)
    (by rw [hu]; exact State.opValid_read (s := s) harr hcount _ _ _) (by rw [hu]; exact hst)
    fun q hq => ⟨State.positions_lt (List.mem_filter.1 hq).1, by rw [hu]; exact hothers q hq⟩
  obtain ⟨ch, it, sa, rt, hframe⟩ := u.submitAll_frame
    ((s.others a.position).map fun p => (p, readOp .rebuild c 0 unitSize .igu .rebuildRead))
  have hmember : ∀ q, u.member q = s.member q := fun q => by rw [hu]; rfl
  refine ⟨u.submitAll ((s.others a.position).map fun p => (p, readOp .rebuild c 0 unitSize .igu .rebuildRead)), hexec,
    ?_, ?_, ?_, ?_, fun q _ hq hm => State.joinedAt_queue (hqueue q hq (by rw [hmember, hm]; decide)), ?_, ?_⟩
  · rw [hframe, hu]; rfl
  · rw [hframe, hu]; exact hcur
  · rw [hframe, hu]; exact ha
  · rw [hframe, hu]; exact State.cont_setCont_same ..
  · rw [hframe, hu]; rfl
  · rw [hframe, hu]; rfl

/-! ## A container rebuilt, or found damaged (R150) -/

/-- What is found damaged by a rebuild: its chunks are checked, the container carries the mark, and the damage is counted. -/
theorem State.rebuildDamaged_eq (s : State) (c : Nat) (area : List Byte) (gone : List Nat) : ∃ x cs es b m r,
    s.rebuildDamaged c area gone = { s with
      idx := x, tables := { s.tables with containers := cs, entries := es, bad := b },
      igu := { s.igu with chunksMarked := m, recordsFailed := r, rebuildDamage := tallyUp 79 s.igu.rebuildDamage } } ∧
    ∀ v, s.cont c = some v → getKey cs c = some { v with scarred := true } := by
  obtain ⟨x, es, b, m, r, hcheck⟩ := s.checksOnly_checkContainer c area gone
  unfold State.rebuildDamaged
  rw [hcheck]
  cases hv : s.cont c with
  | none =>
    unfold State.modCont
    rw [show State.cont
      { s with
        idx := x, tables := { s.tables with entries := es, bad := b },
        igu := { s.igu with chunksMarked := m, recordsFailed := r } } c = none from hv]
    exact ⟨_, _, _, _, _, _, rfl, fun v h => nomatch h⟩
  | some v =>
    rw [State.modCont_of_cont (s := { s with
      idx := x, tables := { s.tables with entries := es, bad := b },
      igu := { s.igu with chunksMarked := m, recordsFailed := r } }) hv]
    refine ⟨_, _, _, _, _, _, rfl, fun w h => ?_⟩
    rw [← Option.some.inj h]
    exact getKey_setKey_same s.tables.containers c (some { v with scarred := true })

/-- The rebuild of a container with live chunks has ended and is not the last one: its read is counted down, and the cursor moves
on (R150, step 4). -/
theorem State.rebuildEnd_of_live {s : State} {c : Nat} {v : Container} {a : Adoption} (ha : s.igu.adoption = some a)
    (hc : c + 1 < s.containerCount) (hv : s.cont c = some v) (hl : v.live ≠ 0) (hk : v.kind = .data)
    (hq : s.mec.bufferQueue = []) : ∃ b le l, s.rebuildEnd c true = { s with
      tables := { s.tables with containers := setKey s.tables.containers c (some { v with reads := v.reads - 1 }), bad := b },
      igu := { s.igu with rebuild := none, rebuildCursor := c + 1 }, mec := { s.mec with lent := le }, lnk := l } := by
  generalize hu : ((s.onIgu fun g => { g with rebuild := none }).readLower c).returnBuffers .rebuild 4 = u
  obtain ⟨b, le, hus⟩ : ∃ b le, u = { s with
      tables := { s.tables with containers := setKey s.tables.containers c (some { v with reads := v.reads - 1 }), bad := b },
      igu := { s.igu with rebuild := none }, mec := { s.mec with lent := le } } := by
    rw [← hu, State.readLower_of_live (s := s.onIgu fun g => { g with rebuild := none }) hv hk hl,
      State.returnBuffers_of_none_waiting (by exact hq)]
    exact ⟨_, _, rfl⟩
  unfold State.rebuildEnd
  dsimp only
  rw [hu, show u.igu.adoption = some a by rw [hus]; exact ha]
  dsimp only
  rw [if_pos rfl]
  obtain ⟨l, hup⟩ := State.cursorUp_of_more (s := u) (c := c) (by rw [hus]; exact hc) a
  exact ⟨b, le, l, by rw [hup, hus]⟩

theorem exec_rebuildReadsDone_of_back {s : State} {j : RebuildJob} {a : Adoption} (hj : s.igu.rebuild = some j)
    (hs : j.started = true) (hw : j.writing = false) (hb : s.unitsBack j.units .rebuildRead = true) (hab : j.abandoned = false)
    (ha : s.igu.adoption = some a) (hf : s.ctm.state ≠ .failed) {us : Vector UnitRead 4}
    (hus : unitsAfter j.units (s.returned fun x => x = .rebuildRead) [] j.reread = us)
    (hout : ∀ p : Fin 4, unitAt us p.val ≠ .out) :
    exec (.rebuildReadsDone []) s = .next (((s.dropReturned fun x => x = .rebuildRead).onIgu fun g =>
      { g with rebuild := some { j with units := us } }).rebuildEvaluate { j with units := us } a.position) := by
  change execRebuildReadsDone [] s = _
  unfold execRebuildReadsDone
  rw [hj]
  dsimp only
  rw [if_neg (by rw [hs, hw, hb]; simp), hab]
  rw [show State.igu ((s.dropReturned fun x => x = .rebuildRead).bufferErrors [] j.reread) = s.igu from rfl, ha]
  dsimp only
  rw [hus, unitsOut_of_none hout, List.append_nil]
  exact congrArg Host.Outcome.next (if_neg hf)

theorem adoptionAndRebuild_writes (s : State) (j : RebuildJob) (a : Adoption) (hj : s.igu.rebuild = some j)
    (hs : j.started = true) (hw : j.writing = false) (hb : s.unitsBack j.units .rebuildRead = true) (hab : j.abandoned = false)
    (ha : s.igu.adoption = some a) (hp : a.position < 4) (hf : s.ctm.state ≠ .failed) (hm : s.member a.position = .rebuilding)
    (harr : s.arr.isSome = true) (hc : j.container < s.containerCount)
    (hout : ∀ p : Fin 4, unitAt (unitsAfter j.units (s.returned fun x => x = .rebuildRead) [] j.reread) p.val ≠ .out) :
    let x : Stripe := { layout := s.layout, container := j.container,
                        units := unitsAfter j.units (s.returned fun x => x = .rebuildRead) [] j.reread }
    (x.missing.filter fun q => q ≠ a.position) = [] → 1 ≤ (x.xorOthers a.position).length →
    (x.xorOthers a.position).length ≤ unitSize →
    (s.chan a.position).queue .rebuild = [] → (s.chan a.position).waitingFor .rebuild = [] →
    s.stalledAt .igu .rebuild = none →
    Completes (.rebuildReadsDone []) s fun t =>
      (t.igu.rebuild.map fun j => (j.container, j.writing)) = some (j.container, true) ∧
      (t.chan a.position).queue .rebuild =
        [writeOp .rebuild j.container 0 (x.xorOthers a.position) .igu .rebuildWrite] ∧
      (∀ q, q ≠ a.position → t.chan q = s.chan q) ∧ t.igu.rebuildCursor = s.igu.rebuildCursor ∧ t.mem = s.mem := by
  intro x hmissing h1 h2 hq hwait hst
  generalize hus : unitsAfter j.units (s.returned fun x => x = .rebuildRead) [] j.reread = us at hout
  have hexec := exec_rebuildReadsDone_of_back hj hs hw hb hab ha hf hus hout
  generalize hu : ((s.dropReturned fun x => x = .rebuildRead).onIgu fun g => { g with rebuild := some { j with units := us } }) = u
    at hexec
  obtain ⟨w, heval, hw⟩ : ∃ w : State, u.rebuildEvaluate { j with units := us } a.position =
      (w.onIgu fun g => { g with rebuild := some { j with units := us, writing := true } }).submit a.position
        (writeOp .rebuild j.container 0 (x.xorOthers a.position) .igu .rebuildWrite) ∧
      ∃ xs cs es b m r d, w = { u with
        idx := xs, tables := { u.tables with containers := cs, entries := es, bad := b },
        igu := { u.igu with chunksMarked := m, recordsFailed := r, rebuildDamage := d } } := by
    unfold State.rebuildEvaluate
    dsimp only
    rw [show u.layout = s.layout by rw [← hu]; rfl, ← hus, hmissing]
    dsimp only
    refine ⟨_, rfl, ?_⟩
    split
    · exact ⟨u.idx, u.tables.containers, u.tables.entries, u.tables.bad, u.igu.chunksMarked, u.igu.recordsFailed,
        u.igu.rebuildDamage, rfl⟩
    · obtain ⟨x, cs, es, b, m, r, hdamaged, -⟩ := u.rebuildDamaged_eq j.container (Stripe.areaWithout x a.position) []
      exact ⟨x, cs, es, b, m, r, _, hdamaged⟩
  obtain ⟨xs, cs, es, b, m, r, d, hw⟩ := hw
  rw [heval] at hexec
  have hjoin := State.submit_joins (s := w.onIgu fun g => { g with rebuild := some { j with units := us, writing := true } })
    (o := writeOp .rebuild j.container 0 (x.xorOthers a.position) .igu .rebuildWrite) hp rfl
    (by rw [hw, ← hu]; exact hf) (by rw [hw, ← hu]; exact State.opValid_repair (s := s) (start := 0) harr hc h1 (Nat.le_trans (Nat.le_of_eq (Nat.zero_add _)) h2))
    (by rw [hw, ← hu]; show s.member a.position ≠ _ ∧ s.member a.position ≠ _; rw [hm]; decide) (by rw [hw, ← hu]; exact hst)
    (by rw [hw, ← hu]; exact hq) (by rw [hw, ← hu]; exact hwait)
  obtain ⟨ch, it, sa, hframe⟩ := hjoin.frame
  refine ⟨_, hexec, ?_, hjoin.queue, fun q hq => (hjoin.others q hq).trans ?_, ?_, ?_⟩
  · rw [hframe]; rfl
  · rw [hw, ← hu]; rfl
  · rw [hframe, hw, ← hu]; rfl
  · rw [hframe, hw, ← hu]; rfl

theorem adoptionAndRebuild_written (s : State) (j : RebuildJob) (a : Adoption) (r : Returned) (bs : List Byte) (v : Container)
    (hj : s.igu.rebuild = some j) (hr : (s.returns.find? fun r => r.op.job = .rebuildWrite) = some r) (hok : r.result = .ok bs)
    (hab : j.abandoned = false) (ha : s.igu.adoption = some a) (hc : j.container + 1 < s.containerCount)
    (hv : s.cont j.container = some v) (hl : v.live ≠ 0) (hk : v.kind = .data) (hq : s.mec.bufferQueue = []) :
    Completes .rebuildWriteDone s fun t =>
      t.igu.rebuild = none ∧ t.igu.rebuildCursor = j.container + 1 ∧ t.igu.rebuildDamage = s.igu.rebuildDamage ∧
      t.cont j.container = some { v with reads := v.reads - 1 } ∧ t.returns = s.returns.erase r := by
  have hexec : exec .rebuildWriteDone s =
      .next (({ s with returns := s.returns.erase r } : State).rebuildEnd j.container true) := by
    change execRebuildWriteDone s = _
    unfold execRebuildWriteDone
    rw [hj, hr]
    dsimp only
    rw [if_pos ⟨by rw [hok]; rfl, hab⟩]
  obtain ⟨b, le, l, hend⟩ := State.rebuildEnd_of_live (s := { s with returns := s.returns.erase r }) ha hc hv hl hk hq
  exact ⟨_, hexec.trans (congrArg Host.Outcome.next hend), rfl, rfl, rfl,
    getKey_setKey_same s.tables.containers j.container (some { v with reads := v.reads - 1 }), rfl⟩

theorem State.rebuildEvaluate_of_missing {s : State} {r : RebuildJob} {p q : Nat} (hq : q < s.layout.members) (hne : q ≠ p)
    (h : unitAt r.units q = .failed) : ∃ area gone,
      s.rebuildEvaluate r p = (s.rebuildDamaged r.container area gone).rebuildEnd r.container true := by
  have hmem : q ∈ ({ layout := s.layout, container := r.container, units := r.units } : Stripe).missing.filter fun q => q ≠ p :=
    List.mem_filter.2 ⟨List.mem_filter.2 ⟨List.mem_range.2 hq, by rw [h]; rfl⟩, decide_eq_true hne⟩
  unfold State.rebuildEvaluate
  dsimp only
  split
  · rename_i hm
    rw [hm] at hmem
    exact absurd hmem List.not_mem_nil
  · exact ⟨_, _, rfl⟩

theorem adoptionAndRebuild_damaged (s : State) (j : RebuildJob) (a : Adoption) (q : Nat) (v : Container)
    (hj : s.igu.rebuild = some j) (hs : j.started = true) (hw : j.writing = false)
    (hb : s.unitsBack j.units .rebuildRead = true) (hab : j.abandoned = false) (ha : s.igu.adoption = some a)
    (hf : s.ctm.state ≠ .failed) (hv : s.cont j.container = some v) (hl : v.live ≠ 0) (hk : v.kind = .data)
    (hq : s.mec.bufferQueue = [])
    (hout : ∀ p : Fin 4, unitAt (unitsAfter j.units (s.returned fun x => x = .rebuildRead) [] j.reread) p.val ≠ .out)
    (hqm : q < s.layout.members) (hne : q ≠ a.position)
    (hbad : unitAt (unitsAfter j.units (s.returned fun x => x = .rebuildRead) [] j.reread) q = .failed)
    (hc : j.container + 1 < s.containerCount) :
    Completes (.rebuildReadsDone []) s fun t =>
      t.igu.rebuild = none ∧ t.igu.rebuildCursor = j.container + 1 ∧
      t.igu.rebuildDamage = tallyUp 79 s.igu.rebuildDamage ∧
      t.cont j.container = some { v with scarred := true, reads := v.reads - 1 } := by
  generalize hus : unitsAfter j.units (s.returned fun x => x = .rebuildRead) [] j.reread = us at hout hbad
  have hexec := exec_rebuildReadsDone_of_back hj hs hw hb hab ha hf hus hout
  generalize hu : ((s.dropReturned fun x => x = .rebuildRead).onIgu fun g => { g with rebuild := some { j with units := us } }) = u
    at hexec
  obtain ⟨area, gone, heval⟩ := State.rebuildEvaluate_of_missing (s := u) (r := { j with units := us }) (p := a.position)
    (by rw [← hu]; exact hqm) hne hbad
  obtain ⟨x, cs, es, b, m, r, hdamaged, hcont⟩ := u.rebuildDamaged_eq j.container area gone
  have hv' := hcont v (by rw [← hu]; exact hv)
  rw [heval] at hexec
  generalize hw : u.rebuildDamaged j.container area gone = w at hdamaged hexec
  obtain ⟨b, le, l, hend⟩ := State.rebuildEnd_of_live (s := w) (c := j.container) (v := { v with scarred := true }) (a := a)
    (by rw [hdamaged, ← hu]; exact ha) (by rw [hdamaged, ← hu]; exact hc) (by rw [hdamaged]; exact hv') hl hk
    (by rw [hdamaged, ← hu]; exact hq)
  refine ⟨_, hexec.trans (congrArg Host.Outcome.next hend), rfl, rfl, ?_,
    getKey_setKey_same w.tables.containers j.container (some { v with scarred := true, reads := v.reads - 1 })⟩
  rw [hdamaged, ← hu]
  rfl

/-! ## The end of an adoption (R151) -/

theorem adoptionAndRebuild_ends (s : State) (a : Adoption) (r : Returned) (bs : List Byte)
    (hr : (s.returns.find? fun r => r.op.job = .finalLabel) = some r) (hok : r.result = .ok bs) (ha : s.igu.adoption = some a)
    (hp : a.position < 4) (hreb : s.ctm.state = .rebuilding)
    (hothers : ∀ q ∈ s.positions, q ≠ a.position → s.member q = .active) (hstep : s.igu.step = none) (hrun : s.pwc.box = .run) :
    Completes .rebuildComplete s fun t =>
      t.igu.adoption = none ∧ t.igu.rebuildCursor = s.containerCount ∧ t.member a.position = .active ∧
      (∀ q, q ≠ a.position → t.member q = s.member q) ∧ t.ctm.state = .normal ∧ t.lnk.notices[2].isSome = true ∧
      t.returns = s.returns.erase r ∧ t.tables = s.tables ∧ t.mem = s.mem := by
  generalize hu : (({ s with returns := s.returns.erase r } : State).onIgu fun g =>
    { g with adoption := none, rebuildCursor := s.containerCount }) = u
  have hexec : exec .rebuildComplete s = .next (u.memberChange a.position .active) := by
    change execRebuildComplete s = _
    unfold execRebuildComplete
    rw [hr]
    dsimp only
    rw [ha]
    dsimp only
    rw [hok, if_pos (by rfl), ← hu]
    rfl
  obtain ⟨⟨ch, it, sa, fs, hset⟩, ⟨b, hsame⟩, hother⟩ := State.setMember_spec (s := u) hp .active
  unfold State.memberChange at hexec
  generalize hx : u.setMember a.position .active = x at hexec hset hsame hother
  have hactive : x.member a.position = .active := by
    unfold State.member
    rw [hsame]
  have hmembers : ∀ q, q ≠ a.position → x.member q = s.member q := fun q hne => by
    unfold State.member
    rw [hother q hne, ← hu]
    rfl
  have hderived : x.derived = .normal := by
    refine State.derived_of_active (fun q hq => ?_) (by rw [hset, ← hu]; rfl)
    by_cases hqp : q = a.position
    · rw [hqp, hactive]
    · rw [hmembers q hqp]
      exact hothers q (by rw [hset, ← hu] at hq; exact hq) hqp
  have hstate : x.ctm.state = .rebuilding := by rw [hset, ← hu]; exact hreb
  rw [State.memberReported_of_derived (by rw [hset, ← hu]; exact hstep) (by rw [hset, ← hu]; exact hrun)
    (by rw [hstate]; rfl) hderived (by rw [hstate]; decide) (by decide)] at hexec
  refine ⟨_, hexec, ?_, ?_, hactive, hmembers, rfl, Lnk.isSome_raised_array _ _, ?_, ?_, ?_⟩
  all_goals
    rw [hset, ← hu]
    rfl

/-- Settles O51. -/
theorem adoptionAndRebuild : Obligations.AdoptionAndRebuild := by
  unfold Obligations.AdoptionAndRebuild
  refine ⟨adoptionAndRebuild_adopts, adoptionAndRebuild_labelled, adoptionAndRebuild_copyRead,
    fun s a ha hw hc hr hatt hnone hmore => ?_,
    adoptionAndRebuild_reads, adoptionAndRebuild_writes, adoptionAndRebuild_written, adoptionAndRebuild_damaged,
    fun s a r bs hr hok ha hp hreb _ hothers hstep hrun => adoptionAndRebuild_ends s a r bs hr hok ha hp hreb hothers hstep hrun⟩
  obtain ⟨l, hup⟩ := State.cursorUp_of_more hmore a
  have hwalk : s.walkContainer a s.igu.rebuildCursor = s.cursorUp a s.igu.rebuildCursor := by
    unfold State.walkContainer
    rw [hnone]
  exact ⟨_, (exec_rebuildStep_of_walking ha hw hc hr hatt).trans (congrArg Host.Outcome.next (hwalk.trans hup)), rfl, rfl, rfl⟩

end Sys2Proof.Machine

/-! # Proofs: Power, wake and memory -/

namespace Sys2Proof.Machine

/-! ## Sleep entry (R155 to R160) -/

/-- A step that is done with no cause recorded goes on (R160). -/
theorem State.stepDone_of_no_cause {s : State} (h : s.pwc.cause = none) (goOn : State → State) : s.stepDone goOn = goOn s := by
  unfold State.stepDone
  rw [h]
  exact if_neg Bool.false_ne_true

theorem State.sleep_of_ready {s : State} {tag : Nat} (hbox : s.pwc.box = .run) (hf : s.ctm.state ≠ .failed)
    (ha : s.ctm.state ≠ .attaching) (hm : s.mec.state = .ready) (hop : s.ckr.op = .none) :
    s.sleep tag = if s.streamsFree = false then s.refuse tag kindSleep .wrongState
      else if s.rearranging then s.refuse tag kindSleep .wrongState else s.enterSleepEntry tag := by
  unfold State.sleep
  rw [if_neg hf, if_neg (fun hc => hc hbox), if_neg (fun hc => hc hm), if_neg (fun hc => hc.elim (fun h => h hop) ha)]

theorem State.scrubWithdraw_of_none {s : State} (h : s.igu.step = none) : s.scrubWithdraw = s := by
  unfold State.scrubWithdraw
  rw [h]

/-- The standby requests of step 5 (R158). -/
def State.askStandby (s : State) (p : Nat) : State :=
  if s.member p = .active ∨ s.member p = .standby then
    s.onPwc fun w => { w with standbyAsks := w.standbyAsks.setIfInBounds p (some .sleepEntry) }
  else s

/-- The standby requests go to the ACTIVE and STANDBY members alone (R158). -/
theorem State.each_askStandby (ps : List Nat) : ∀ s : State, ∃ asks,
    s.each ps State.askStandby = { s with pwc := { s.pwc with standbyAsks := asks } } ∧
      ∀ p < 4, asks[p]? = if p ∈ ps ∧ (s.member p = .active ∨ s.member p = .standby) then some (some .sleepEntry)
        else s.pwc.standbyAsks[p]? := by
  induction ps with
  | nil => exact fun s => ⟨s.pwc.standbyAsks, rfl, fun p _ => (if_neg fun h => List.not_mem_nil h.1).symm⟩
  | cons q ps ih =>
    intro s
    by_cases hq : s.member q = .active ∨ s.member q = .standby
    · have hstep : s.askStandby q =
          s.onPwc fun w => { w with standbyAsks := w.standbyAsks.setIfInBounds q (some .sleepEntry) } := if_pos hq
      obtain ⟨asks, heach, hasks⟩ := ih (s.askStandby q)
      refine ⟨asks, heach.trans (by rw [hstep]; rfl), fun p hp => (hasks p hp).trans ?_⟩
      rw [hstep]
      show (if p ∈ ps ∧ (s.member p = .active ∨ s.member p = .standby) then some (some StandbyAsk.sleepEntry)
        else (s.pwc.standbyAsks.setIfInBounds q (some StandbyAsk.sleepEntry))[p]?) = _
      by_cases hpq : p = q
      · subst hpq
        simp [hq, hp]
      · simp [hpq, Ne.symm hpq]
    · have hstep : s.askStandby q = s := if_neg hq
      obtain ⟨asks, heach, hasks⟩ := ih s
      refine ⟨asks, Eq.trans (congrArg (fun u : State => u.each ps State.askStandby) hstep) heach, fun p hp =>
        (hasks p hp).trans ?_⟩
      by_cases hpq : p = q
      · subst hpq
        simp [hq]
      · simp [hpq]

theorem State.beginStep5_eq (s : State) : s.beginStep5 =
    ((s.each (List.range 4) State.askStandby).onPwc fun w => { w with entryStep := some 5 }).checkStep5 := rfl

theorem State.checkStep5_of_awake {s : State} {p : Nat} (hp : p < 4) (h : s.member p = .active ∨ s.member p = .standby) :
    s.checkStep5 = s := by
  refine if_neg fun hc => ?_
  have hrest := List.all_eq_true.1 hc.2.2.2 p (List.mem_range.2 hp)
  rcases h with h | h <;> rw [h] at hrest <;> exact Bool.noConfusion hrest

theorem State.checkStep5_of_asleep {s : State} (hb : s.pwc.box = .sleepEntry) (hs : s.pwc.entryStep = some 5)
    (hbays : ∀ b < 4, (s.bay b).enable = false) (hm : ∀ p < 4, s.member p ≠ .active ∧ s.member p ≠ .standby)
    (hc : s.pwc.cause = none) : s.checkStep5 = s.beginStep6 := by
  have hoff : ((List.range 4).all fun b => !(s.bay b).enable) = true := List.all_eq_true.2 fun b hb => by
    rw [hbays b (List.mem_range.1 hb)]
    rfl
  have hrest : ((List.range 4).all fun p => s.member p ≠ .active && s.member p ≠ .standby) = true :=
    List.all_eq_true.2 fun p hp => by
      obtain ⟨h1, h2⟩ := hm p (List.mem_range.1 hp)
      simp [h1, h2]
  unfold State.checkStep5
  rw [if_pos ⟨hb, hs, hoff, hrest⟩, hc]
  exact if_neg Bool.false_ne_true

theorem exec_entryCheckpointDone_of_ended {s : State} (h : s.atStep 4 = true) (hk : s.ckr.ckpt = none)
    (hc : s.pwc.cause = none) : exec .entryCheckpointDone s = .next s.beginStep5 :=
  congrArg Host.Outcome.next ((if_pos ⟨h, hk⟩).trans (State.stepDone_of_no_cause hc _))

theorem State.atStep_iff {s : State} {n : Nat} : s.atStep n = true ↔ s.pwc.box = .sleepEntry ∧ s.pwc.entryStep = some n := by
  unfold State.atStep
  rw [Bool.and_eq_true, decide_eq_true_eq, decide_eq_true_eq]

/-- Step 6: the SLEEP is answered and SLEEP_READY is raised (R159). -/
theorem sleepEntry_answered (s : State) (tag : Nat) (h : s.atStep 4 = true) (hk : s.ckr.ckpt = none) (hc : s.pwc.cause = none)
    (htag : s.pwc.sleepTag = some tag) (hm : ∀ p < 4, s.member p ≠ .active ∧ s.member p ≠ .standby)
    (hb : ∀ b < 4, (s.bay b).enable = false) :
    Completes .entryCheckpointDone s fun t =>
      let outcome := if s.pwc.entryCheckpoint then 0 else 1
      t.pwc = { s.pwc with entryStep := some 6, graceTimer := some s.pwc.grace, sleepTag := none } ∧
      t.lnk.replyQueue = (s.lnk.answered (.sleep tag)
        (ownerReply tag 0x11 .ok [⟨1, outcome⟩, ⟨1, s.pwc.grace⟩])).replyQueue ∧
      t.lnk.notices = s.lnk.notices.setIfInBounds 33 (some [⟨1, outcome⟩, ⟨1, s.pwc.grace⟩, ⟨4, s.pwc.time.toNat⟩]) ∧
      t.lnk.entries = s.lnk.entries ∧ t = { s with pwc := t.pwc, lnk := t.lnk } := by
  have hexec := exec_entryCheckpointDone_of_ended h hk hc
  obtain ⟨hbox, hstep⟩ := State.atStep_iff.1 h
  obtain ⟨asks, heach, hasks⟩ := State.each_askStandby (List.range 4) s
  have hsame : asks = s.pwc.standbyAsks := Vector.ext fun p hp => by
    have hp' := hasks p hp
    rw [if_neg fun hc => hc.2.elim (hm p hp).1 (hm p hp).2, Vector.getElem?_eq_getElem hp, Vector.getElem?_eq_getElem hp] at hp'
    exact Option.some.inj hp'
  rw [State.beginStep5_eq, heach, hsame, State.checkStep5_of_asleep (by exact hbox) rfl (by exact hb) (by exact hm) (by exact hc)]
    at hexec
  generalize hu : (({ s with pwc := { s.pwc with standbyAsks := s.pwc.standbyAsks } } : State).onPwc fun w =>
    { w with entryStep := some 5 }) = u at hexec
  have hsix : u.beginStep6 = { s with
      pwc := { s.pwc with entryStep := some 6, graceTimer := some s.pwc.grace, sleepTag := none },
      lnk := { s.lnk with
        replyQueue := s.lnk.queueAfter tag kindSleep .ok [⟨1, s.pwc.outcomeCode⟩, ⟨1, s.pwc.grace⟩],
        notices := s.lnk.notices.setIfInBounds slotSleepReady
          (some [⟨1, s.pwc.outcomeCode⟩, ⟨1, s.pwc.grace⟩, ⟨4, s.pwc.time.toNat⟩]) } } := by
    unfold State.beginStep6
    dsimp only
    rw [show u.pwc.sleepTag = some tag by rw [← hu]; exact htag]
    dsimp only
    rw [State.answer_eq, ← hu]
    rfl
  rw [hsix] at hexec
  exact ⟨_, hexec, rfl, rfl, rfl, rfl, rfl⟩

/-- Step 5 asks the members that are ACTIVE or STANDBY for standby (R158). -/
theorem sleepEntry_asks (s : State) (h : s.atStep 4 = true) (hk : s.ckr.ckpt = none) (hc : s.pwc.cause = none)
    (hm : ∃ p < 4, s.member p = .active ∨ s.member p = .standby) :
    Completes .entryCheckpointDone s fun t =>
      t.pwc.entryStep = some 5 ∧ t.pwc.box = .sleepEntry ∧ t.pwc.sleepTag = s.pwc.sleepTag ∧
      (∀ p < 4, t.pwc.standbyAsks[p]? = if s.member p = .active ∨ s.member p = .standby then some (some .sleepEntry)
        else s.pwc.standbyAsks[p]?) ∧
      t = { s with pwc := { s.pwc with entryStep := some 5, standbyAsks := t.pwc.standbyAsks } } := by
  obtain ⟨p, hp, hactive⟩ := hm
  obtain ⟨asks, heach, hasks⟩ := State.each_askStandby (List.range 4) s
  have hexec := exec_entryCheckpointDone_of_ended h hk hc
  rw [State.beginStep5_eq, heach, State.checkStep5_of_awake hp (by exact hactive)] at hexec
  refine ⟨_, hexec, rfl, (State.atStep_iff.1 h).1, rfl, fun q hq => (hasks q hq).trans ?_, rfl⟩
  simp [List.mem_range.2 hq, hq]

/-! ## A member switched off in step 5 (R108, R111, R158) -/

theorem exec_standbyRequest_of_sleepEntry {s : State} {p : Nat} (h : s.pwc.standbyAsks[p]? = some (some .sleepEntry))
    (hm : s.member p = .standby) : exec (.standbyRequest p) s = .next
      ((s.onPwc fun w => { w with standbyAsks := w.standbyAsks.setIfInBounds p none }).memberOff p) := by
  change execStandbyRequest p s = _
  unfold execStandbyRequest
  rw [h]
  dsimp only [Option.getD]
  unfold State.standbyRequested
  dsimp only
  rw [show ((s.onPwc fun w => { w with standbyAsks := w.standbyAsks.setIfInBounds p none }).chan p).member.state = .standby from hm]
  dsimp only
  unfold State.standbyAnswered
  dsimp only
  rw [if_neg (by
    rw [show State.member (s.onPwc fun w => { w with standbyAsks := w.standbyAsks.setIfInBounds p none }) p = .standby from hm]
    exact MemberState.noConfusion)]

/-- A member that becomes other than ACTIVE is not idle, and its standby requests stand (R107). -/
theorem State.standbyAsks_setMember {s : State} {p : Nat} (hp : p < 4) {m : MemberState} (h : m ≠ .active) :
    (s.setMember p m).pwc.standbyAsks = s.pwc.standbyAsks := by
  unfold State.setMember
  dsimp only
  generalize hu : (s.modChan p fun c => { c with member := { c.member with state := m } }).noticeMember p = u
  have hchan : u.chan p = { s.chan p with member := { (s.chan p).member with state := m } } := by
    rw [← hu]
    exact State.chan_modChan_same hp fun c => { c with member := { c.member with state := m } }
  have hidle : (u.chan p).idle = false := by
    unfold Channel.idle
    rw [hchan]
    simp [h]
  have hasks : u.pwc.standbyAsks = s.pwc.standbyAsks := by rw [← hu]; rfl
  unfold State.idleUpdate
  dsimp only
  rw [hidle, if_neg (by exact Bool.false_ne_true)]
  split
  · exact hasks
  · exact hasks

theorem sleepEntry_off (s : State) (p q b : Nat) (h : s.atStep 5 = true) (hp : p < 4) (hq : q < 4) (hne : q ≠ p)
    (hqa : s.member q = .active) (hb : b < 4) (hask : s.pwc.standbyAsks[p]? = some (some .sleepEntry))
    (hm : s.member p = .standby) (hbay : (s.chan p).bay = some b) (hstep : s.igu.step = none)
    (hd : s.ctm.state.attached = true → s.derived = s.ctm.state) :
    Completes (.standbyRequest p) s fun t =>
      t.member p = .off ∧ t.bay b = { s.bay b with enable := false, window := false } ∧
      t.pwc.standbyAsks[p]? = some none ∧ t.pwc.entryStep = some 5 ∧ t.ctm.state = s.ctm.state ∧
      (∀ k, k ≠ p → t.member k = s.member k) ∧ (t.lnk.notices[3 + p]?.getD none).isSome = true ∧
      t.tables = s.tables ∧ t.mem = s.mem := by
  have hexec := exec_standbyRequest_of_sleepEntry hask hm
  unfold State.memberOff State.memberChange at hexec
  rw [State.memberBayOff_of_bay (by exact hbay)] at hexec
  generalize hu : (s.onPwc fun w => { w with standbyAsks := w.standbyAsks.setIfInBounds p none }).bayOff b = u at hexec
  have hasks := State.standbyAsks_setMember (s := u) hp (m := .off) (by exact MemberState.noConfusion)
  obtain ⟨⟨ch, it, sa, fs, hset⟩, ⟨bi, hsame⟩, hother⟩ := State.setMember_spec (s := u) hp .off
  generalize hx : u.setMember p .off = x at hexec hset hsame hother hasks
  have hoff : x.member p = .off := by
    unfold State.member
    rw [hsame]
  have hmembers : ∀ k, k ≠ p → x.member k = s.member k := fun k hk => by
    unfold State.member
    rw [hother k hk, ← hu]
    rfl
  have hderived : x.derived = s.derived := by
    refine State.derived_congr (by rw [hset, ← hu]; rfl) (by rw [hset, ← hu]; rfl) fun k => ?_
    by_cases hk : k = p
    · rw [hk, hoff, hm]
      exact .inr (.inl ⟨MemberState.whole_off, MemberState.whole_standby⟩)
    · exact .inl (hmembers k hk)
  have hstate : x.ctm.state = s.ctm.state := by rw [hset, ← hu]; rfl
  have hder : x.derive = x := by
    unfold State.derive
    split
    · rename_i hatt
      dsimp only
      rw [if_pos (by rw [hderived, hstate]; exact hd (by rw [← hstate]; exact hatt))]
    · rfl
  have hreport : x.memberReported = x := by
    unfold State.memberReported
    rw [hder, State.scrubTest_of_none (by rw [hset, ← hu]; exact hstep),
      State.checkStep5_of_awake hq (.inl ((hmembers q hne).trans hqa))]
  rw [hreport] at hexec
  refine ⟨x, hexec, hoff, ?_, ?_, ?_, hstate, hmembers, ?_, ?_, ?_⟩
  · rw [State.bay_of_bays (s := u) (by rw [hset]), ← hu]
    exact State.bay_bayOff_same hb
  · rw [hasks, ← hu]
    show (s.pwc.standbyAsks.setIfInBounds p none)[p]? = some none
    rw [Vector.getElem?_setIfInBounds_self_of_lt hp]
  · rw [hset, ← hu]; exact (State.atStep_iff.1 h).2
  · rw [hset]
    exact Lnk.isSome_raised_same u.lnk fs (Nat.lt_of_lt_of_le (Nat.add_lt_add_left hp 3) (by decide))
  · rw [hset, ← hu]; rfl
  · rw [hset, ← hu]; rfl

/-! ## The drained work, the seal and the checkpoint (R156, R157) -/

theorem State.each_modStream_frame (f : Nat → Stream → Stream) (is : List Nat) : ∀ s : State, ∃ ss,
    s.each is (fun s i => s.modStream i (f i)) = { s with ing := { s.ing with streams := ss } } := by
  induction is with
  | nil => exact fun s => ⟨s.ing.streams, rfl⟩
  | cons i is ih =>
    intro s
    obtain ⟨ss, h⟩ := ih (s.modStream i (f i))
    exact ⟨ss, h⟩

/-- What the start of a checkpoint leaves: it is CKR's operation, and the streams are held. -/
theorem State.startCheckpoint_eq (s : State) (why : CkptWhy) : ∃ ss, s.startCheckpoint why = { s with
    ckr := { s.ckr with op := .checkpoint, ckpt := some (s.newCkpt why .holding) }, ing := { s.ing with streams := ss } } :=
  State.each_modStream_frame (fun _ t => { t with held := t.active }) (List.range 8)
    (s.onCkr fun k => { k with op := .checkpoint, ckpt := some (s.newCkpt why .holding) })

/-- The rest of step 7 with no later cause: the box sleeps, LNK is told, and the tags of the freed entries are forgotten (R159,
R200). -/
theorem sleepEntry_dark (s : State) (ha : s.mec.entryAsked = true) (hm : s.mec.state = .ready) (h : s.atStep 7 = true)
    (hl : s.pwc.lateCause = none) :
    Completes .selfRefreshEntered s fun t =>
      t.mec = { s.mec with state := .selfRefresh, refreshRunning := false, owed := 0, entryAsked := false } ∧
      t.pwc = { s.pwc with box := .asleep, hostPower := false, entryStep := none, filterActive := true,
                           sleeps := tallyUp 41 s.pwc.sleeps } ∧
      t.lnk.hostPowered = false ∧ t.lnk.entries = [] ∧ t.lnk.replyQueue = [] ∧ t.lnk.lane = none ∧
      t.lnk.notices = s.lnk.notices ∧ t.oru = { s.oru with marks := s.oru.marks.map fun e => (e.1, 65536) } ∧
      t = { s with mec := t.mec, pwc := t.pwc, lnk := t.lnk, oru := t.oru, ctm := { s.ctm with
        waiting := t.ctm.waiting, recordReqs := t.ctm.recordReqs } } := by
  generalize hu : (s.onMec fun m => { m with state := .selfRefresh, refreshRunning := false, owed := 0, entryAsked := false }) = u
  have hexec : exec .selfRefreshEntered s = .next u.goDark := by
    change execSelfRefreshEntered s = _
    unfold execSelfRefreshEntered
    rw [if_pos ⟨ha, .inl hm⟩]
    dsimp only
    rw [hu, if_pos (by rw [← hu]; exact h)]
  unfold State.goDark at hexec
  dsimp only at hexec
  rw [show u.pwc.lateCause = none by rw [← hu]; exact hl] at hexec
  dsimp only at hexec
  refine ⟨_, hexec, ?_, ?_, rfl, rfl, rfl, rfl, ?_, ?_, ?_⟩
  · rw [← hu]; rfl
  · rw [← hu]
    exact congrArg (fun l => { s.pwc with
      box := .asleep, hostPower := false, entryStep := none, filterActive := true, sleeps := tallyUp 41 s.pwc.sleeps,
      lateCause := l }) hl.symm
  · rw [← hu]; rfl
  · rw [← hu]; rfl
  · rw [← hu]; rfl

/-- Settles O52. -/
theorem sleepEntry : Obligations.SleepEntry := by
  unfold Obligations.SleepEntry
  refine ⟨fun s tag hbox hf ha hm hop hfree hre hstep => ?_, fun s tag hbox hf ha hm hop hfree => ?_,
    fun s h hd hc hatt => ?_, fun s h hd hc => ?_, sleepEntry_answered, sleepEntry_asks, sleepEntry_off,
    fun s h hg => congrArg Host.Outcome.next (if_pos ⟨h, hg⟩), sleepEntry_dark⟩
  · have hsleep := State.sleep_of_ready (s := s.taken (.sleep tag)) (tag := tag) hbox hf ha hm hop
    rw [if_neg (by rw [show (s.taken (.sleep tag)).streamsFree = true from hfree]; exact Bool.noConfusion),
      if_neg (by rw [show (s.taken (.sleep tag)).rearranging = false from hre]; exact Bool.noConfusion)] at hsleep
    unfold State.enterSleepEntry at hsleep
    dsimp only at hsleep
    rw [State.scrubWithdraw_of_none (by exact hstep)] at hsleep
    exact ⟨_, congrArg Host.Outcome.next hsleep, rfl, rfl, rfl⟩
  · have hsleep := State.sleep_of_ready (s := s.taken (.sleep tag)) (tag := tag) hbox hf ha hm hop
    rw [if_pos (by exact hfree), State.taken_refuse] at hsleep
    exact congrArg Host.Outcome.next hsleep
  · refine congrArg Host.Outcome.next (((if_pos ⟨h, hd⟩).trans (State.stepDone_of_no_cause hc _)).trans ?_)
    unfold State.beginStep3
    exact if_pos hatt
  · have hexec : exec .entrySealDone s = .next s.beginStep4 :=
      congrArg Host.Outcome.next ((if_pos ⟨h, hd⟩).trans (State.stepDone_of_no_cause hc _))
    obtain ⟨ss, hstart⟩ := State.startCheckpoint_eq (s.onPwc fun w => { w with entryStep := some 4, entryCheckpoint := false })
      .sleepEntry
    exact ⟨_, hexec.trans (congrArg Host.Outcome.next hstart), rfl, rfl, rfl, rfl⟩

/-! ## Wakes (R161, R167 to R170) -/

theorem State.wakeCause_of_asleep {s : State} (h : s.pwc.box = .asleep) (k : CauseKind) : s.wakeCause k = s.wakeStart k := by
  unfold State.wakeCause
  rw [h]

theorem State.wakeCause_of_running {s : State} (h : s.pwc.box = .run) (k : CauseKind) : s.wakeCause k = s := by
  unfold State.wakeCause
  rw [h]

theorem Pwc.wakes_countWake (w : Pwc) (k : CauseKind) :
    (w.countWake k).wakes[k.code]?.getD 0 = tallyUp (30 + k.code) (w.wakes[k.code]?.getD 0) := by
  have hk : k.code < 4 := by cases k <;> (dsimp only [CauseKind.code]; omega)
  unfold Pwc.countWake
  rw [Vector.getElem?_setIfInBounds_self_of_lt hk]
  rfl

/-- What a wake records (R161). -/
structure State.Woken (s t : State) (k : CauseKind) : Prop where
  box : t.pwc.box = .waking
  cause : t.pwc.cause = some { entryStep := none, kind := k }
  filter : t.pwc.filterActive = false
  asked : t.mec.exitAsked = true
  counted : t.pwc.wakes[k.code]?.getD 0 = tallyUp (30 + k.code) (s.pwc.wakes[k.code]?.getD 0)
  frame : t = { s with pwc := t.pwc, mec := t.mec }

/-- A wake that starts from a state that differs from `s` in PWC's record alone, its wake counts standing (R161). -/
theorem State.wakeStart_woken {s : State} {w : Pwc} (h : w.wakes = s.pwc.wakes) (k : CauseKind) :
    s.Woken (({ s with pwc := w } : State).wakeStart k) k := by
  refine ⟨rfl, rfl, rfl, rfl, ?_, rfl⟩
  rw [← h]
  exact Pwc.wakes_countWake { w with cause := some { entryStep := none, kind := k }, box := .waking, filterActive := false } k

theorem State.pressed_of_asleep {s : State} (h : s.pwc.box = .asleep) (long : Bool) : s.pressed long = s.wakeStart (.button long) := by
  unfold State.pressed
  dsimp only
  rw [h, if_neg (by decide), State.wakeCause_of_asleep h]

theorem State.pressed_of_run {s : State} (h : s.pwc.box = .run) (long : Bool) :
    s.pressed long = s.notice slotButton [⟨1, flag long⟩, ⟨4, s.pwc.time.toNat⟩] := by
  unfold State.pressed
  dsimp only
  rw [if_pos (by rw [h]; rfl), State.wakeCause_of_running (by exact h)]

theorem State.compareAlarm_of_due {s : State} {v : Time} (ha : s.pwc.alarm = some v) (hv : v ≤ s.pwc.time) :
    s.compareAlarm = s.alarmRings v := by
  unfold State.compareAlarm
  rw [ha]
  exact if_pos hv

/-- The patterns tried change no wake count (R169). -/
theorem Pwc.tryPatterns_box (body : List Byte) (ns : List Nat) : ∀ w : Pwc, (w.tryPatterns body ns).1.box = w.box := by
  induction ns with
  | nil => exact fun _ => rfl
  | cons n ns ih =>
    intro w
    unfold Pwc.tryPatterns
    dsimp only
    split
    · split
      · rfl
      · exact ih _
    · exact ih w

/-- A considered frame that a pattern matches in SLEEP starts a wake (R169). -/
theorem exec_lanFrame_of_matched {s : State} {frame : List Byte} {w : Pwc} {n : Nat} (hb : s.pwc.box = .asleep)
    (ha : s.pwc.filterActive = true) (hc : s.pwc.considers frame = true)
    (hw : s.pwc.tryPatterns (frame.take (frame.length - 4)) (List.range 8) = (w, some n)) :
    exec (.lanFrame frame) s =
      .next (({ s with pwc := w } : State).wakeStart (.lan n ((frame.drop 6).take 6))) := by
  have hbox : w.box = .asleep := by
    rw [← hb, ← Pwc.tryPatterns_box (frame.take (frame.length - 4)) (List.range 8) s.pwc, hw]
  change execLanFrame frame s = _
  unfold execLanFrame
  rw [if_pos ha, if_pos hc]
  dsimp only
  rw [hw]
  dsimp only
  rw [State.wakeCause_of_asleep (by exact hbox)]
  rfl

theorem exec_lanFrame_of_rejected {s : State} {frame : List Byte} (ha : s.pwc.filterActive = true)
    (hc : s.pwc.considers frame = false) :
    exec (.lanFrame frame) s = .next { s with pwc := { s.pwc with rejected := tallyUp 42 s.pwc.rejected } } := by
  change execLanFrame frame s = _
  unfold execLanFrame
  rw [if_pos ha, hc]
  rfl

/-- PWC's record with the button line following a press up to its classification (R170). -/
def Pwc.buttonAt (w : Pwc) (long : Bool) : Pwc := { w with button := { samples := (long, long, long), level := long } }

theorem exec_button (s : State) (long : Bool) : exec (if long then .buttonLong else .buttonShort) s =
    .next (({ s with pwc := s.pwc.buttonAt long } : State).pressed long) := by
  cases long with
  | true =>
    exact congrArg (fun l => Host.Outcome.next (({ s with pwc := { s.pwc with button := l } } : State).pressed true))
      (Line.follow_eq _ true)
  | false =>
    exact congrArg (fun l => Host.Outcome.next (({ s with pwc := { s.pwc with button := l } } : State).pressed false))
      (Line.follow_eq _ false)

theorem exec_button_of_asleep {s : State} (h : s.pwc.box = .asleep) (long : Bool) :
    exec (if long then .buttonLong else .buttonShort) s =
      .next (({ s with pwc := s.pwc.buttonAt long } : State).wakeStart (.button long)) :=
  (exec_button s long).trans (congrArg Host.Outcome.next (State.pressed_of_asleep (by exact h) long))

theorem exec_alarmFire_of_asleep {s : State} {v : Time} (h : s.pwc.box = .asleep) (ha : s.pwc.alarm = some v)
    (hv : v ≤ s.pwc.time) :
    exec .alarmFire s = .next (({ s with pwc := { s.pwc with alarm := none } } : State).wakeStart (.alarm v)) := by
  refine congrArg Host.Outcome.next ((State.compareAlarm_of_due ha hv).trans ?_)
  unfold State.alarmRings
  dsimp only
  rw [h, if_neg (by decide), State.wakeCause_of_asleep (by exact h)]
  rfl

theorem wakesAndEvents_wakes (s : State) (c : Instr) (k : CauseKind) (h : s.pwc.box = .asleep)
    (hc : (c = .buttonShort ∧ k = .button false) ∨ (c = .buttonLong ∧ k = .button true) ∨
      (c = .alarmFire ∧ ∃ v, s.pwc.alarm = some v ∧ v ≤ s.pwc.time ∧ k = .alarm v)) :
    ∃ w : Pwc, w.wakes = s.pwc.wakes ∧ exec c s = .next (({ s with pwc := w } : State).wakeStart k) := by
  rcases hc with ⟨rfl, rfl⟩ | ⟨rfl, rfl⟩ | ⟨rfl, v, ha, hv, rfl⟩
  · exact ⟨s.pwc.buttonAt false, rfl, exec_button_of_asleep h false⟩
  · exact ⟨s.pwc.buttonAt true, rfl, exec_button_of_asleep h true⟩
  · exact ⟨{ s.pwc with alarm := none }, rfl, exec_alarmFire_of_asleep h ha hv⟩

/-- Settles O53. -/
theorem wakesAndEvents : Obligations.WakesAndEvents := by
  unfold Obligations.WakesAndEvents
  refine ⟨fun s c k h hc => ?_, fun s frame w n hb ha hc hw => ⟨_, exec_lanFrame_of_matched hb ha hc hw, rfl, rfl, rfl⟩,
    fun s frame ha hc => exec_lanFrame_of_rejected ha hc, fun s he hm hb => ?_, fun s long h => ?_, fun s v h ha hv => ?_⟩
  · obtain ⟨w, hw, hexec⟩ := wakesAndEvents_wakes s c k h hc
    have hwoken := State.wakeStart_woken hw k
    exact ⟨_, hexec, hwoken.box, hwoken.cause, hwoken.filter, hwoken.asked, hwoken.counted, hwoken.frame⟩
  · change execSelfRefreshExited s = _
    unfold execSelfRefreshExited
    rw [if_pos he]
    dsimp only [State.onMec]
    rw [if_pos hm, if_pos hb]
    rfl
  · have hexec := exec_button s long
    rw [State.pressed_of_run (by exact h)] at hexec
    exact ⟨_, hexec, rfl, rfl, rfl⟩
  · refine congrArg Host.Outcome.next ((State.compareAlarm_of_due ha hv).trans ?_)
    unfold State.alarmRings
    dsimp only
    rw [if_pos (by rw [h]; rfl), State.wakeCause_of_running (by exact h)]
    rfl

/-! ## Bringing the memory up, and refresh (R173, R176) -/

theorem exec_refreshTimerExpire_of_running {s : State} (hm : s.mec.state = .ready) (hr : s.mec.refreshRunning = true) (busy : Bool)
    {u : State} (hu : u = { s with mec := { s.mec with
      owed := min 8 (s.mec.owed + 1),
      overflows := if 1 ≤ s.mec.owed then tallyUp 80 s.mec.overflows else s.mec.overflows } })
    {v : State} (hv : v = if 1 ≤ s.mec.owed then u.noticeMemory .refresh else u) :
    exec (.refreshTimerExpire busy) s = .next (if busy then v else v.onMec fun m => { m with owed := 0 }) := by
  change execRefreshTimerExpire busy s = _
  unfold execRefreshTimerExpire
  rw [if_pos ⟨hm, hr⟩, hv, hu]
  simp only [decide_eq_true_eq]
  rfl

/-! ## The read buffer pool (R175) -/

theorem State.startAsker_of_not_waiting {s : State} {a : BufAsker} (h : s.askerWaits a = false) : s.startAsker a = s := by
  unfold State.startAsker
  rw [h]
  exact if_neg Bool.false_ne_true

theorem State.askBuffers_of_room {s : State} {a : BufAsker} {n : Nat} (h : s.askerWaits a = false) (hn : n ≤ s.mec.freeBuffers) :
    s.askBuffers a n = { s with mec := s.mec.setHeld a (s.mec.heldBy a + n) } := by
  unfold State.askBuffers State.takeBuffers
  rw [if_pos hn]
  refine State.startAsker_of_not_waiting ?_
  rw [← h]
  cases a <;> rfl

theorem State.askBuffers_of_full {s : State} {a : BufAsker} {n : Nat} (hn : s.mec.freeBuffers < n) :
    s.askBuffers a n = { s with mec := { s.mec with bufferQueue := s.mec.bufferQueue ++ [(a, n)] } } := by
  unfold State.askBuffers State.takeBuffers
  rw [if_neg (Nat.not_le.2 hn)]
  rfl

/-! ## The region map and the marker (R174, R178) -/

theorem State.askMap_of_pool {s : State} {b c m p : Nat} (hm : s.mec.size = some m) (hp : poolFor m b c = some p) :
    s.askMap b c = { s with mec :=
      { s.mec with map := some { buckets := b, containers := c, pool := p }, mapAnswer := some p } } := by
  unfold State.askMap
  rw [hm]
  dsimp only [Option.bind]
  rw [hp]
  rfl

theorem State.askMap_of_no_pool {s : State} {b c m : Nat} (hm : s.mec.size = some m) (hp : poolFor m b c = none) :
    s.askMap b c = { s with mec := { s.mec with mapAnswer := none } } := by
  unfold State.askMap
  rw [hm]
  dsimp only [Option.bind]
  rw [hp]
  rfl

theorem exec_regionMapRequest_of_idle {s : State} (h : s.inUse = false) (b c : Nat) :
    exec (.regionMapRequest b c) s = .next (s.askMap b c) :=
  congrArg Host.Outcome.next (if_neg (by rw [h]; exact Bool.false_ne_true))

theorem exec_markerRequest_of_idle {s : State} (h : s.inUse = false) : exec .markerRequest s = .next s.askMarker :=
  congrArg Host.Outcome.next (if_neg (by rw [h]; exact Bool.false_ne_true))

/-- Settles O55. -/
theorem memoryRuns : Obligations.MemoryRuns := by
  unfold Obligations.MemoryRuns
  refine ⟨fun s n h hn => ?_, fun s h => ?_, fun s busy hm hr ho => ?_, fun s busy hm hr ho => ?_,
    fun s a n ha => ⟨fun hn => congrArg Host.Outcome.next (State.askBuffers_of_room ha hn),
      fun hn => congrArg Host.Outcome.next (State.askBuffers_of_full hn),
      fun hq => congrArg Host.Outcome.next (State.returnBuffers_of_none_waiting hq a n)⟩,
    fun s b c m hu hm => ?_, fun s k m p hu hk hm hp => ?_, fun s hu hk => ?_⟩
  · have hsize : memorySizes.contains n = true := by rcases hn with rfl | rfl | rfl | rfl <;> decide
    change execMemoryInitDone (some n) s = _
    unfold execMemoryInitDone
    rw [if_pos h]
    dsimp only
    rw [if_pos hsize]
    rfl
  · have hexec : exec (.memoryInitDone none) s =
        .next ((s.onMec fun m => { m with state := .failed, marker := none, bursts := [] }).noticeMemory .init) :=
      congrArg Host.Outcome.next (if_pos h)
    exact ⟨_, hexec, rfl, rfl, rfl⟩
  · have hno : ¬ 1 ≤ s.mec.owed := by omega
    rw [exec_refreshTimerExpire_of_running hm hr busy rfl rfl, if_neg hno, if_neg hno, ho]
    cases busy <;> rfl
  · have hexec := exec_refreshTimerExpire_of_running hm hr busy rfl rfl
    rw [if_pos ho, if_pos ho] at hexec
    refine ⟨_, hexec, ?_, ?_, ?_⟩ <;> cases busy <;> rfl
  · rw [exec_regionMapRequest_of_idle hu]
    dsimp only
    split
    · rename_i hp
      rw [State.askMap_of_no_pool hm (if_pos hp)]
    · rename_i hp
      rw [State.askMap_of_pool hm (if_neg hp)]
      rfl
  · rw [exec_markerRequest_of_idle hu]
    unfold State.askMarker
    rw [hk]
    dsimp only
    rw [State.askMap_of_pool hm hp]
    rfl
  · rw [exec_markerRequest_of_idle hu]
    unfold State.askMarker
    rw [hk]
    rfl

/-! ## Bursts (R175, R179, R180) -/

/-- A burst asked for in READY with none waiting is carried at once, if R175 admits it. -/
theorem exec_memoryBurst_of_ready {s : State} {b : Burst} (hm : s.mec.state = .ready) (he : s.mec.entryAsked = false)
    (hb : s.mec.bursts = []) (hsize : b.addr + b.len ≤ s.mec.size.getD 0) (hadm : b.admitted s.mec.map = true) :
    exec (.memoryBurst (some b)) s = .next (s.carryBurst b) := by
  have hmec : ({ s with mec := { s.mec with bursts := [] } } : State) = s := by rw [← hb]
  have hnext : (s.onMec fun m => { m with bursts := m.bursts ++ (some b).toList }).carryNext = .next (s.carryBurst b) := by
    unfold State.carryNext
    rw [show (s.onMec fun m => { m with bursts := m.bursts ++ (some b).toList }).mec.bursts = [b] by
      show s.mec.bursts ++ [b] = [b]
      rw [hb]
      rfl]
    dsimp only
    rw [show State.onMec (s.onMec fun m => { m with bursts := m.bursts ++ (some b).toList }) (fun m => { m with bursts := [] }) = s
      from hmec, if_neg (Nat.not_lt.2 hsize), if_pos hadm]
  change execMemoryBurst (some b) s = _
  unfold execMemoryBurst
  rw [hm]
  dsimp only
  rw [he, if_neg Bool.false_ne_true]
  exact hnext

/-- The words that a burst without errors reads are good when none is bad. -/
theorem State.checkWords_of_good {s : State} {b : Burst} (hm : s.mec.bad = []) (ht : s.tables.bad = []) (he : b.errors = [])
    (ws : List Nat) : s.checkWords b ws = (s, []) := by
  induction ws with
  | nil => rfl
  | cons w ws ih =>
    have hnone : s.wordError b w = none := by
      unfold State.wordError State.wordBad
      rw [hm, ht, he]
      rfl
    unfold State.checkWords
    rw [hnone]
    exact ih

theorem State.tableAddress_of_no_array {s : State} (h : s.tables.array = none) (a : Nat) : s.tableAddress a = false := by
  unfold State.tableAddress
  rw [h]
  rfl

theorem State.rewords_of_none {s : State} (h : s.mec.bad = []) (f : Nat → Bool) : s.rewords f = s := by
  unfold State.rewords
  rw [h]
  show ({ s with mec := { s.mec with bad := [] } } : State) = s
  rw [← h]

theorem Burst.wordsRead_of_whole {a : Nat} {bs : List Byte} {es : List (Nat × Bool)} {p : Bool} (ha : a % 8 = 0)
    (hl : bs.length % 8 = 0) : Burst.wordsRead
      { isWrite := true, addr := a, len := bs.length, data := bs, errors := es, piece := p } = [] := by
  unfold Burst.wordsRead
  refine List.filter_eq_nil_iff.2 fun w hw => ?_
  obtain ⟨i, hi, rfl⟩ := List.mem_map.1 hw
  have hi := List.mem_range.1 hi
  simp only [Burst.words, Burst.first] at hi ⊢
  simp only [Burst.covers, Bool.not_true, Bool.false_or, Bool.not_eq_true', Bool.and_eq_false_iff, decide_eq_false_iff_not]
  omega

theorem State.noticeMemory_of_count {s : State} {r : Region} {n : Nat} (h : s.mec.count r = n) :
    s.noticeMemory (.uncorrectable (some r)) = { s with
      lnk := s.lnk.raised slotMemory [⟨1, 0⟩, ⟨1, r.number⟩, ⟨4, n⟩, ⟨4, s.mec.overflows⟩, ⟨4, s.mec.corrected⟩] } := by
  rw [← h]
  rfl

theorem burstsReachMemory_read (s : State) (a n : Nat) (hm : s.mec.state = .ready) (he : s.mec.entryAsked = false)
    (hb : s.mec.bursts = []) (harr : s.tables.array = none) (hbad : s.mec.bad = []) (htbad : s.tables.bad = []) :
    let b : Burst := { isWrite := false, addr := a, len := n, data := [], errors := [], piece := false }
    a + n ≤ s.mec.size.getD 0 → b.admitted s.mec.map = true →
    exec (.memoryBurst (some b)) s = .next { s with mec :=
      { s.mec with burstAnswer := .delivered (Memory.read s.mem a n) [], owed := 0 } } := by
  intro b hsize hadm
  have hbytes : s.deliver b [] = Memory.read s.mem a n := by
    refine List.map_congr_left fun i _ => ?_
    dsimp only
    unfold State.byteAt
    rw [State.tableAddress_of_no_array harr]
    rfl
  rw [exec_memoryBurst_of_ready hm he hb hsize hadm]
  unfold State.carryBurst
  dsimp only
  rw [State.checkWords_of_good hbad htbad rfl, hbytes]
  rfl

theorem burstsReachMemory_write (s : State) (a : Nat) (bs : List Byte) (hm : s.mec.state = .ready)
    (he : s.mec.entryAsked = false) (hb : s.mec.bursts = []) (harr : s.tables.array = none) (hbad : s.mec.bad = [])
    (htbad : s.tables.bad = []) (ha : a % 8 = 0) (hl : bs.length % 8 = 0) :
    let b : Burst := { isWrite := true, addr := a, len := bs.length, data := bs, errors := [], piece := false }
    a + bs.length ≤ s.mec.size.getD 0 → b.admitted s.mec.map = true →
    Completes (.memoryBurst (some b)) s fun t =>
      Memory.read t.mem a bs.length = bs ∧
      (∀ x, (x < a ∨ a + bs.length ≤ x) → Memory.get t.mem x = Memory.get s.mem x) ∧
      t.mec = { s.mec with burstAnswer := .written, owed := 0 } ∧ t = { s with mec := t.mec, mem := t.mem } := by
  intro b hsize hadm
  have hexec := exec_memoryBurst_of_ready hm he hb hsize hadm
  have hstore : s.storeBurst b = { s with mem := Memory.write s.mem a bs } := by
    unfold State.storeBurst
    rw [State.tableAddress_of_no_array harr, if_neg Bool.false_ne_true]
    unfold State.writeMem
    rw [State.rewords_of_none hbad]
  unfold State.carryBurst at hexec
  dsimp only at hexec
  rw [State.checkWords_of_good hbad htbad rfl, hstore] at hexec
  refine ⟨_, hexec, Memory.read_write s.mem a bs, fun x hx => ?_, rfl, rfl⟩
  refine (Memory.get_write s.mem a x bs).trans (if_neg ?_)
  omega

theorem burstsReachMemory_error (s : State) (w : Nat) (hm : s.mec.state = .ready) (he : s.mec.entryAsked = false)
    (hb : s.mec.bursts = []) (hbad : s.mec.bad = []) (htbad : s.tables.bad = []) (hw : w % 8 = 0) (hlt : w < 2097152)
    (hsize : w + 8 ≤ s.mec.size.getD 0) :
    Completes (.memoryBurst (some
      { isWrite := false, addr := w, len := 8, data := [], errors := [(0, true)], piece := false })) s fun t =>
      (∃ bs, t.mec.burstAnswer = .delivered bs [0]) ∧ t.mec.bad = [w] ∧
      t.mec.reports = s.mec.reports ++ [(some .rings, w)] ∧
      t.mec.uncorrectable = s.mec.uncorrectable.setIfInBounds 0 (tallyUp 90 s.mec.uncorrectable[0]) ∧
      t.lnk = s.lnk.raised 34 [⟨1, 0⟩, ⟨1, 0⟩, ⟨4, tallyUp 90 s.mec.uncorrectable[0]⟩, ⟨4, s.mec.overflows⟩,
        ⟨4, s.mec.corrected⟩] ∧
      t = { s with mec := t.mec, lnk := t.lnk } := by
  generalize hbu : ({ isWrite := false, addr := w, len := 8, data := [], errors := [(0, true)], piece := false } : Burst) = b
  have hring : ∀ x < 2097152, regionAt s.mec.map x = some .rings := fun x hx => if_pos hx
  have hfirst : b.first = w := by
    rw [← hbu]
    show w / 8 * 8 = w
    omega
  have hwords : b.wordsRead = [w] := by
    have hone : b.words = 1 := by
      rw [← hbu]
      show (w + 8 + 7) / 8 - w / 8 = 1
      omega
    unfold Burst.wordsRead
    rw [hone, hfirst, ← hbu]
    rfl
  have hadm : b.admitted s.mec.map = true := by
    have hone : b.words = 1 := by
      rw [← hbu]
      show (w + 8 + 7) / 8 - w / 8 = 1
      omega
    unfold Burst.admitted
    rw [hone, ← hbu]
    simp [hw, hring w hlt, hring (w + 7) (by omega)]
  have hexec := exec_memoryBurst_of_ready hm he hb (by rw [← hbu]; exact hsize) hadm
  have hgood : s.wordBad w = false := by
    unfold State.wordBad
    rw [hbad, htbad]
    rfl
  have herror : s.wordError b w = some true := by
    unfold State.wordError
    rw [hgood, if_neg Bool.false_ne_true, hfirst, Nat.sub_self, ← hbu]
    rfl
  have hlost : s.wordLost w = { s with mec := { s.mec with bad := [w] } } := by
    have htable : s.tableAddress w = false := by
      unfold State.tableAddress
      rw [hring w hlt]
      exact Bool.and_false _
    unfold State.wordLost
    rw [htable, if_neg Bool.false_ne_true]
    show ({ s with mec := { s.mec with bad := s.mec.bad ++ [w] } } : State) = _
    rw [hbad]
    rfl
  have huncorr : s.uncorrectable w = { s with
      mec := { s.mec with bad := [w], reports := s.mec.reports ++ [(some .rings, w)],
                          uncorrectable := s.mec.uncorrectable.setIfInBounds 0 (tallyUp 90 s.mec.uncorrectable[0]) },
      lnk := s.lnk.raised 34 [⟨1, 0⟩, ⟨1, 0⟩, ⟨4, tallyUp 90 s.mec.uncorrectable[0]⟩, ⟨4, s.mec.overflows⟩,
        ⟨4, s.mec.corrected⟩] } := by
    unfold State.uncorrectable
    rw [hring w hlt]
    dsimp only
    rw [hgood, if_neg Bool.false_ne_true, hlost]
    have hcount : s.mec.count .rings = s.mec.uncorrectable[0] := by simp [Mec.count, Region.number]
    refine (State.noticeMemory_of_count (n := tallyUp 90 s.mec.uncorrectable[0]) ?_).trans ?_
    · rw [← hcount]
      simp [Mec.count, Region.number, State.onMec]
    · rw [← hcount]
      rfl
  have hcheck : s.checkWords b b.wordsRead = (s.uncorrectable w, [w]) := by
    rw [hwords]
    unfold State.checkWords
    rw [herror]
    rfl
  unfold State.carryBurst at hexec
  dsimp only at hexec
  rw [hcheck, huncorr] at hexec
  generalize hgiven : State.deliver _ b _ = given at hexec
  have hindex : [w].map (fun x => (x - b.first) / 8) = [0] := by rw [hfirst]; simp
  rw [hindex] at hexec
  subst hbu
  exact ⟨_, hexec, ⟨given, rfl⟩, rfl, rfl, rfl, rfl, rfl⟩

/-- Settles O56. -/
theorem burstsReachMemory : Obligations.BurstsReachMemory := by
  unfold Obligations.BurstsReachMemory
  refine ⟨burstsReachMemory_read, burstsReachMemory_write, burstsReachMemory_error, fun s b h => ?_, fun s b h => ?_⟩
  · change execMemoryBurst (some b) s = _
    unfold execMemoryBurst
    rw [h]
    rfl
  · change execMemoryBurst (some b) s = _
    unfold execMemoryBurst
    rcases h with h | h | ⟨h, he⟩
    · rw [h]; rfl
    · rw [h]; rfl
    · rw [h]
      exact if_pos he

end Sys2Proof.Machine

/-! # Proofs: Forming and checkpoints -/

namespace Sys2Proof.Machine

/-! ## A step taken at each of several positions -/

/-- Steps that touch one channel each: each position's channel is as its own step leaves it. -/
theorem State.chan_each {f : State → Nat → State} (hf : ∀ s p q, q ≠ p → (f s p).chan q = s.chan q) (ps : List Nat) :
    ∀ s : State, ps.Nodup → (∀ q ∉ ps, (s.each ps f).chan q = s.chan q) ∧
      ∀ p ∈ ps, ∃ u, u.chan p = s.chan p ∧ (s.each ps f).chan p = (f u p).chan p := by
  induction ps with
  | nil => exact fun s _ => ⟨fun _ _ => rfl, fun p hp => absurd hp List.not_mem_nil⟩
  | cons r ps ih =>
    intro s hnodup
    obtain ⟨hnot, hnodup⟩ := List.nodup_cons.1 hnodup
    obtain ⟨hout, hin⟩ := ih (f s r) hnodup
    refine ⟨fun q hq => ?_, fun p hp => ?_⟩
    · exact (hout q fun h => hq (List.mem_cons_of_mem _ h)).trans (hf s r q fun h => hq (h ▸ List.mem_cons_self))
    · rcases List.mem_cons.1 hp with rfl | hp
      · exact ⟨s, rfl, hout p hnot⟩
      · obtain ⟨u, hu, heach⟩ := hin p hp
        exact ⟨u, hu.trans (hf s r p fun h => hnot (h ▸ hp)), heach⟩

/-- What binding channels to bays can change: the channels, and the notices. -/
def State.bindsOnly (s t : State) : Prop := ∃ ch ns, t = { s with chans := ch, lnk := { s.lnk with notices := ns } }

theorem State.bindsOnly_each {f : State → Nat → State} (hf : ∀ (s : State) (p : Nat), s.bindsOnly (f s p)) (ps : List Nat) :
    ∀ s : State, s.bindsOnly (s.each ps f) := by
  induction ps with
  | nil => exact fun s => ⟨s.chans, s.lnk.notices, rfl⟩
  | cons p ps ih =>
    intro s
    obtain ⟨ch, ns, h⟩ := hf s p
    obtain ⟨ch', ns', h'⟩ := ih (f s p)
    exact ⟨ch', ns', h'.trans (by rw [h])⟩

theorem State.bindsOnly_bind (s : State) (p : Nat) (bay : Option Nat) (m : Member) : s.bindsOnly (s.bind p bay m) := by
  unfold State.bind
  dsimp only
  split
  · exact ⟨_, s.lnk.notices, rfl⟩
  · exact ⟨_, _, rfl⟩

theorem State.chan_bind_same {s : State} {p : Nat} (hp : p < 4) (bay : Option Nat) (m : Member) :
    (s.bind p bay m).chan p = (s.chan p).bound bay m := by
  have hmod := State.chan_modChan_same (s := s) hp fun c => c.bound bay m
  unfold State.bind
  dsimp only
  split
  · exact hmod
  · exact hmod

theorem State.chan_bind_other {s : State} {p q : Nat} (h : q ≠ p) (bay : Option Nat) (m : Member) :
    (s.bind p bay m).chan q = s.chan q := by
  have hmod := State.chan_modChan_other (s := s) h fun c => c.bound bay m
  unfold State.bind
  dsimp only
  split
  · exact hmod
  · exact hmod

/-! ## Forming (R186) -/

/-- The binding of position `p` in step 1 of forming (R186). -/
def State.formBind (bays : List Nat) (s : State) (p : Nat) : State :=
  match bays[p]? with
  | some b => s.bind p (some b) (Member.joins .off)
  | none => s.bind p none (s.chan p).member.gone

theorem State.bindsOnly_formBind (bays : List Nat) (s : State) (p : Nat) : s.bindsOnly (s.formBind bays p) := by
  unfold State.formBind
  split
  · exact s.bindsOnly_bind ..
  · exact s.bindsOnly_bind ..

theorem State.chan_formBind_other (bays : List Nat) (s : State) (p q : Nat) (h : q ≠ p) :
    (s.formBind bays p).chan q = s.chan q := by
  unfold State.formBind
  split
  · exact State.chan_bind_other h _ _
  · exact State.chan_bind_other h _ _

/-- A channel whose queues are empty has nobody waiting either. -/
theorem Channel.empty_of_allQueued {c : Channel} (h : c.allQueued = []) (k : Cls) : c.queue k = [] ∧ c.waitingFor k = [] := by
  have hk : k ∈ allClasses := by cases k <;> decide
  obtain ⟨hqueues, hwaits⟩ := List.append_eq_nil_iff.1 h
  rw [List.flatten_eq_nil_iff] at hqueues hwaits
  exact ⟨hqueues _ (List.mem_map_of_mem hk), List.map_eq_nil_iff.1 (hwaits _ (List.mem_map_of_mem hk))⟩

theorem State.stalledAt_of_no_waiting {s : State} (h : ∀ p < 4, ∀ k, (s.chan p).waitingFor k = []) (r : Requester) (k : Cls) :
    s.stalledAt r k = none := by
  unfold State.stalledAt
  refine List.find?_eq_none.2 fun p hp => ?_
  rw [h p (List.mem_range.1 hp)]
  exact Bool.false_ne_true

/-- A LABEL_READ asked of members that are at rest: each has it in its queue and has asked for a spin-up (R98, R186, R190). -/
theorem State.submitAll_labelRead {s : State} {ps : List Nat} {j : Job} (hnodup : ps.Nodup) (hps : ∀ p ∈ ps, p < 4)
    (hf : s.ctm.state ≠ .failed) (hempty : ∀ p < 4, ∀ k, (s.chan p).queue k = [] ∧ (s.chan p).waitingFor k = [])
    (hoff : ∀ p ∈ ps, s.member p = .off) : ∀ p ∈ ps,
      ((s.submitAll (ps.map fun p => (p, labelReadOp j))).chan p).bay = (s.chan p).bay ∧
      (s.submitAll (ps.map fun p => (p, labelReadOp j))).member p = .off ∧
      ((s.submitAll (ps.map fun p => (p, labelReadOp j))).chan p).queue .read = [labelReadOp j] ∧
      ((s.submitAll (ps.map fun p => (p, labelReadOp j))).chan p).spinupAsked = true := by
  intro p hp
  obtain ⟨hin, -⟩ := State.submitAll_joins (s := s) (o := labelReadOp j) rfl ps hnodup hf rfl
    (State.stalledAt_of_no_waiting (fun p hp k => (hempty p hp k).2) _ _) fun q hq => ⟨hps q hq, hempty q (hps q hq) _⟩
  have hthere := hin p hp (by rw [hoff p hp]; decide)
  have hqueue := State.joinedAt_queue hthere
  obtain ⟨b, a, hchan, ha⟩ := hthere
  refine ⟨by rw [hchan]; rfl, ?_, hqueue, by rw [hchan]; exact ha (.inr (hoff p hp))⟩
  unfold State.member
  rw [hchan]
  exact hoff p hp

theorem Layout.members_le (l : Layout) : l.members ≤ 4 := by cases l <;> decide

/-- The bound channels of a forming (R186, step 1). -/
theorem State.chan_each_formBind {s : State} (bays : List Nat) {p : Nat} (hp : p < 4) :
    (∀ k, ((s.each (List.range 4) (State.formBind bays)).chan p).queue k = (s.chan p).queue k ∧
      ((s.each (List.range 4) (State.formBind bays)).chan p).waitingFor k = (s.chan p).waitingFor k) ∧
    ((s.each (List.range 4) (State.formBind bays)).chan p).bay = bays[p]? ∧
    (p < bays.length → (s.each (List.range 4) (State.formBind bays)).member p = .off) := by
  obtain ⟨u, hu, heach⟩ := (State.chan_each (State.chan_formBind_other bays) (List.range 4) s List.nodup_range).2 p
    (List.mem_range.2 hp)
  have hbind : (∃ b, bays[p]? = some b ∧ (u.formBind bays p).chan p = (s.chan p).bound (some b) (Member.joins .off)) ∨
      bays[p]? = none ∧ (u.formBind bays p).chan p = (s.chan p).bound none (s.chan p).member.gone := by
    unfold State.formBind
    cases hb : bays[p]? with
    | some b => exact .inl ⟨b, rfl, (State.chan_bind_same hp ..).trans (by rw [hu])⟩
    | none => exact .inr ⟨rfl, (State.chan_bind_same hp ..).trans (by rw [hu])⟩
  unfold State.member
  rw [heach]
  rcases hbind with ⟨b, hb, hchan⟩ | ⟨hb, hchan⟩
  · rw [hchan, hb]
    exact ⟨fun _ => ⟨rfl, rfl⟩, rfl, fun _ => rfl⟩
  · rw [hchan, hb]
    exact ⟨fun _ => ⟨rfl, rfl⟩, rfl, fun h => absurd (List.getElem?_eq_none_iff.1 hb) (Nat.not_le.2 h)⟩

theorem State.mayAttach_iff {s : State} : s.mayAttach = true ↔ s.pwc.box = .run ∧ s.ctm.state = .unformed ∧ s.mec.state = .ready := by
  unfold State.mayAttach
  rw [Bool.and_eq_true, Bool.and_eq_true, decide_eq_true_eq, decide_eq_true_eq, decide_eq_true_eq, and_assoc]

/-- A FORM_ARRAY that passes every check begins the forming (R186). -/
theorem State.formArray_of_good {s : State} {tag n count buckets : Nat} {bays : List Nat} {l : Layout} (hu : s.ctm.state = .unformed)
    (hbox : s.pwc.box = .run) (hmec : s.mec.state = .ready) (hl : layoutOf n = some l) (hcount : count = l.members)
    (htake : (bays.take count).length = count) (hdist : distinctBays (bays.take count) = true)
    (hbuckets : bucketCountGood buckets = true) (hpres : ∀ b ∈ bays.take count, (s.bay b).presence.level = true) :
    s.formArray tag n count bays buckets = s.beginForming tag l (bays.take count) buckets := by
  unfold State.formArray
  rw [if_neg (by rw [hu]; exact ArrayState.noConfusion),
    if_neg (by rw [State.mayAttach_iff.2 ⟨hbox, hu, hmec⟩]; exact Bool.noConfusion), hl]
  dsimp only
  rw [if_neg (by rw [htake, hdist]; simp [hcount]), if_neg (by rw [hbuckets]; exact Bool.noConfusion),
    if_neg (by rw [List.all_eq_true.2 hpres]; exact Bool.noConfusion)]

theorem formingRuns_begins (s : State) (tag n count buckets : Nat) (bays : List Nat) (l : Layout) (hu : s.ctm.state = .unformed)
    (hbox : s.pwc.box = .run) (hmec : s.mec.state = .ready) (hl : layoutOf n = some l) (hcount : count = l.members)
    (hlen : count ≤ bays.length) (hdist : distinctBays (bays.take count) = true) (hbuckets : bucketCountGood buckets = true)
    (hpres : ∀ b ∈ bays.take count, (s.bay b).presence.level = true) (hempty : ∀ p < 4, (s.chan p).allQueued = []) :
    Completes (.formArray tag n count bays buckets) s fun t =>
      t.ctm = { s.ctm with state := .attaching } ∧ t.ckr.op = .forming ∧
      t.ckr.form = some { tag := tag, layout := l, bays := bays.take count, buckets := buckets, stage := .drives } ∧
      (∀ j < count, (t.chan j).bay = bays[j]? ∧ t.member j = .off ∧ (t.chan j).spinupAsked = true) ∧
      t.lnk.replyQueue = s.lnk.replyQueue ∧ t.tables = s.tables ∧ t.mem = s.mem := by
  have htake : (bays.take count).length = count := by rw [List.length_take, Nat.min_eq_left hlen]
  have hform := State.formArray_of_good (s := s.taken (.formArray tag n count bays buckets)) (tag := tag) (buckets := buckets)
    hu hbox hmec hl hcount htake hdist hbuckets hpres
  generalize hv : ((s.taken (.formArray tag n count bays buckets)).onCtm fun m => { m with state := .attaching }).onCkr
    (fun k => { k with op := .forming,
                       form := some { tag := tag, layout := l, bays := bays.take count, buckets := buckets, stage := .drives } }) = v
  have hexec : exec (.formArray tag n count bays buckets) s = .next
      ((v.each (List.range 4) (State.formBind (bays.take count))).submitAll ((List.range count).map fun p => (p, labelReadOp .labelRead))) := by
    refine congrArg Host.Outcome.next (hform.trans ?_)
    rw [← hv]
    unfold State.beginForming
    rw [htake]
    rfl
  obtain ⟨ch, ns, hbinds⟩ := State.bindsOnly_each (State.bindsOnly_formBind (bays.take count)) (List.range 4) v
  have hbound := fun p (hp : p < 4) => State.chan_each_formBind (s := v) (bays.take count) hp
  generalize hw : v.each (List.range 4) (State.formBind (bays.take count)) = w at hexec hbinds hbound
  have h4 : count ≤ 4 := by rw [hcount]; exact l.members_le
  have hall := State.submitAll_labelRead (s := w) (ps := List.range count) (j := .labelRead) List.nodup_range
    (fun p hp => Nat.lt_of_lt_of_le (List.mem_range.1 hp) h4) (by rw [hbinds, ← hv]; exact ArrayState.noConfusion)
    (fun p hp k => by
      obtain ⟨hq, hwait⟩ := (hbound p hp).1 k
      rw [hq, hwait, ← hv]
      exact Channel.empty_of_allQueued (hempty p hp) k)
    (fun p hp => (hbound p (Nat.lt_of_lt_of_le (List.mem_range.1 hp) h4)).2.2 (by rw [htake]; exact List.mem_range.1 hp))
  obtain ⟨ch', it, sa, rt, hframe⟩ := w.submitAll_frame ((List.range count).map fun p => (p, labelReadOp .labelRead))
  refine ⟨_, hexec, ?_, ?_, ?_, fun j hj => ?_, ?_, ?_, ?_⟩
  rotate_left 3
  · obtain ⟨hbay, hm, -, hasks⟩ := hall j (List.mem_range.2 hj)
    refine ⟨hbay.trans ((hbound j (Nat.lt_of_lt_of_le hj h4)).2.1.trans ?_), hm, hasks⟩
    rw [List.getElem?_take, if_pos hj]
  all_goals
    rw [hframe, hbinds, ← hv]
    rfl

/-! ## Submissions, one after another -/

/-- What submitting operations can change (R98, R99, R107). -/
def State.submitsOnly (s t : State) : Prop := ∃ ch it sa rt, t = { s with
  chans := ch, pwc := { s.pwc with idleTimers := it, standbyAsks := sa }, returns := rt }

theorem State.submitsOnly_trans {s t u : State} (h : s.submitsOnly t) (h' : t.submitsOnly u) : s.submitsOnly u := by
  obtain ⟨ch, it, sa, rt, rfl⟩ := h
  obtain ⟨ch', it', sa', rt', rfl⟩ := h'
  exact ⟨ch', it', sa', rt', rfl⟩

theorem State.submitsOnly_submit (s : State) (p : Nat) (o : Op) : s.submitsOnly (s.submit p o) := s.submit_frame p o

theorem State.submitsOnly_submitAll (s : State) (os : List (Nat × Op)) : s.submitsOnly (s.submitAll os) := s.submitAll_frame os

theorem State.submitsOnly_each {f : State → Nat → State} (hf : ∀ (s : State) (p : Nat), s.submitsOnly (f s p)) (ps : List Nat) :
    ∀ s : State, s.submitsOnly (s.each ps f) := by
  induction ps with
  | nil => exact fun s => ⟨s.chans, s.pwc.idleTimers, s.pwc.standbyAsks, s.returns, rfl⟩
  | cons p ps ih => exact fun s => State.submitsOnly_trans (hf s p) (ih (f s p))

theorem State.submitsOnly_writeLabels (s : State) (n : Nat) : s.submitsOnly (s.writeLabels n) :=
  State.submitsOnly_each (fun s _ => State.submitsOnly_trans (s.submitsOnly_submit ..) (State.submitsOnly_submit ..)) _ s

/-! ## The sizes, and the array record (R186) -/

theorem formingRuns_sizes (s : State) (f : Forming) (m c p : Nat) (hform : s.ckr.form = some f) (hstage : f.stage = .drives)
    (hback : f.bays.length ≤ (s.returned fun j => j = .labelRead).length) (hm : s.mec.size = some m)
    (hc : c = min 67108864 (s.smallestDrive f.layout.members - 1 - 2 * (m / 65536 - 175))) (h1 : 1 ≤ c)
    (hp : poolFor m f.buckets c = some p) :
    Completes .formDrivesReady s fun t =>
      t.tables.array = some { layout := f.layout, reserved := m / 65536 - 175, containers := c, seq := 1, fence := 0,
                              number := (crc32 (leBytes 4 s.pwc.time.toNat ++
                                leBytes 4 (s.smallestDrive f.layout.members))).toNat } ∧
      t.tables.freeList = List.range c ∧ t.tables.quarantine = [] ∧ t.tables.containers = [] ∧ t.tables.entries = [] ∧
      t.tables.objects = [] ∧ t.tables.buckets = f.buckets ∧ t.inUse = true ∧
      t.mec.map = some { buckets := f.buckets, containers := c, pool := p } ∧
      t.ckr.form = some { f with stage := .labels } ∧ t.mem = s.mem := by
  generalize hu : s.dropReturned (fun j => j = .labelRead) = u
  have hexec : exec .formDrivesReady s = .next (u.sizeArray f) := by
    change execFormDrivesReady s = _
    unfold execFormDrivesReady
    rw [hform]
    dsimp only
    rw [if_pos ⟨hstage, hback⟩, hu]
  have husize : u.mec.size = some m := by rw [← hu]; exact hm
  have huc : min 67108864 (u.smallestDrive f.layout.members - 1 - 2 * reservedFor (u.mec.size.getD 0)) = c := by
    rw [husize, hc, ← hu]
    rfl
  have hsized : u.sizeArray f = (({ u with
      mec := { u.mec with map := some { buckets := f.buckets, containers := c, pool := p }, mapAnswer := some p },
      ckr := { u.ckr with form := some { f with stage := .labels } } } : State).emptyTables f
        (u.smallestDrive f.layout.members) (m / 65536 - 175) c).writeLabels f.layout.members := by
    unfold State.sizeArray
    dsimp only
    rw [huc, if_neg (Nat.not_lt.2 h1), State.askMap_of_pool husize hp,
      show reservedFor (u.mec.size.getD 0) = m / 65536 - 175 by rw [husize]; rfl]
    exact if_neg Bool.false_ne_true
  generalize hv : ({ u with
      mec := { u.mec with map := some { buckets := f.buckets, containers := c, pool := p }, mapAnswer := some p },
      ckr := { u.ckr with form := some { f with stage := .labels } } } : State).emptyTables f
        (u.smallestDrive f.layout.members) (m / 65536 - 175) c = v at hsized
  obtain ⟨ch, it, sa, rt, hframe⟩ := v.submitsOnly_writeLabels f.layout.members
  rw [hsized, hframe] at hexec
  refine ⟨_, hexec, ?_, ?_, ?_, ?_, ?_, ?_, ?_, ?_, ?_, ?_, ?_⟩
  all_goals
    rw [← hv, ← hu]
    rfl

/-! ## The copy of a checkpoint begins (R188, R189) -/

theorem State.writePiece_eq (s : State) (c : Ckpt) : ∃ x ch it sa rt, s.writePiece c = { s with
    ckr := { s.ckr with ckpt := some { c with crc := x, out := c.members } },
    chans := ch, pwc := { s.pwc with idleTimers := it, standbyAsks := sa }, returns := rt } := by
  obtain ⟨ch, it, sa, rt, h⟩ := State.submitAll_frame (s.onCkr fun k => { k with
    ckpt := some { c with crc := crcRun c.crc (s.pieceBytes c.piece), out := c.members } }) (c.members.map fun p =>
      (p, writeUnitOp .write (slotBase s.reserved c.slot + 1 + c.piece) (padTo unitSize (s.pieceBytes c.piece)) .ckr .ckptBody))
  exact ⟨_, ch, it, sa, rt, h⟩

/-- The copy begun: Q is the sequence before the array's next one, and the first piece is out (R188, step 4). -/
theorem State.startCopying_eq {s : State} {a : ArrayRec} (ha : s.arr = some a) (c : Ckpt) : ∃ x ms ch it sa rt,
    s.startCopying c = { s with
      ctm := { s.ctm with noFree := true },
      ckr := { s.ckr with
        ckpt := some { c with phase := .copying, q := a.seq - 1, members := ms, piece := 0, crc := x, out := ms } },
      chans := ch, pwc := { s.pwc with idleTimers := it, standbyAsks := sa }, returns := rt } := by
  unfold State.startCopying
  dsimp only
  rw [ha]
  obtain ⟨x, ch, it, sa, rt, h⟩ := State.writePiece_eq (s.onCtm fun m => { m with noFree := true }) { c with
    phase := .copying, q := a.seq - 1,
    members := (s.onCtm fun m => { m with noFree := true }).positions.filter fun p =>
      (s.onCtm fun m => { m with noFree := true }).ckptMember p, piece := 0, crc := crcStart }
  exact ⟨x, _, ch, it, sa, rt, h⟩

/-! ## The end of a checkpoint (R188, R189) -/

/-- The holds and the pauses lifted: only the streams' holds change among the streams (R188, step 6). -/
theorem State.resume_eq (s : State) : ∃ ss, s.resume = { s with
    ing := { s.ing with streams := ss }, oru := { s.oru with paused := false, finishing := false },
    ctm := { s.ctm with noOpen := false, noFree := false } } := by
  obtain ⟨ss, h⟩ := State.each_modStream_frame (fun _ t => { t with held := false }) (List.range 8) s
  unfold State.resume
  rw [h]
  exact ⟨ss, rfl⟩

/-- A checkpoint whose quarantine is released and whose headers have come back good has ended well (R189). -/
theorem exec_checkpointEnd_of_good {s : State} {c : Ckpt} (hc : s.ckr.ckpt = some c) (hb : s.headersBack c = true)
    (hg : 0 < s.headersGood) (hok : ∀ r ∈ s.returned (fun j => j = .ckptHeader), r.result ≠ .error) :
    exec .checkpointEnd s = .next ((s.dropReturned fun j => j = .ckptHeader).ckptSucceeds
      { c with headersWritten := s.headersGood }) := by
  change execCheckpointEnd s = _
  unfold execCheckpointEnd
  rw [hc]
  dsimp only
  rw [if_pos hb]
  unfold State.headersDone
  dsimp only
  rw [State.failWriters_of_good hok, show (s.dropReturned fun j => j = .ckptHeader).ckr.ckpt = some c from hc]
  exact congrArg Host.Outcome.next (if_neg (Nat.ne_of_gt hg))

theorem State.arrayUp_marker {s : State} {a : ArrayRec} {m : RegionMap} (ha : s.arr = some a) (hm : s.mec.map = some m)
    (st : ArrayState) : ∃ fs i x g, s.arrayUp st = { s with
      ctm := { s.ctm with state := st }, lnk := s.lnk.raised slotArray fs,
      mec := { s.mec with
        marker := some { number := a.number, buckets := m.buckets, containers := m.containers, pool := m.pool } },
      pwc := { s.pwc with bayLampsDriven := true }, ing := i, idx := x, igu := g } := by
  unfold State.arrayUp
  dsimp only
  rw [show ((s.onCtm fun x => { x with state := st }).noticeArray .state).arr = some a from ha,
    show ((s.onCtm fun x => { x with state := st }).noticeArray .state).mec.map = some m from hm]
  exact ⟨_, _, _, _, rfl⟩

theorem formingRuns_ends (s : State) (f : Forming) (c : Ckpt) (a : ArrayRec) (m : RegionMap) (hc : s.ckr.ckpt = some c)
    (hwhy : c.why = .forming) (hrel : c.released = true) (hb : s.headersBack c = true) (hg : 0 < s.headersGood)
    (hform : s.ckr.form = some f) (ha : s.arr = some a)
    (hok : ∀ r ∈ s.returned (fun j => j = .ckptHeader), r.result ≠ .error) (hm : s.mec.map = some m) :
    Completes .checkpointEnd s fun t =>
      t.ctm.state = .normal ∧ t.ckr = { s.ckr with slot := some c.slot, seq := c.seq, q := c.q, op := .none,
                                                   ckpt := none, form := none } ∧
      t.mec.marker = some { number := a.number, buckets := m.buckets, containers := m.containers, pool := m.pool } ∧
      t.pwc.bayLampsDriven = true ∧ t.lnk.notices[2].isSome = true ∧ t.tables = s.tables ∧
      t.lnk.replyQueue = (s.lnk.answered (.formArray f.tag 0 0 [] 0) (ownerReply f.tag 0x18 .ok
        [⟨4, a.number⟩, ⟨4, a.reserved⟩, ⟨4, a.containers⟩, ⟨4, m.pool⟩])).replyQueue := by
  have hexec := exec_checkpointEnd_of_good hc hb hg hok
  unfold State.ckptSucceeds at hexec
  dsimp only at hexec
  rw [if_pos hrel, hwhy] at hexec
  dsimp only at hexec
  generalize hu : (s.dropReturned fun j => j = .ckptHeader).onCkr (fun k =>
    { k with slot := some c.slot, seq := c.seq, q := c.q, op := .none, ckpt := none }) = u at hexec
  obtain ⟨ss, hresume⟩ := u.resume_eq
  generalize hv : u.resume = v at hexec hresume
  generalize hw : (v.onCkr fun k => { k with op := .none, form := none }) = w
  have harr : w.arr = some a := by rw [← hw, hresume, ← hu]; exact ha
  obtain ⟨fs, i, x, g, hup⟩ := State.arrayUp_marker (s := w) (m := m) harr (by rw [← hw, hresume, ← hu]; exact hm) .normal
  have hend : v.formEnd = (w.arrayUp .normal).answer f.tag kindFormArray .ok
      [⟨4, a.number⟩, ⟨4, a.reserved⟩, ⟨4, a.containers⟩, ⟨4, m.pool⟩] := by
    have harr' : (w.arrayUp .normal).arr = some a := by rw [hup]; exact harr
    unfold State.formEnd
    rw [show v.ckr.form = some f by rw [hresume, ← hu]; exact hform]
    dsimp only
    unfold State.reserved State.containerCount
    rw [hw, harr', show (w.arrayUp .normal).mec.map = some m by rw [hup, ← hw, hresume, ← hu]; exact hm]
    rfl
  rw [hend, State.answer_eq, hup] at hexec
  refine ⟨_, hexec, rfl, ?_, rfl, rfl, Lnk.isSome_raised_array _ _, ?_, ?_⟩
  all_goals
    rw [← hw, hresume, ← hu]
    rfl

theorem State.formArray_of_barred {s : State} (hf : s.ctm.state ≠ .failed) (h : s.mayAttach = false) {tag n count buckets : Nat}
    {bays : List Nat} : s.formArray tag n count bays buckets = s.refuse tag kindFormArray .wrongState := by
  unfold State.formArray
  rw [if_neg hf, h]
  exact if_pos rfl

/-- Settles O57. -/
theorem formingRuns : Obligations.FormingRuns := by
  unfold Obligations.FormingRuns
  refine ⟨formingRuns_begins, fun s tag n count buckets bays hf h => ?_, formingRuns_sizes,
    fun s f a hform hstage hback hok ha => ?_, formingRuns_ends⟩
  · have hno : s.mayAttach = false := Bool.eq_false_iff.2 fun hc => by
      obtain ⟨hbox, hu, hmec⟩ := State.mayAttach_iff.1 hc
      exact h.elim (fun hn => hn hu) fun h => h.elim (fun hn => hn hbox) fun hn => hn hmec
    exact congrArg Host.Outcome.next ((State.formArray_of_barred (s := s.taken (.formArray tag n count bays buckets)) hf hno).trans
      (State.taken_refuse ..))
  · generalize hu : ((s.dropReturned isFormJob).onCkr fun k => { k with form := some { f with stage := .slot } }) = u
    have hexec : exec .formLabelsWritten s = .next (u.startCopying (u.newCkpt .forming .copying)) := by
      change execFormLabelsWritten s = _
      unfold execFormLabelsWritten
      rw [hform]
      dsimp only
      rw [if_pos ⟨hstage, hback⟩, State.failWriters_of_good hok,
        if_neg (by rw [show (s.dropReturned isFormJob).ckr.form = some f from hform]; exact Bool.noConfusion), hu]
    obtain ⟨x, ms, ch, it, sa, rt, hcopy⟩ := State.startCopying_eq (s := u) (a := a) (by rw [← hu]; exact ha)
      (u.newCkpt .forming .copying)
    rw [hcopy] at hexec
    refine ⟨_, hexec, ?_, ?_, ?_, ?_, ?_⟩
    all_goals
      rw [← hu]
      rfl

/-! ## Streams, one after another -/

theorem State.stream_modStream_same {s : State} {i : Nat} (hi : i < 8) (f : Stream → Stream) :
    (s.modStream i f).stream i = f (s.stream i) := State.stream_setStream_same hi _

theorem State.stream_modStream_other {s : State} {i j : Nat} (h : j ≠ i) (f : Stream → Stream) :
    (s.modStream i f).stream j = s.stream j := State.stream_setStream_other h _

theorem State.stream_each_modStream (f : Stream → Stream) (is : List Nat) : ∀ s : State, is.Nodup →
    (∀ j ∉ is, (s.each is fun s i => s.modStream i f).stream j = s.stream j) ∧
      ∀ i ∈ is, i < 8 → (s.each is fun s i => s.modStream i f).stream i = f (s.stream i) := by
  induction is with
  | nil => exact fun s _ => ⟨fun _ _ => rfl, fun i hi => absurd hi List.not_mem_nil⟩
  | cons i is ih =>
    intro s hnodup
    obtain ⟨hnot, hnodup⟩ := List.nodup_cons.1 hnodup
    obtain ⟨hout, hin⟩ := ih (s.modStream i f) hnodup
    refine ⟨fun j hj => ?_, fun j hj hj8 => ?_⟩
    · exact (hout j fun h => hj (List.mem_cons_of_mem _ h)).trans
        (State.stream_modStream_other (fun h => hj (by rw [h]; exact List.mem_cons_self)) f)
    · rcases List.mem_cons.1 hj with rfl | hj
      · exact (hout j hnot).trans (State.stream_modStream_same hj8 f)
      · exact (hin j hj hj8).trans (congrArg f (State.stream_modStream_other
          (fun h => hnot (by rw [← h]; exact hj)) f))

theorem State.stream_each_all {s : State} (f : Stream → Stream) {i : Nat} (hi : i < 8) :
    (s.each (List.range 8) fun s i => s.modStream i f).stream i = f (s.stream i) :=
  (State.stream_each_modStream f (List.range 8) s List.nodup_range).2 i (List.mem_range.2 hi) hi

/-! ## The request, and the quiet (R188) -/

theorem State.checkpoint_of_attached {s : State} (ha : s.ctm.state.attached = true) (hb : s.pwc.box = .run) (tag : Nat) :
    s.checkpoint tag = if s.ckr.ckpt.isSome then s.refuse tag kindCheckpoint .busy else s.startCheckpoint (.request tag) := by
  unfold State.checkpoint
  rw [if_neg (by intro hf; rw [hf] at ha; exact Bool.noConfusion ha), if_neg (fun h => h hb),
    if_neg (by rw [ha]; exact Bool.noConfusion)]

theorem State.writePartial_of_free {s : State} {i : Nat} (h : s.stream i = Stream.freeRecord) : s.writePartial i = s := by
  unfold State.writePartial
  dsimp only
  rw [h]
  exact if_neg fun hc => Bool.noConfusion hc.1

theorem State.heldQuiet_of_free {s : State} (h : ∀ i < 8, s.stream i = Stream.freeRecord) : s.heldQuiet = true :=
  List.all_eq_true.2 fun i hi => by
    rw [h i (List.mem_range.1 hi)]
    rfl

/-- Nothing of a checkpoint's holds is awaited when no stream is open, no hold is listed, and no placement waits (R188). -/
theorem State.readyToSealCkpt_of_free {s : State} (h : ∀ i < 8, s.stream i = Stream.freeRecord) (hp : s.oru.paused = true)
    (hf : s.oru.finishing = false) (hh : s.tables.holds = []) (hr : s.ctm.recordReqs = []) (hw : s.ctm.waiting = [])
    (hl : s.ctm.reloc = none) : s.readyToSealCkpt = true := by
  have hall : ((List.range 8).all fun i => (s.stream i).queue.all (fun r => !r.placing s.ctm.checkpointNeeded) &&
      (!((s.stream i).held && (s.stream i).active) || (s.stream i).recipe.isEmpty ||
        ((s.stream i).writingOut && s.ctm.checkpointNeeded))) = true := List.all_eq_true.2 fun i hi => by
    rw [h i (List.mem_range.1 hi)]
    rfl
  unfold State.readyToSealCkpt
  dsimp only
  rw [State.heldQuiet_of_free h, hp, hf, hh, hr, hw, hl, hall]
  cases s.ctm.checkpointNeeded <;> rfl

theorem checkpointRuns_quiet (s : State) (c : Ckpt) (hc : s.ckr.ckpt = some c) (hph : c.phase = .holding)
    (h : ∀ i < 8, s.stream i = Stream.freeRecord) (hp : s.oru.paused = false) (hf : s.oru.finishing = false)
    (hwr : s.oru.walkRead = .idle) (hh : s.tables.holds = []) (hr : s.ctm.recordReqs = []) (hw : s.ctm.waiting = [])
    (hl : s.ctm.reloc = none) :
    exec .checkpointQuiet s = .next { s with
      oru := { s.oru with paused := true },
      ckr := { s.ckr with ckpt := some { c with phase := .sealing } },
      ctm := { s.ctm with sealReqs := s.ctm.sealReqs ++ [.checkpoint] } } := by
  have hparts : (s.each (List.range 8) fun s i => s.writePartial i) = s :=
    State.each_of_eq fun i hi => State.writePartial_of_free (h i (List.mem_range.1 hi))
  have hpause : s.pauseWalks = { s with oru := { s.oru with paused := true } } := by
    unfold State.pauseWalks
    rw [if_neg (by rw [hp]; exact Bool.noConfusion)]
    show ({ s with oru := { s.oru with paused := true, finishing := s.oru.finishing || decide (s.oru.walkRead ≠ .idle) } } :
      State) = _
    rw [hwr, show decide (SegRead.idle ≠ .idle) = false from rfl, Bool.or_false]
  change execCheckpointQuiet s = _
  unfold execCheckpointQuiet
  rw [hc]
  dsimp only
  rw [if_pos ⟨hph, State.heldQuiet_of_free h⟩, hparts, hpause]
  rw [show State.ckr { s with oru := { s.oru with paused := true } } = s.ckr from rfl, hc]
  dsimp only
  rw [if_pos (State.readyToSealCkpt_of_free (by exact h) rfl (by exact hf) (by exact hh) (by exact hr) (by exact hw)
    (by exact hl))]
  rfl

/-! ## A piece written on a member (R189) -/

theorem exec_checkpointUnitWritten_of_last {s : State} {c : Ckpt} {p : Nat} {r : Returned} {bs : List Byte}
    (hc : s.ckr.ckpt = some c) (hph : c.phase = .copying) (hout : c.out = [p]) (hre : c.retake = false) (hok : r.result = .ok bs)
    (hr : (s.returns.find? fun r => r.op.job = .ckptBody && r.position = p) = some r) :
    exec (.checkpointUnitWritten p) s = .next (({ s with returns := s.returns.erase r } : State).pieceBack c p true) := by
  have hmay : s.mayTakeUnit c p = true := by
    unfold State.mayTakeUnit
    rw [hph, hout, hre]
    simp
  change execCheckpointUnitWritten p s = _
  unfold execCheckpointUnitWritten
  rw [hc, hr]
  dsimp only
  rw [hmay, if_pos rfl, State.failWriters_of_good (by
    intro x hx
    rw [List.mem_singleton.1 hx, hok]
    exact OpResult.noConfusion)]
  rw [show State.ckr { s with returns := s.returns.erase r } = s.ckr from rfl, hc, hok]
  rfl

theorem State.writeHeader_eq (s : State) (c : Ckpt) (p : Nat) : ∃ ch it sa rt, s.writeHeader c p = { s with
    ckr := { s.ckr with ckpt := some { c with headersOut := c.headersOut ++ [p] } },
    chans := ch, pwc := { s.pwc with idleTimers := it, standbyAsks := sa }, returns := rt } :=
  State.submit_frame (s.onCkr fun k => { k with ckpt := some { c with headersOut := c.headersOut ++ [p] } }) p _

/-- The last member's write of a piece: the header follows on the member after the last piece, and the next piece is written
otherwise (R189). -/
theorem State.pieceBack_of_alone {s : State} {c : Ckpt} {p : Nat} (hout : c.out = [p]) (hre : c.retake = false) :
    s.pieceBack c p true = if s.lastPiece c = true then
        (s.onCkr fun k => { k with ckpt := some { c with out := [] } }).writeHeader { c with out := [] } p
      else (s.onCkr fun k => { k with ckpt := some { c with out := [] } }).writePiece { c with out := [], piece := c.piece + 1 } := by
  have hnone : c.out.filter (fun q => q ≠ p) = [] := by rw [hout]; simp
  unfold State.pieceBack
  dsimp only
  rw [if_pos rfl, hnone]
  by_cases hlast : s.lastPiece c = true
  · rw [if_pos hlast]
    exact (if_pos ⟨hlast, hre⟩).trans (if_pos rfl)
  · rw [if_neg hlast]
    refine (if_neg fun hc => hlast hc.1).trans ?_
    exact (if_pos rfl).trans (if_neg (by rw [hre]; exact Bool.noConfusion))

theorem checkpointRuns_piece (s : State) (c : Ckpt) (p : Nat) (r : Returned) (bs : List Byte) (hc : s.ckr.ckpt = some c)
    (hph : c.phase = .copying) (hout : c.out = [p]) (hre : c.retake = false) (hok : r.result = .ok bs)
    (hr : (s.returns.find? fun r => r.op.job = .ckptBody && r.position = p) = some r) :
    Completes (.checkpointUnitWritten p) s fun t =>
      (s.lastPiece c = false → (t.ckr.ckpt.map fun x => (x.piece, x.out)) = some (c.piece + 1, c.members)) ∧
      (s.lastPiece c = true →
        t.ckr.ckpt = some { c with out := [], headersOut := c.headersOut ++ [p] }) ∧
      t.ckr.slot = s.ckr.slot ∧ t.tables = s.tables ∧ t.ctm = s.ctm ∧ t.mem = s.mem := by
  have hexec := exec_checkpointUnitWritten_of_last hc hph hout hre hok hr
  generalize hu : ({ s with returns := s.returns.erase r } : State) = u at hexec
  have hlast : u.lastPiece c = s.lastPiece c := by rw [← hu]; rfl
  rw [State.pieceBack_of_alone hout hre, hlast] at hexec
  cases hl : s.lastPiece c with
  | true =>
    rw [hl, if_pos rfl] at hexec
    obtain ⟨ch, it, sa, rt, hframe⟩ := State.writeHeader_eq (u.onCkr fun k => { k with ckpt := some { c with out := [] } })
      { c with out := [] } p
    rw [hframe] at hexec
    refine ⟨_, hexec, fun h => Bool.noConfusion h, fun _ => rfl, ?_, ?_, ?_, ?_⟩
    all_goals
      rw [← hu]
      rfl
  | false =>
    rw [hl, if_neg Bool.false_ne_true] at hexec
    obtain ⟨x, ch, it, sa, rt, hframe⟩ := State.writePiece_eq (u.onCkr fun k => { k with ckpt := some { c with out := [] } })
      { c with out := [], piece := c.piece + 1 }
    rw [hframe] at hexec
    refine ⟨_, hexec, fun _ => rfl, fun h => Bool.noConfusion h, ?_, ?_, ?_, ?_⟩
    all_goals
      rw [← hu]
      rfl

/-! ## The request, the copy, the quarantine and the end -/

theorem checkpointRuns_request (s : State) (tag : Nat) (ha : s.ctm.state.attached = true) (hb : s.pwc.box = .run)
    (hc : s.ckr.ckpt = none) :
    Completes (.checkpoint tag) s fun t =>
      t.ckr.op = .checkpoint ∧
      (t.ckr.ckpt.map fun c => (c.why, c.phase, c.slot, c.seq)) =
        some (.request tag, .holding, (s.ckr.slot.map Slot.other).getD .a, s.ckr.seq + 1) ∧
      (∀ i < 8, t.stream i = { s.stream i with held := (s.stream i).active }) ∧
      t.lnk = s.lnk.handedOver (.checkpoint tag) ∧ t = { s with lnk := t.lnk, ckr := t.ckr, ing := t.ing } := by
  generalize hu : s.taken (.checkpoint tag) = u
  have hexec : exec (.checkpoint tag) s = .next (u.startCheckpoint (.request tag)) := by
    have h := State.checkpoint_of_attached (s := s.taken (.checkpoint tag)) ha hb tag
    rw [show (s.taken (.checkpoint tag)).ckr.ckpt = none from hc, if_neg (by exact Bool.noConfusion), hu] at h
    rw [← h, ← hu]
    rfl
  have hstream : ∀ i < 8, (u.startCheckpoint (.request tag)).stream i =
      { u.stream i with held := (u.stream i).active } := fun i hi =>
    State.stream_each_all (s := u.onCkr fun k => { k with op := .checkpoint, ckpt := some (u.newCkpt (.request tag) .holding) })
      (fun t => { t with held := t.active }) hi
  obtain ⟨ss, hstart⟩ := u.startCheckpoint_eq (.request tag)
  refine ⟨_, hexec, ?_, ?_, fun i hi => (hstream i hi).trans ?_, ?_, ?_⟩
  · rw [hstart]
  · rw [hstart, ← hu]
    rfl
  · rw [← hu]
    rfl
  all_goals
    rw [hstart, ← hu]
    rfl

theorem checkpointRuns_sealed (s : State) (c : Ckpt) (a : ArrayRec) (hc : s.ckr.ckpt = some c) (hph : c.phase = .sealing)
    (hd : s.sealDone .checkpoint = true) (ha : s.arr = some a) :
    Completes .checkpointSealed s fun t =>
      (t.ckr.ckpt.map fun x => (x.why, x.phase, x.slot, x.seq, x.q, x.piece)) =
        some (c.why, .copying, c.slot, c.seq, a.seq - 1, 0) ∧
      t.ctm = { s.ctm with noFree := true } ∧ t.tables = s.tables ∧ t.mem = s.mem := by
  obtain ⟨x, ms, ch, it, sa, rt, hcopy⟩ := State.startCopying_eq ha c
  have hexec : exec .checkpointSealed s = .next (s.startCopying c) := by
    change execCheckpointSealed s = _
    unfold execCheckpointSealed
    rw [hc]
    exact congrArg Host.Outcome.next (if_pos ⟨hph, hd⟩)
  rw [hcopy] at hexec
  exact ⟨_, hexec, rfl, rfl, rfl, rfl⟩

theorem checkpointRuns_quarantine (s : State) (c : Ckpt) (hc : s.ckr.ckpt = some c) (hrel : c.released = false)
    (hb : s.headersBack c = true) (hg : 0 < s.headersGood) (hd : s.ctm.deferred = []) :
    exec .quarantineRelease s = .next { s with
      tables := s.tables.setLists (s.tables.freeList ++ s.tables.quarantine) [],
      ctm := { s.ctm with checkpointNeeded := false, noOpen := false, noFree := false, deferred := [] },
      ckr := { s.ckr with slot := some c.slot, seq := c.seq, q := c.q,
                          ckpt := some { c with released := true, headersWritten := s.headersGood } } } := by
  have hrelease : s.releaseQuarantine = { s with
      tables := s.tables.setLists (s.tables.freeList ++ s.tables.quarantine) [],
      ctm := { s.ctm with checkpointNeeded := false, noOpen := false, noFree := false, deferred := [] } } := by
    unfold State.releaseQuarantine
    rw [hd]
    rfl
  change execQuarantineRelease s = _
  unfold execQuarantineRelease
  rw [hc]
  dsimp only
  rw [if_pos ⟨hrel, hb, hg⟩, hrelease]
  rfl

theorem State.resume_stream {s : State} {i : Nat} (hi : i < 8) : s.resume.stream i = { s.stream i with held := false } := by
  have h := State.stream_each_all (s := s) (fun t => { t with held := false }) hi
  unfold State.resume
  generalize (s.each (List.range 8) fun s i => s.modStream i fun t => { t with held := false }) = w at h ⊢
  exact h

theorem checkpointRuns_ends (s : State) (c : Ckpt) (tag : Nat) (hc : s.ckr.ckpt = some c) (hwhy : c.why = .request tag)
    (hrel : c.released = true) (hb : s.headersBack c = true) (hg : 0 < s.headersGood)
    (hok : ∀ r ∈ s.returned (fun j => j = .ckptHeader), r.result ≠ .error) :
    Completes .checkpointEnd s fun t =>
      t.ckr = { s.ckr with slot := some c.slot, seq := c.seq, q := c.q, op := .none, ckpt := none } ∧
      t.oru = { s.oru with paused := false, finishing := false } ∧
      t.ctm = { s.ctm with noOpen := false, noFree := false } ∧
      (∀ i < 8, t.stream i = { s.stream i with held := false }) ∧ t.tables = s.tables ∧
      t.lnk.replyQueue = (s.lnk.answered (.checkpoint tag) (ownerReply tag 0x1A .ok
        [⟨1, c.slot.code⟩, ⟨6, c.seq⟩, ⟨6, c.q⟩, ⟨1, s.headersGood⟩])).replyQueue := by
  have hexec := exec_checkpointEnd_of_good hc hb hg hok
  unfold State.ckptSucceeds at hexec
  dsimp only at hexec
  rw [if_pos hrel, hwhy] at hexec
  dsimp only at hexec
  generalize hu : (s.dropReturned fun j => j = .ckptHeader).onCkr (fun k =>
    { k with slot := some c.slot, seq := c.seq, q := c.q, op := .none, ckpt := none }) = u at hexec
  have hstream : ∀ i < 8, u.resume.stream i = { u.stream i with held := false } := fun i hi => State.resume_stream hi
  obtain ⟨ss, hresume⟩ := u.resume_eq
  generalize hv : u.resume = v at hexec hresume hstream
  unfold State.answerCheckpoint at hexec
  rw [State.answer_eq] at hexec
  refine ⟨_, hexec, ?_, ?_, ?_, fun i hi => (hstream i hi).trans ?_, ?_, ?_⟩
  case refine_4 =>
    rw [← hu]
    rfl
  all_goals
    rw [hresume, ← hu]
    rfl

/-- Settles O58. -/
theorem checkpointRuns : Obligations.CheckpointRuns := by
  unfold Obligations.CheckpointRuns
  refine ⟨checkpointRuns_request, fun s tag ha hb hc => ?_, checkpointRuns_quiet, checkpointRuns_sealed, checkpointRuns_piece,
    checkpointRuns_quarantine, checkpointRuns_ends⟩
  have h := State.checkpoint_of_attached (s := s.taken (.checkpoint tag)) ha hb tag
  exact congrArg Host.Outcome.next ((h.trans (if_pos hc)).trans (State.taken_refuse ..))

end Sys2Proof.Machine

/-! # Proofs: Attach up to its loaded tables -/

namespace Sys2Proof.Machine

/-! ## The labels asked for (R190, step 1) -/

/-- Channels bound each to the bay of its own number (R190, step 1). -/
theorem State.chan_each_attachBind {s : State} {bays : List Nat} (hnodup : bays.Nodup) {p : Nat} (hp : p < 4) :
    (∀ k, ((s.each bays fun s b => s.bind b (some b) (Member.joins .off)).chan p).queue k = (s.chan p).queue k ∧
      ((s.each bays fun s b => s.bind b (some b) (Member.joins .off)).chan p).waitingFor k = (s.chan p).waitingFor k) ∧
    (p ∈ bays → ((s.each bays fun s b => s.bind b (some b) (Member.joins .off)).chan p).bay = some p ∧
      (s.each bays fun s b => s.bind b (some b) (Member.joins .off)).member p = .off) := by
  obtain ⟨hout, hin⟩ := State.chan_each (f := fun s b => s.bind b (some b) (Member.joins .off))
    (fun s p q h => State.chan_bind_other h _ _) bays s hnodup
  unfold State.member
  by_cases hmem : p ∈ bays
  · obtain ⟨u, hu, heach⟩ := hin p hmem
    rw [heach, State.chan_bind_same hp, hu]
    exact ⟨fun _ => ⟨rfl, rfl⟩, fun _ => ⟨rfl, rfl⟩⟩
  · rw [hout p hmem]
    exact ⟨fun _ => ⟨rfl, rfl⟩, fun h => absurd h hmem⟩

theorem State.attachArray_of_unformed {s : State} (hu : s.ctm.state = .unformed) (hbox : s.pwc.box = .run)
    (hmec : s.mec.state = .ready) (tag : Nat) : s.attachArray tag = s.beginAttach tag := by
  unfold State.attachArray
  rw [if_neg (by rw [hu]; exact ArrayState.noConfusion),
    if_neg (by rw [State.mayAttach_iff.2 ⟨hbox, hu, hmec⟩]; exact Bool.noConfusion)]

theorem attachRuns_begins (s : State) (tag : Nat) (hu : s.ctm.state = .unformed) (hbox : s.pwc.box = .run)
    (hmec : s.mec.state = .ready) (hempty : ∀ p < 4, (s.chan p).allQueued = []) :
    Completes (.attachArray tag) s fun t =>
      t.ctm = { s.ctm with state := .attaching } ∧ t.ckr.op = .attaching ∧
      (t.ckr.attach.map fun a => (a.tag, a.stage, a.bays, a.warm)) =
        some (tag, .labels, (List.range 4).filter (fun b => (s.bay b).presence.level), false) ∧
      (∀ b < 4, (s.bay b).presence.level = true →
        (t.chan b).bay = some b ∧ t.member b = .off ∧ (t.chan b).spinupAsked = true) ∧
      t.lnk.replyQueue = s.lnk.replyQueue ∧ t.tables = s.tables ∧ t.mem = s.mem := by
  generalize hbays : (List.range 4).filter (fun b => (s.bay b).presence.level) = bays
  have hnodup : bays.Nodup := by rw [← hbays]; exact List.nodup_range.filter _
  have hlt : ∀ p ∈ bays, p < 4 := fun p hp => by
    rw [← hbays] at hp
    exact List.mem_range.1 (List.mem_filter.1 hp).1
  have hin : ∀ b < 4, (s.bay b).presence.level = true → b ∈ bays := fun b hb h => by
    rw [← hbays]
    exact List.mem_filter.2 ⟨List.mem_range.2 hb, h⟩
  have hattach := State.attachArray_of_unformed (s := s.taken (.attachArray tag)) hu hbox hmec tag
  generalize hv : ((s.taken (.attachArray tag)).onCtm fun m => { m with state := .attaching }).onCkr (fun k =>
    { k with
      op := .attaching,
      attach := some
        { tag := tag, stage := .labels, bays := bays, usable := [], warm := false, label := none, heads := [], slot := .a,
          seq := 0, otherTried := false, sources := [], whole := [], units := [], scanning := none, rest := [], misses := 0,
          accepted := [], items := [], applied := [], walking := none, directories := [], derived := .unformed,
          figures := Figures.zero } }) = v
  have hexec : exec (.attachArray tag) s = .next ((v.each bays fun s b => s.bind b (some b) (Member.joins .off)).submitAll
      (bays.map fun p => (p, labelReadOp .labelRead))) := by
    refine congrArg Host.Outcome.next (hattach.trans ?_)
    rw [← hv, ← hbays]
    rfl
  obtain ⟨ch, ns, hbinds⟩ := State.bindsOnly_each (f := fun s b => s.bind b (some b) (Member.joins .off))
    (fun s p => s.bindsOnly_bind ..) bays v
  have hbound := fun p (hp : p < 4) => State.chan_each_attachBind (s := v) hnodup hp
  generalize hw : (v.each bays fun s b => s.bind b (some b) (Member.joins .off)) = w at hexec hbinds hbound
  have hall := State.submitAll_labelRead (s := w) (j := .labelRead) hnodup hlt
    (by rw [hbinds, ← hv]; exact ArrayState.noConfusion)
    (fun p hp k => by
      obtain ⟨hq, hwait⟩ := (hbound p hp).1 k
      rw [hq, hwait, ← hv]
      exact Channel.empty_of_allQueued (hempty p hp) k)
    (fun p hp => ((hbound p (hlt p hp)).2 hp).2)
  obtain ⟨ch', it, sa, rt, hframe⟩ := w.submitAll_frame (bays.map fun p => (p, labelReadOp .labelRead))
  refine ⟨_, hexec, ?_, ?_, ?_, fun b hb hpres => ?_, ?_, ?_, ?_⟩
  case refine_4 =>
    obtain ⟨hbay, hm, -, hasks⟩ := hall b (hin b hb hpres)
    exact ⟨hbay.trans ((hbound b hb).2 (hin b hb hpres)).1, hm, hasks⟩
  all_goals
    rw [hframe, hbinds, ← hv]
    rfl

/-! ## What positions bound, dropped or unbound can change -/

/-- What changes of channels, bays and members can change: the channels, the notices, and PWC's record. -/
def State.portsOnly (s t : State) : Prop :=
  ∃ ch ns pw, t = { s with chans := ch, lnk := { s.lnk with notices := ns }, pwc := pw }

theorem State.portsOnly_refl (s : State) : s.portsOnly s := ⟨s.chans, s.lnk.notices, s.pwc, rfl⟩

theorem State.portsOnly.trans {s t u : State} (h : s.portsOnly t) (h' : t.portsOnly u) : s.portsOnly u := by
  obtain ⟨ch, ns, pw, rfl⟩ := h
  obtain ⟨ch', ns', pw', rfl⟩ := h'
  exact ⟨ch', ns', pw', rfl⟩

theorem State.portsOnly_each {f : State → Nat → State} (hf : ∀ (s : State) (p : Nat), s.portsOnly (f s p)) (ps : List Nat) :
    ∀ s : State, s.portsOnly (s.each ps f) := by
  induction ps with
  | nil => exact State.portsOnly_refl
  | cons p ps ih => exact fun s => (hf s p).trans (ih (f s p))

theorem State.portsOnly_onPwc (s : State) (f : Pwc → Pwc) : s.portsOnly (s.onPwc f) := ⟨s.chans, s.lnk.notices, _, rfl⟩

theorem State.portsOnly_modChan (s : State) (p : Nat) (f : Channel → Channel) : s.portsOnly (s.modChan p f) :=
  ⟨_, s.lnk.notices, s.pwc, rfl⟩

theorem State.portsOnly_bayOff (s : State) (b : Nat) : s.portsOnly (s.bayOff b) := ⟨s.chans, s.lnk.notices, _, rfl⟩

theorem State.portsOnly_noticeMember (s : State) (p : Nat) : s.portsOnly (s.noticeMember p) := ⟨s.chans, _, s.pwc, rfl⟩

theorem State.portsOnly_idleUpdate (s : State) (p : Nat) : s.portsOnly (s.idleUpdate p) := by
  obtain ⟨ch, it, sa, h⟩ := s.idleUpdate_frame p
  exact ⟨ch, s.lnk.notices, _, h⟩

theorem State.portsOnly_limitFalls (s : State) : s.portsOnly s.limitFalls := by
  unfold State.limitFalls
  split
  · exact s.portsOnly_onPwc _
  · exact s.portsOnly_refl

theorem State.portsOnly_setMember (s : State) (p : Nat) (m : MemberState) : s.portsOnly (s.setMember p m) :=
  ((s.portsOnly_modChan p _).trans (State.portsOnly_noticeMember _ p)).trans (State.portsOnly_idleUpdate _ p)

theorem State.portsOnly_bind (s : State) (p : Nat) (bay : Option Nat) (m : Member) : s.portsOnly (s.bind p bay m) := by
  obtain ⟨ch, ns, h⟩ := s.bindsOnly_bind p bay m
  exact ⟨ch, ns, s.pwc, h⟩

theorem State.portsOnly_spinStart (s : State) (e : SpinEntry) : s.portsOnly (s.spinStart e) := by
  unfold State.spinStart
  refine State.portsOnly.trans ?_ (State.portsOnly_setMember _ _ _)
  split
  · split
    · exact ⟨s.chans, s.lnk.notices, _, rfl⟩
    · exact s.portsOnly_onPwc _
  · exact s.portsOnly_onPwc _

theorem State.portsOnly_spinTest (n : Nat) : ∀ s : State, s.portsOnly (s.spinTest n) := by
  induction n with
  | zero => exact State.portsOnly_refl
  | succ n ih =>
    intro s
    unfold State.spinTest
    split
    · exact s.portsOnly_refl
    · split
      · exact ((s.portsOnly_onPwc _).trans (State.portsOnly_spinStart _ _)).trans (ih _)
      · exact s.portsOnly_refl

theorem State.portsOnly_spinChanged (s : State) : s.portsOnly s.spinChanged :=
  s.portsOnly_limitFalls.trans (State.portsOnly_spinTest 4 _)

theorem State.portsOnly_submitAll (s : State) (os : List (Nat × Op)) :
    ∃ ch pw rt, s.submitAll os = { s with chans := ch, pwc := pw, returns := rt } := by
  obtain ⟨ch, it, sa, rt, h⟩ := s.submitAll_frame os
  exact ⟨ch, _, rt, h⟩

/-! ## The slot chosen (R191) -/

theorem attachRuns_headers (s : State) (a x : Attach) (l : Label) (e : Bool × Nat) (h : SlotHeader) (p : Nat) (ps : List Nat)
    (ha : s.ckr.attach = some a) (hstage : a.stage = .headers) (hback : s.stillOut isHeaderJob = false)
    (hl : a.label = some l) (hwarm : a.warm = false) (hx : x = { a with heads := headsRead (s.returned isHeaderJob) l })
    (he : highest (x.held [false, true]) = some e) (hh : x.headerOf (slotOf e.1) e.2 = some h)
    (hps : x.holders e.1 e.2 = p :: ps) :
    Completes .slotHeadersRead s fun t =>
      t.ckr.attach = some { x with stage := .body, slot := slotOf e.1, seq := e.2, sources := p :: ps,
                                   whole := p :: ps, units := [] } ∧
      t.tables = s.tables ∧ t.ctm = s.ctm := by
  rw [hl] at hx
  generalize hu : (s.dropReturned isHeaderJob).setAttach x = u
  have hexec : exec .slotHeadersRead s = .next (u.takeHeaders x) := by
    change execSlotHeadersRead s = _
    unfold execSlotHeadersRead
    rw [ha]
    dsimp only
    rw [if_pos ⟨hstage, hback⟩, hl]
    dsimp only
    rw [← hx, hu]
  have htake : u.takeHeaders x = u.readBody { x with whole := p :: ps } (slotOf e.1) e.2 (p :: ps) := by
    unfold State.takeHeaders
    rw [he]
    dsimp only
    rw [if_neg (by rw [hx, hwarm]; exact Bool.noConfusion)]
    unfold State.loadSlot
    rw [hps]
  have hbody : ∃ os, u.readBody { x with whole := p :: ps } (slotOf e.1) e.2 (p :: ps) =
      (u.setAttach { x with stage := .body, slot := slotOf e.1, seq := e.2, sources := p :: ps,
                            whole := p :: ps, units := [] }).submitAll os := by
    unfold State.readBody
    rw [show Attach.headerOf { x with whole := p :: ps } (slotOf e.1) e.2 = some h from hh]
    exact ⟨_, rfl⟩
  obtain ⟨os, hbody⟩ := hbody
  rw [htake, hbody] at hexec
  obtain ⟨ch, it, sa, rt, hframe⟩ := State.submitAll_frame (u.setAttach { x with
    stage := .body, slot := slotOf e.1, seq := e.2, sources := p :: ps, whole := p :: ps, units := [] }) os
  rw [hframe] at hexec
  refine ⟨_, hexec, rfl, ?_, ?_⟩
  all_goals
    rw [← hu]
    rfl

/-! ## The body loaded (R191) -/

theorem State.endScan_of_none {s : State} {a : Attach} (h : a.accepted = []) : s.endScan a =
    (s.onArray fun r => { r with seq := s.ckr.q + 1 }).setAttach { a with
      stage := .apply, scanning := none, rest := [], applied := [], items := [],
      figures := { a.figures with applied := 0 } } := by
  unfold State.endScan
  rw [h]
  rfl

/-- The scan goes on to the next container, or ends: of the tables no more than the array's sequence changes (R192). -/
theorem State.scanNext_of_none {s : State} {a : Attach} (h : a.accepted = []) (hm : a.misses = 0) :
    ∃ ch pw rt ckr, ckr.slot = s.ckr.slot ∧ ckr.seq = s.ckr.seq ∧ ckr.q = s.ckr.q ∧
      (s.scanNext a = { s with chans := ch, pwc := pw, returns := rt, ckr := ckr } ∨
        s.scanNext a = { s.onArray fun r => { r with seq := s.ckr.q + 1 } with ckr := ckr }) := by
  unfold State.scanNext
  cases hr : a.rest with
  | nil =>
    dsimp only
    rw [State.endScan_of_none h]
    refine ⟨s.chans, s.pwc, s.returns, _, ?_, ?_, ?_, .inr rfl⟩
    all_goals rfl
  | cons c rest =>
    dsimp only
    rw [if_neg (by rw [hm]; decide)]
    obtain ⟨ch, pw, rt, hframe⟩ := State.portsOnly_submitAll (s.setAttach { a with stage := .scan, scanning := some c, rest := rest })
      ((s.positions.filter fun p => !s.lostPosition p).map fun p => (p, readOp .read c 0 unitSize .ckr .scanRead))
    refine ⟨ch, pw, rt, _, ?_, ?_, ?_, .inl hframe⟩
    all_goals rfl

/-- With no stale drive no position is dropped. -/
theorem State.dropStale_of_fresh {s : State} {a : Attach} {seq : Nat}
    (h : ∀ p ∈ a.usable, (a.heads.any fun x => x.position = p && x.header.seq = seq) = true) :
    s.dropStale a seq = (s.spinChanged.setAttach a, a) := by
  have hfresh : a.usable.filter (fun p => a.heads.any fun x => x.position = p && x.header.seq = seq) = a.usable :=
    List.filter_eq_self.2 h
  have hstale : a.usable.filter (fun p => !(a.heads.any fun x => x.position = p && x.header.seq = seq)) = [] :=
    List.filter_eq_nil_iff.2 fun p hp => by rw [h p hp]; exact Bool.false_ne_true
  unfold State.dropStale
  dsimp only
  rw [hfresh, hstale]
  rfl

theorem loadedTables_bad (body : List Byte) (l : Label) (h : SlotHeader) : (loadedTables body l h).bad = [] := by
  unfold loadedTables tablesOfBody
  rfl

theorem loadedTables_seq (body : List Byte) (l : Label) (h : SlotHeader) :
    (loadedTables body l h).array.map (fun r => { r with seq := h.q + 1 }) = (loadedTables body l h).array := by
  unfold loadedTables
  rfl

theorem Tables.setArea_array_of_same {t : Tables} (hbad : t.bad = []) {r : Option ArrayRec} (h : r = t.array) :
    t.setArea { t with array := r } = t := by
  unfold Tables.setArea Tables.write
  rw [hbad, h, List.filter_nil, ← hbad]

theorem State.loadBody_of_good {s : State} {a : Attach} {l : Label} {h : SlotHeader} {body : List Byte}
    (hl : a.label = some l) (hpool : s.mec.size.bind (fun m => poolFor m l.buckets l.containers) = some h.pool)
    (hfresh : ∀ p ∈ a.usable, (a.heads.any fun x => x.position = p && x.header.seq = a.seq) = true)
    (henough : l.layout.members ≤ a.usable.length + 1) (hacc : a.accepted = []) :
    (s.loadBody a l h body).tables = loadedTables body l h ∧ (s.loadBody a l h body).inUse = true ∧
      (s.loadBody a l h body).ckr.slot = some a.slot ∧ (s.loadBody a l h body).ckr.seq = a.seq ∧
      (s.loadBody a l h body).ckr.q = h.q ∧
      (s.loadBody a l h body).mec.map = some { buckets := l.buckets, containers := l.containers, pool := h.pool } ∧
      (s.loadBody a l h body).mem = s.mem := by
  have hmap : s.askMap l.buckets l.containers = { s with mec :=
      { s.mec with map := some { buckets := l.buckets, containers := l.containers, pool := h.pool },
                   mapAnswer := some h.pool } } := by
    unfold State.askMap
    rw [hpool]
    rfl
  generalize hv : (({ s with mec :=
      { s.mec with map := some { buckets := l.buckets, containers := l.containers, pool := h.pool },
                   mapAnswer := some h.pool } } : State).tablesWritten (loadedTables body l h)).onCkr
    (fun k => { k with slot := some a.slot, seq := a.seq, q := h.q }) = v
  have hload : s.loadBody a l h body = (v.spinChanged.setAttach a).scanNext { a with
      units := [], rest := v.tables.freeList, misses := 0 } := by
    unfold State.loadBody
    rw [hmap]
    dsimp only
    rw [if_neg (fun hne => hne rfl), hv, State.dropStale_of_fresh hfresh]
    have hmembers : a.members = l.layout.members := by
      unfold Attach.members
      rw [hl]
      rfl
    exact if_neg (by rw [hmembers]; exact Nat.not_lt.2 henough)
  obtain ⟨ch, ns, pw, hspin⟩ := v.portsOnly_spinChanged
  obtain ⟨ch', pw', rt, ckr, hslot, hseq, hq, hnext⟩ := State.scanNext_of_none (s := v.spinChanged.setAttach a)
    (a := { a with units := [], rest := v.tables.freeList, misses := 0 }) hacc rfl
  have hvq : (v.spinChanged.setAttach a).ckr.q = h.q := by rw [hspin, ← hv]; rfl
  rw [hload]
  rw [hvq] at hnext hq
  rw [show (v.spinChanged.setAttach a).ckr.slot = some a.slot by rw [hspin, ← hv]; rfl] at hslot
  rw [show (v.spinChanged.setAttach a).ckr.seq = a.seq by rw [hspin, ← hv]; rfl] at hseq
  have htables : { loadedTables body l h with bad := [] } = loadedTables body l h := by rw [← loadedTables_bad body l h]
  have hvtables : v.tables = loadedTables body l h := by rw [← hv]; exact htables
  rcases hnext with hnext | hnext
  · rw [hnext, hspin]
    refine ⟨hvtables, ?_, hslot, hseq, hq, ?_, ?_⟩
    all_goals
      rw [← hv]
      rfl
  · rw [hnext, hspin]
    refine ⟨?_, ?_, hslot, hseq, hq, ?_, ?_⟩
    · show v.tables.setArea { v.tables with array := v.tables.array.map fun r => { r with seq := h.q + 1 } } = _
      rw [hvtables]
      exact Tables.setArea_array_of_same (loadedTables_bad ..) (loadedTables_seq ..)
    all_goals
      rw [← hv]
      rfl

theorem attachRuns_body (s : State) (a : Attach) (l : Label) (h : SlotHeader) (us : Assoc (List Byte)) (body : List Byte)
    (ha : s.ckr.attach = some a) (hstage : a.stage = .body) (hback : s.stillOut isBodyJob = false) (hl : a.label = some l)
    (hh : a.headerOf a.slot a.seq = some h) (hgood : ∀ r ∈ s.returned isBodyJob, r.result.bytes.isSome = true)
    (hus : us = ((s.returned isBodyJob).filterMap fun r => r.result.bytes.map fun bs => (bodyUnitOf r.op.job, bs)).foldl
      (fun m e => putKey m e.1 e.2) a.units)
    (hbody : body = ((List.range (bodyUnits h.bodyLength)).map fun u => (getKey us u).getD []).flatten.take h.bodyLength)
    (hcrc : crc32 body = h.bodyCrc) (hpool : s.mec.size.bind (fun m => poolFor m l.buckets l.containers) = some h.pool)
    (hfresh : ∀ p ∈ a.usable, (a.heads.any fun x => x.position = p && x.header.seq = a.seq) = true)
    (henough : l.layout.members ≤ a.usable.length + 1) (hacc : a.accepted = []) :
    Completes .slotBodyRead s fun t =>
      t.tables = loadedTables body l h ∧ t.inUse = true ∧
      t.ckr.slot = some a.slot ∧ t.ckr.seq = a.seq ∧ t.ckr.q = h.q ∧
      t.mec.map = some { buckets := l.buckets, containers := l.containers, pool := h.pool } ∧ t.mem = s.mem := by
  have hexec : exec .slotBodyRead s = .next ((s.dropReturned isBodyJob).loadBody { a with units := us } l h body) := by
    change execSlotBodyRead s = _
    unfold execSlotBodyRead
    rw [ha]
    dsimp only
    rw [if_pos ⟨hstage, hback⟩, hl, hh]
    dsimp only
    unfold State.takeBody
    dsimp only
    rw [List.filter_eq_nil_iff.2 (fun r hr => by
      rw [Option.isNone_iff_eq_none]
      exact fun hn => Bool.false_ne_true (by rw [← hgood r hr, hn]; rfl)), ← hus, if_pos (by rfl)]
    unfold State.checkBody
    dsimp only
    rw [← hbody, if_pos hcrc, hl]
  exact ⟨_, hexec, State.loadBody_of_good hl hpool hfresh henough hacc⟩

/-! ## An array unformed (R190) -/

theorem State.each_noticeMember (ps : List Nat) : ∀ s : State, ∃ ns,
    s.each ps (fun s p => s.noticeMember p) = { s with lnk := { s.lnk with notices := ns } } := by
  induction ps with
  | nil => exact fun s => ⟨s.lnk.notices, rfl⟩
  | cons p ps ih =>
    intro s
    obtain ⟨ns, h⟩ := ih (s.noticeMember p)
    exact ⟨ns, h⟩

theorem State.limitFalls_frame (s : State) : ∃ n, s.limitFalls = { s with pwc := { s.pwc with limit := n } } := by
  unfold State.limitFalls
  split
  · exact ⟨_, rfl⟩
  · exact ⟨s.pwc.limit, rfl⟩

/-- Bays switched off one after another: each of them is off, and the channels are as they were. -/
theorem State.each_bayOff (ps : List Nat) : ∀ s : State, ∃ bs,
    s.each ps (fun s b => s.bayOff b) = { s with pwc := { s.pwc with bays := bs } } ∧
      ∀ b < 4, b ∈ ps ∨ (s.bay b).enable = false → ((s.each ps fun s b => s.bayOff b).bay b).enable = false := by
  induction ps with
  | nil => exact fun s => ⟨s.pwc.bays, rfl, fun b _ h => h.resolve_left List.not_mem_nil⟩
  | cons p ps ih =>
    intro s
    obtain ⟨bs, h, hoff⟩ := ih (s.bayOff p)
    refine ⟨bs, h, fun b hb hin => hoff b hb ?_⟩
    by_cases hbp : b = p
    · subst hbp
      exact .inr (by rw [State.bay_bayOff_same hb])
    · refine hin.imp (fun hm => (List.mem_cons.1 hm).resolve_left hbp) fun he => ?_
      rw [show (s.bayOff p).bay b = s.bay b from State.bay_setBay_other hbp _]
      exact he

theorem State.unform_eq (s : State) : ∃ ch ns pw, s.unform = { s with
      chans := ch, pwc := pw, lnk := { s.lnk with notices := ns }, ctm := s.ctm.cleared, oru := s.oru.cleared,
      mec := { s.mec with lent := [], bufferQueue := [] },
      ckr := { s.ckr with slot := none, seq := 0, q := 0, op := .none, ckpt := none, form := none, attach := none },
      inUse := false, returns := [] } ∧
    ∀ p < 4, s.unform.chan p = (s.chan p).unbound p ∧ (s.unform.bay p).enable = false := by
  obtain ⟨-, hchan⟩ := State.chan_each (f := fun s p => s.modChan p fun c => c.unbound p)
    (fun s p q h => State.chan_modChan_other h _) (List.range 4) s List.nodup_range
  obtain ⟨ch, hports⟩ := s.each_modChan_frame (List.range 4) fun p c => c.unbound p
  generalize hu : s.each (List.range 4) (fun s p => s.modChan p fun c => c.unbound p) = u at hports hchan
  obtain ⟨bs, hbays, hoff⟩ := State.each_bayOff (List.range 4) u
  generalize hv : u.each (List.range 4) (fun s b => s.bayOff b) = v at hbays hoff
  obtain ⟨n, hlimit⟩ := (v.onPwc Pwc.quieted).limitFalls_frame
  generalize hw : ((((v.onPwc Pwc.quieted).limitFalls.onCtm Ctm.cleared).onOru Oru.cleared).onMec fun m =>
    { m with lent := [], bufferQueue := [] }).onCkr (fun k =>
      { k with slot := none, seq := 0, q := 0, op := .none, ckpt := none, form := none, attach := none }) = w
  obtain ⟨ns, hnotice⟩ := State.each_noticeMember ((List.range 4).filter fun p => s.member p ≠ .absent) w
  have hunform : s.unform = { w with lnk := { w.lnk with notices := ns }, inUse := false, returns := [] } := by
    unfold State.unform
    dsimp only
    rw [hu, hv, hw, hnotice]
  rw [hunform]
  refine ⟨ch, ns, w.pwc, ?_, fun p hp => ⟨?_, ?_⟩⟩
  · rw [← hw, hlimit, hbays, hports]
    rfl
  · have hchans : w.chans = u.chans := by rw [← hw, hlimit, hbays]; rfl
    obtain ⟨x, hx, hxp⟩ := hchan p (List.mem_range.2 hp)
    show w.chans[p]?.getD _ = _
    rw [hchans]
    refine hxp.trans ?_
    rw [State.chan_modChan_same hp, hx]
  · have hkept : w.pwc.bays = v.pwc.bays := by rw [← hw, hlimit]; rfl
    rw [← hoff p hp (.inl (List.mem_range.2 hp))]
    exact congrArg Bay.enable (State.bay_of_bays (s := v) (t := { w with
      lnk := { w.lnk with notices := ns }, inUse := false, returns := [] }) hkept p)

theorem attachRuns_fails (s : State) (a : Attach) (ha : s.ckr.attach = some a) (hstage : a.stage = .labels)
    (hback : a.bays.length ≤ (s.returned fun j => j = .labelRead).length)
    (hnone : labelsRead (s.returned fun j => j = .labelRead) = []) :
    Completes .attachLabelsRead s fun t =>
      t.ctm.state = .unformed ∧ t.ckr.attach = none ∧ t.ckr.op = .none ∧
      (∀ p < 4, t.member p = .absent ∧ (t.chan p).bay = some p ∧ (t.bay p).enable = false) ∧ t.inUse = false ∧
      t.lnk.replyQueue = (s.lnk.answered (.attachArray a.tag) (ownerReply a.tag 0x19 .badArgument [])).replyQueue := by
  generalize hu : (s.dropReturned fun j => j = .labelRead) = u
  have hexec : exec .attachLabelsRead s = .next (u.unform.refuse a.tag kindAttachArray .badArgument) := by
    change execAttachLabelsRead s = _
    unfold execAttachLabelsRead
    rw [ha]
    dsimp only
    rw [if_pos ⟨hstage, hback⟩, hnone, hu]
    unfold State.takeLabels State.attachFail
    rw [show u.ckr.attach = some a by rw [← hu]; exact ha]
  obtain ⟨ch, ns, pw, hunform, hparts⟩ := u.unform_eq
  rw [State.refuse_eq, State.answer_eq] at hexec
  refine ⟨_, hexec, ?_, ?_, ?_, fun p hp => ?_, ?_, ?_⟩
  · exact congrArg (fun t : State => t.ctm.state) hunform
  · exact congrArg (fun t : State => t.ckr.attach) hunform
  · exact congrArg (fun t : State => t.ckr.op) hunform
  · obtain ⟨hchan, hbay⟩ := hparts p hp
    exact ⟨congrArg (fun c : Channel => c.member.state) hchan, congrArg Channel.bay hchan, hbay⟩
  · exact congrArg State.inUse hunform
  · rw [hunform, ← hu]
    rfl

/-! ## The channels bound by the labels (R190, steps 4 and 5) -/

theorem State.sameMembers_each {f : State → Nat → State} (hf : ∀ (s : State) (p : Nat), s.sameMembers (f s p)) (ps : List Nat) :
    ∀ s : State, s.sameMembers (s.each ps f) := by
  induction ps with
  | nil => exact State.sameMembers.refl
  | cons p ps ih => exact fun s => (hf s p).trans (ih (f s p))

theorem State.sameMembers_of_chans {s t : State} (h : t.chans = s.chans) : s.sameMembers t := fun q => by
  unfold State.chan
  rw [h]
  exact ⟨rfl, rfl⟩

theorem State.sameMembers_limitFalls (s : State) : s.sameMembers s.limitFalls := by
  obtain ⟨n, h⟩ := s.limitFalls_frame
  exact State.sameMembers_of_chans (by rw [h])

/-- The binding of position `p` by the labels read, `was` being the members before. -/
def State.rebindAt (was : Nat → Member) (ls : List (Nat × Label)) (s : State) (p : Nat) : State :=
  match ls.find? fun e => e.2.position = p with
  | some (b, l) => s.bind p (some b) ((was b).rebound l)
  | none => s.bind p none (was p).gone

theorem State.rebindAt_of_label {ls : List (Nat × Label)} {p b : Nat} {l : Label}
    (h : (ls.find? fun e => e.2.position = p) = some (b, l)) (was : Nat → Member) (s : State) :
    s.rebindAt was ls p = s.bind p (some b) ((was b).rebound l) := by
  unfold State.rebindAt
  rw [h]

theorem State.rebindAt_of_none {ls : List (Nat × Label)} {p : Nat} (h : (ls.find? fun e => e.2.position = p) = none)
    (was : Nat → Member) (s : State) : s.rebindAt was ls p = s.bind p none (was p).gone := by
  unfold State.rebindAt
  rw [h]

theorem State.portsOnly_rebindAt (was : Nat → Member) (ls : List (Nat × Label)) (s : State) (p : Nat) :
    s.portsOnly (s.rebindAt was ls p) := by
  unfold State.rebindAt
  split
  · exact s.portsOnly_bind ..
  · exact s.portsOnly_bind ..

theorem State.chan_rebindAt_other (was : Nat → Member) (ls : List (Nat × Label)) (s : State) (p q : Nat) (h : q ≠ p) :
    (s.rebindAt was ls p).chan q = s.chan q := by
  unfold State.rebindAt
  split
  · exact State.chan_bind_other h _ _
  · exact State.chan_bind_other h _ _

/-- After the channels are bound only bays, idle reports and the limit in force change. -/
theorem State.rebind_eq (s : State) (ls : List (Nat × Label)) : ∃ v, s.portsOnly (s.rebind ls) ∧ v.sameMembers (s.rebind ls) ∧
    v = (s.onPwc Pwc.quieted).each (List.range 4) (State.rebindAt (fun b => (s.chan b).member) ls) := by
  refine ⟨_, ?_, ?_, rfl⟩
  · refine State.portsOnly.trans ?_ (State.portsOnly_limitFalls _)
    refine State.portsOnly.trans ?_ (State.portsOnly_each State.portsOnly_idleUpdate _ _)
    refine State.portsOnly.trans ?_ (State.portsOnly_each State.portsOnly_bayOff _ _)
    exact (s.portsOnly_onPwc _).trans (State.portsOnly_each (State.portsOnly_rebindAt (fun b => (s.chan b).member) ls) _ _)
  · refine State.sameMembers.trans ?_ (State.sameMembers_limitFalls _)
    refine State.sameMembers.trans ?_ (State.sameMembers_each State.sameMembers_idleUpdate _ _)
    exact State.sameMembers_each (fun s b => State.sameMembers_of_chans (s := s) (t := s.bayOff b) rfl) _ _

theorem State.chan_rebind {s : State} (ls : List (Nat × Label)) {p : Nat} (hp : p < 4) :
    (∀ b l, (ls.find? fun e => e.2.position = p) = some (b, l) →
      ((s.rebind ls).chan p).bay = some b ∧ (s.rebind ls).member p = ((s.chan b).member.rebound l).state) ∧
    ((ls.find? fun e => e.2.position = p) = none →
      ((s.rebind ls).chan p).bay = none ∧ (s.rebind ls).member p = .absent) := by
  obtain ⟨v, -, hsame, hv⟩ := s.rebind_eq ls
  obtain ⟨u, hu, heach⟩ := (State.chan_each (State.chan_rebindAt_other (fun b => (s.chan b).member) ls) (List.range 4)
    (s.onPwc Pwc.quieted) List.nodup_range).2 p (List.mem_range.2 hp)
  rw [← hv] at heach
  rw [(hsame p).2, hsame.member p]
  unfold State.member
  rw [heach]
  refine ⟨fun b l h => ?_, fun h => ?_⟩
  · rw [State.rebindAt_of_label h, State.chan_bind_same hp]
    exact ⟨rfl, rfl⟩
  · rw [State.rebindAt_of_none h, State.chan_bind_same hp]
    exact ⟨rfl, rfl⟩

theorem Member.rebound_of_good {m : Member} {l : Label} (hl : l.incomplete = false) (hm : m.state ≠ .failed) :
    (m.rebound l).state = .active := by
  unfold Member.rebound
  rw [hl, if_neg Bool.false_ne_true, if_neg hm]
  rfl

theorem Label.agrees_self (l : Label) : l.agrees l = true := by
  unfold Label.agrees
  simp

/-- Labels that agree, of different positions and of this memory, bind their channels (R190). -/
theorem State.takeLabels_of_agreeing {s : State} {a : Attach} {b : Nat} {l : Label} {ls : List (Nat × Label)}
    (hag : (((b, l) :: ls).all fun e => l.agrees e.2) = true) (hpos : (((b, l) :: ls).map fun e => e.2.position).Nodup)
    (hsize : some l.memory = s.mec.size) (hmark : s.mec.marker = none) {us : List Nat}
    (hus : ((List.range 4).filter fun p => (s.rebind ((b, l) :: ls)).member p = .active) = us)
    (henough : l.layout.members ≤ us.length + 1) :
    s.takeLabels a ((b, l) :: ls) =
      ((s.rebind ((b, l) :: ls)).setAttach { a with label := some l, usable := us }).readHeaders
        { a with label := some l, usable := us } := by
  obtain ⟨v, ⟨ch, ns, pw, hports⟩, -, -⟩ := s.rebind_eq ((b, l) :: ls)
  have hcold : ∀ x, ((s.rebind ((b, l) :: ls)).setAttach x).chooseWarm x l = ((s.rebind ((b, l) :: ls)).setAttach x, x) := by
    intro x
    unfold State.chooseWarm
    rw [show ((s.rebind ((b, l) :: ls)).setAttach x).mec.marker = none by rw [hports]; exact hmark]
  unfold State.takeLabels
  dsimp only
  rw [if_neg (fun h => h.elim (fun h => Bool.false_ne_true (h.symm.trans hag)) fun h => h.elim (fun h => h hpos) fun h => h hsize),
    hus, if_neg (Nat.not_lt.2 henough), hcold]

theorem attachRuns_labels (s : State) (a : Attach) (b c : Nat) (l k : Label) (ha : s.ckr.attach = some a)
    (hstage : a.stage = .labels) (hback : a.bays.length ≤ (s.returned fun j => j = .labelRead).length)
    (hls : labelsRead (s.returned fun j => j = .labelRead) = [(b, l), (c, k)]) (hag : l.agrees k = true)
    (hlay : l.layout = .mirror2) (hl0 : l.position = 0) (hk1 : k.position = 1) (hlinc : l.incomplete = false)
    (hkinc : k.incomplete = false) (hsize : some l.memory = s.mec.size) (hmark : s.mec.marker = none)
    (hb : s.member b ≠ .failed) (hc : s.member c ≠ .failed) :
    Completes .attachLabelsRead s fun t =>
      (t.ckr.attach.map fun a => (a.stage, a.label, a.usable, a.warm)) = some (.headers, some l, [0, 1], a.warm) ∧
      t.member 0 = .active ∧ (t.chan 0).bay = some b ∧ t.member 1 = .active ∧ (t.chan 1).bay = some c ∧
      t.member 2 = .absent ∧ (t.chan 2).bay = none ∧ t.member 3 = .absent ∧ (t.chan 3).bay = none ∧
      t.tables = s.tables ∧ t.mem = s.mem := by
  generalize hu : (s.dropReturned fun j => j = .labelRead) = u
  have hfind0 : ([(b, l), (c, k)].find? fun e => e.2.position = 0) = some (b, l) := by simp [hl0]
  have hfind1 : ([(b, l), (c, k)].find? fun e => e.2.position = 1) = some (c, k) := by simp [hl0, hk1]
  have hfind2 : ∀ p, 2 ≤ p → ([(b, l), (c, k)].find? fun e => e.2.position = p) = none := by
    intro p hp
    simp only [List.find?_eq_none, List.mem_cons, List.not_mem_nil, or_false, forall_eq_or_imp, forall_eq, hl0, hk1,
      decide_eq_true_eq]
    omega
  have hchan := fun p (hp : p < 4) => State.chan_rebind (s := u) [(b, l), (c, k)] hp
  obtain ⟨v, ⟨ch, ns, pw, hports⟩, -, -⟩ := u.rebind_eq [(b, l), (c, k)]
  obtain ⟨hbay0, hm0⟩ := (hchan 0 (by decide)).1 b l hfind0
  obtain ⟨hbay1, hm1⟩ := (hchan 1 (by decide)).1 c k hfind1
  obtain ⟨hbay2, hm2⟩ := (hchan 2 (by decide)).2 (hfind2 2 (by decide))
  obtain ⟨hbay3, hm3⟩ := (hchan 3 (by decide)).2 (hfind2 3 (by decide))
  rw [Member.rebound_of_good hlinc (by rw [← hu]; exact hb)] at hm0
  rw [Member.rebound_of_good hkinc (by rw [← hu]; exact hc)] at hm1
  have hexec : exec .attachLabelsRead s = .next (u.takeLabels a [(b, l), (c, k)]) := by
    change execAttachLabelsRead s = _
    unfold execAttachLabelsRead
    rw [ha]
    dsimp only
    rw [if_pos ⟨hstage, hback⟩, hls, hu]
  rw [State.takeLabels_of_agreeing (us := [0, 1]) (by simp [hag, Label.agrees_self]) (by simp [hl0, hk1])
    (by rw [← hu]; exact hsize) (by rw [← hu]; exact hmark)
    (by simp [List.range_succ, hm0, hm1, hm2, hm3]) (by rw [hlay]; decide)] at hexec
  generalize hw : u.rebind [(b, l), (c, k)] = w at *
  generalize hx : ({ a with label := some l, usable := [0, 1] } : Attach) = x at hexec
  have hsame := fun os => State.sameMembers_submitAll os ((w.setAttach x).setAttach { x with stage := .headers })
  unfold State.readHeaders at hexec
  have hsub := hsame ((x.usable.map fun p =>
    [(p, readUnitOp .read (slotBase ((x.label.map fun l => l.reserved).getD 0) .a) (.slotHeader false)),
      (p, readUnitOp .read (slotBase ((x.label.map fun l => l.reserved).getD 0) .b) (.slotHeader true))]).flatten)
  obtain ⟨ch', pw', rt, hframe⟩ := State.portsOnly_submitAll ((w.setAttach x).setAttach { x with stage := .headers })
    ((x.usable.map fun p =>
    [(p, readUnitOp .read (slotBase ((x.label.map fun l => l.reserved).getD 0) .a) (.slotHeader false)),
      (p, readUnitOp .read (slotBase ((x.label.map fun l => l.reserved).getD 0) .b) (.slotHeader true))]).flatten)
  refine ⟨_, hexec, ?_, (hsub.member 0).trans hm0, (hsub 0).2.trans hbay0, (hsub.member 1).trans hm1, (hsub 1).2.trans hbay1,
    (hsub.member 2).trans hm2, (hsub 2).2.trans hbay2, (hsub.member 3).trans hm3, (hsub 3).2.trans hbay3, ?_, ?_⟩
  · rw [hframe, ← hx]
    rfl
  all_goals
    rw [hframe, hports, ← hu]
    rfl

/-- Settles O59. -/
theorem attachRuns : Obligations.AttachRuns := by
  unfold Obligations.AttachRuns
  exact ⟨attachRuns_begins, attachRuns_labels, attachRuns_fails, attachRuns_headers, attachRuns_body⟩

end Sys2Proof.Machine

/-! # Proofs: Replay and the end of an attach -/

namespace Sys2Proof.Machine

/-! ## Objects adjusted (R66, R194) -/

theorem mem_of_getKey {α : Type} {m : Assoc α} {k : Nat} {v : α} (h : getKey m k = some v) : (k, v) ∈ m := by
  induction m with
  | nil => cases h
  | cons e m ih =>
    unfold getKey at h
    split at h
    · next hk =>
      obtain rfl : e.2 = v := Option.some.inj h
      exact List.mem_cons.2 (.inl (by rw [← hk]))
    · exact List.mem_cons_of_mem _ (ih h)

theorem getKey_ne_none_of_mem {α : Type} {m : Assoc α} {e : Nat × α} (h : e ∈ m) : getKey m e.1 ≠ none := by
  induction m with
  | nil => exact absurd h List.not_mem_nil
  | cons d m ih =>
    unfold getKey
    split
    · exact Option.some_ne_none _
    · next hk => exact ih ((List.mem_cons.1 h).resolve_left fun hd => hk (by rw [hd]))

/-- What the adjustment of the objects leaves: each object adjusted, and the release queue made again from them (R66). -/
theorem State.adjustObjects_spec (s : State) : ∃ bd x, s.adjustObjects = { s with
      tables := { s.tables with objects := s.tables.objects.map fun e => (e.1, e.2.adjusted), bad := bd }, oru := x } ∧
    (∀ o, s.adjustObjects.obj o = (s.obj o).map Obj.adjusted) ∧
    (∀ o r, s.obj o = some r → r.state = .opened → o ∈ s.adjustObjects.oru.queue) ∧
    ∀ o, s.obj o = none → o ∉ s.adjustObjects.oru.queue := by
  refine ⟨_, _, rfl, fun o => getKey_map Obj.adjusted s.tables.objects o, fun o r ho hr => ?_, fun o ho hmem => ?_⟩
  · exact List.mem_append.2 (.inr (List.mem_map.2 ⟨(o, r), List.mem_filter.2 ⟨mem_of_getKey ho, decide_eq_true hr⟩, rfl⟩))
  · have hkey : ∀ e ∈ s.tables.objects, e.1 ≠ o := fun e he h => getKey_ne_none_of_mem he (by rw [h]; exact ho)
    rcases List.mem_append.1 hmem with h | h
    · obtain ⟨e, he, heq⟩ := List.mem_map.1 h
      exact hkey e (List.mem_filter.1 he).1 heq
    · obtain ⟨e, he, heq⟩ := List.mem_map.1 h
      exact hkey e (List.mem_filter.1 he).1 heq

theorem Obj.adjusted_of_sealed {r : Obj} (h : r.state = .sealed) : r.adjusted = r := by
  unfold Obj.adjusted
  rw [h]

theorem Obj.adjusted_of_opened {r : Obj} (h : r.state = .opened) :
    r.adjusted = { r with state := .releasing, stream := none, walk := some Walk.start, tail := none } := by
  unfold Obj.adjusted
  rw [h]

/-! ## One item of replay (R193) -/

theorem exec_replayApply_of_single {s : State} {a : Attach} {i : ReplayItem} (ha : s.ckr.attach = some a)
    (hstage : a.stage = .apply) (hwalk : a.walking = none) (hitems : a.items = [i]) :
    exec .replayApply s = .next (((s.setAttach { a with items := [] }).applyItem i).endReplay) := by
  have happly : s.applyItems 1 = (s.setAttach { a with items := [] }).applyItem i := by
    unfold State.applyItems
    rw [ha]
    dsimp only
    rw [hwalk, hitems]
    rfl
  change execReplayApply s = _
  unfold execReplayApply
  rw [ha]
  dsimp only
  rw [if_pos ⟨hstage, by rw [hwalk]; rfl⟩, hitems]
  exact congrArg (fun t : State => Host.Outcome.next t.endReplay) happly

/-- With no item left and no object to walk the objects are adjusted, and the walks begin (R194). -/
theorem State.endReplay_spec {s : State} {b : Attach} (hb : s.ckr.attach = some b) (hw : b.walking = none) (hi : b.items = []) :
    ∃ bd x, s.endReplay = { s with
      ckr := { s.ckr with attach := some { b with stage := .walks } },
      tables := { s.tables with objects := s.tables.objects.map fun e => (e.1, e.2.adjusted), bad := bd }, oru := x } ∧
    (∀ o, s.endReplay.obj o = (s.obj o).map Obj.adjusted) ∧
    (∀ o r, s.obj o = some r → r.state = .opened → o ∈ s.endReplay.oru.queue) ∧
    ∀ o, s.obj o = none → o ∉ s.endReplay.oru.queue := by
  have hend : s.endReplay = (s.setAttach { b with stage := .walks }).adjustObjects := by
    unfold State.endReplay
    rw [hb]
    dsimp only
    rw [hw, hi]
    rfl
  rw [hend]
  exact (s.setAttach { b with stage := .walks }).adjustObjects_spec

theorem State.endReplay_of_walking {s : State} {b : Attach} {o : Nat} (hb : s.ckr.attach = some b) (hw : b.walking = some o) :
    s.endReplay = s := by
  unfold State.endReplay
  rw [hb]
  dsimp only
  rw [hw]
  rfl

theorem replayRuns_closing (s : State) (a : Attach) (c off o len chunks kind owner segs : Nat) (al : Albums) (r : Obj)
    (ha : s.ckr.attach = some a) (hstage : a.stage = .apply) (hwalk : a.walking = none)
    (hitems : a.items = [.record c off (some (.closing o len chunks kind owner al segs))]) (ho : s.obj o = some r)
    (hopen : r.state = .opened) (hsegs : segs = r.map.length) :
    Completes .replayApply s fun t =>
      t.obj o = some { r with state := .sealed, length := len, chunks := chunks, kind := kind, owner := owner,
                              albums := al, stream := none, sealedAt := 0 } ∧
      (t.ckr.attach.map fun a => (a.stage, a.figures.sealed)) = some (.walks, tallyUp 68 a.figures.sealed) ∧
      t.tables.entries = s.tables.entries ∧ t.tables.containers = s.tables.containers := by
  have hexec := exec_replayApply_of_single ha hstage hwalk hitems
  generalize hv : ({ r with state := .sealed, length := len, chunks := chunks, kind := kind, owner := owner,
                            albums := al, stream := none, sealedAt := 0 } : Obj) = v
  generalize hu : ((s.setAttach { a with items := [] }).setObj o (some v)).countReplay
    (fun f => { f with sealed := tallyUp 68 f.sealed }) = u
  have hitem : (s.setAttach { a with items := [] }).applyItem (.record c off (some (.closing o len chunks kind owner al segs))) =
      u := by
    change (s.setAttach { a with items := [] }).applySeal o len chunks kind owner al segs = u
    unfold State.applySeal
    rw [show (s.setAttach { a with items := [] }).obj o = some r from ho]
    dsimp only
    rw [if_pos ⟨hopen, hsegs⟩, hv, hu]
  have huo : u.obj o = some v := by rw [← hu]; exact State.obj_setObj_same (s.setAttach { a with items := [] }) o (some v)
  obtain ⟨bd, x, hend, hobj, -⟩ := State.endReplay_spec (s := u) (b := { a with
    items := [], figures := { a.figures with sealed := tallyUp 68 a.figures.sealed } }) (by rw [← hu]; rfl) hwalk rfl
  rw [hitem] at hexec
  refine ⟨_, hexec, ?_, ?_, ?_, ?_⟩
  · rw [hobj, huo, Option.map_some, Obj.adjusted_of_sealed (by rw [← hv])]
  · rw [hend]
    rfl
  all_goals
    rw [hend, ← hu]
    rfl

theorem replayRuns_albums (s : State) (a : Attach) (c off o : Nat) (al : Albums) (r : Obj) (ha : s.ckr.attach = some a)
    (hstage : a.stage = .apply) (hwalk : a.walking = none) (hitems : a.items = [.record c off (some (.albums o al))])
    (ho : s.obj o = some r) (hr : r.state = .sealed) :
    Completes .replayApply s fun t =>
      t.obj o = some { r with albums := al } ∧ (t.ckr.attach.map fun a => a.stage) = some .walks ∧
      t.tables.entries = s.tables.entries ∧ t.tables.containers = s.tables.containers := by
  have hexec := exec_replayApply_of_single ha hstage hwalk hitems
  generalize hu : (s.setAttach { a with items := [] }).setObj o (some { r with albums := al }) = u
  have hitem : (s.setAttach { a with items := [] }).applyItem (.record c off (some (.albums o al))) = u := by
    unfold State.applyItem
    dsimp only
    rw [show (s.setAttach { a with items := [] }).obj o = some r from ho]
    dsimp only
    rw [if_pos (.inr hr), hu]
  have huo : u.obj o = some { r with albums := al } := by rw [← hu]; exact State.obj_setObj_same ..
  obtain ⟨bd, x, hend, hobj, -⟩ := State.endReplay_spec (s := u) (b := { a with items := [] }) (by rw [← hu]; rfl) hwalk rfl
  rw [hitem] at hexec
  refine ⟨_, hexec, ?_, ?_, ?_, ?_⟩
  · rw [hobj, huo, Option.map_some, Obj.adjusted_of_sealed (by exact hr)]
  · rw [hend]
    rfl
  all_goals
    rw [hend, ← hu]
    rfl

/-! ## DATA entries applied (R193) -/

/-- The state of an attach whose last item is being applied. -/
def State.lastItem (s : State) (a : Attach) : State := s.setAttach { a with items := [] }

/-- The end of replay keeps the index, the containers and the memory, and moves the attach on to its walks (R194). -/
theorem State.endReplay_keeps {s : State} {b : Attach} (hb : s.ckr.attach = some b) (hw : b.walking = none) (hi : b.items = []) :
    s.endReplay.tables.entries = s.tables.entries ∧ s.endReplay.tables.containers = s.tables.containers ∧
      s.endReplay.ckr.attach = some { b with stage := .walks } ∧ s.endReplay.mem = s.mem := by
  obtain ⟨bd, x, hend, -⟩ := State.endReplay_spec hb hw hi
  rw [hend]
  exact ⟨rfl, rfl, rfl, rfl⟩

/-- Replay with one item, none of whose objects is to be walked first. -/
theorem exec_replayApply_of_last {s u : State} {a b : Attach} {i : ReplayItem} (hr : s.replays a i)
    (hu : (s.lastItem a).applyItem i = u) (hb : u.ckr.attach = some b) (hw : b.walking = none) (hi : b.items = []) :
    ∃ t, exec .replayApply s = .next t ∧ t = u.endReplay ∧ t.tables.entries = u.tables.entries ∧
      t.tables.containers = u.tables.containers ∧ t.ckr.attach = some { b with stage := .walks } ∧ t.mem = u.mem := by
  obtain ⟨ha, hstage, hwalk, hitems⟩ := hr
  have hexec := exec_replayApply_of_single ha hstage hwalk hitems
  rw [show s.setAttach { a with items := [] } = s.lastItem a from rfl, hu] at hexec
  exact ⟨_, hexec, rfl, State.endReplay_keeps hb hw hi⟩

theorem State.idxCreate_of_empty {s : State} {h c off : Nat} {f : Fp} (hh : s.tables.isHandle h = true)
    (hl : s.tables.lostPart h = false) (he : s.tables.entry h = none) : s.idxCreate h f c off =
      ((s.onTables fun t => (t.joinChain h f).setEntry h (some
        { state := .stored, fp := f, container := c, offset := off, refcount := 0, move := none })).liveRaise c
          (fpLength f)).idxAnswer .ok := by
  unfold State.idxCreate
  rw [if_neg (by rw [hh]; exact Bool.noConfusion), if_neg (by rw [hl]; exact Bool.noConfusion), he]

theorem State.idxCreate_of_entry {s : State} {h c off : Nat} {f : Fp} {e : IdxEntry} (hh : s.tables.isHandle h = true)
    (hl : s.tables.lostPart h = false) (he : s.tables.entry h = some e) :
    s.idxCreate h f c off = s.idxAnswer (if e.fp = f then .exists_ else .conflict) := by
  unfold State.idxCreate
  rw [if_neg (by rw [hh]; exact Bool.noConfusion), if_neg (by rw [hl]; exact Bool.noConfusion), he]

theorem State.idxCreate_of_lost {s : State} {h c off : Nat} {f : Fp} (hh : s.tables.isHandle h = true)
    (hl : s.tables.lostPart h = true) : s.idxCreate h f c off = s.idxAnswer .lost := by
  unfold State.idxCreate
  rw [if_neg (by rw [hh]; exact Bool.noConfusion), if_pos hl]

/-- A NEW entry is a replay create, of whose answers CONFLICT and LOST are counted (R193). -/
theorem State.applyItem_new {s u : State} {c : Nat} {e : DirEntry} (hk : e.kind = 0) (hn : e.handle ≠ noHandle)
    (hc : s.idxCreate e.handle e.fp c e.offset = u) :
    (u.idx.answer = .conflict ∨ u.idx.answer = .lost → s.applyItem (.entry c e) = u.countAnswer) ∧
      (u.idx.answer = .ok ∨ u.idx.answer = .exists_ → s.applyItem (.entry c e) = u) := by
  have happly : s.applyItem (.entry c e) = s.applyEntry c e := rfl
  rw [happly]
  unfold State.applyEntry
  rw [if_neg hn, hk]
  dsimp only
  rw [hc]
  refine ⟨fun h => ?_, fun h => ?_⟩
  · rcases h with h | h <;> simp only [h]
  · rcases h with h | h <;> simp only [h]

theorem State.countAnswer_conflict {s : State} (h : s.idx.answer = .conflict) :
    s.countAnswer = s.countReplay fun f => { f with conflicts := tallyUp 63 f.conflicts } := by
  unfold State.countAnswer; rw [h]

theorem State.countAnswer_lost {s : State} (h : s.idx.answer = .lost) :
    s.countAnswer = s.countReplay fun f => { f with lost := tallyUp 64 f.lost } := by
  unfold State.countAnswer; rw [h]

theorem State.countAnswer_ok {s : State} (h : s.idx.answer = .ok) : s.countAnswer = s := by
  unfold State.countAnswer; rw [h]

/-- Containers' live bytes raised: of one container alone (R86). -/
theorem State.liveRaise_spec (s : State) (c n : Nat) :
    (∀ v, s.cont c = some v → (s.liveRaise c n).cont c = some { v with live := v.live + n }) ∧
      ∀ d, d ≠ c → (s.liveRaise c n).cont d = s.cont d := by
  refine ⟨fun v hv => ?_, fun d hd => (State.cont_modCont ..).trans (if_neg hd)⟩
  rw [State.liveRaise, State.modCont_of_cont hv, State.cont_setCont_same]

theorem replayRuns_new (s : State) (a : Attach) (c : Nat) (e : DirEntry) (hr : s.replays a (.entry c e)) (hk : e.kind = 0)
    (hn : e.handle ≠ noHandle) (hh : s.tables.isHandle e.handle = true) (hl : s.tables.lostPart e.handle = false)
    (he : s.tables.entry e.handle = none) :
    Completes .replayApply s fun t =>
        getKey t.tables.entries e.handle = some { state := .stored, fp := e.fp, container := c, offset := e.offset,
                                                  refcount := 0, move := none } ∧
        (∀ p, p ≠ e.handle → getKey t.tables.entries p = getKey s.tables.entries p) ∧
        (∀ v, s.cont c = some v → t.cont c = some { v with live := v.live + fpLength e.fp }) ∧
        (∀ d, d ≠ c → t.cont d = s.cont d) ∧
        t.ckr.attach = some { a with stage := .walks, items := [] } ∧ t.mem = s.mem := by
  have hcreate := State.idxCreate_of_empty (s := s.lastItem a) (c := c) (off := e.offset) (f := e.fp) hh hl he
  generalize hw : ((s.lastItem a).onTables fun t => (t.joinChain e.handle e.fp).setEntry e.handle (some
    { state := .stored, fp := e.fp, container := c, offset := e.offset, refcount := 0, move := none })) = w at hcreate
  have hwt : w.tables.entries = setKey s.tables.entries e.handle (some
      { state := .stored, fp := e.fp, container := c, offset := e.offset, refcount := 0, move := none }) ∧
      w.tables.containers = s.tables.containers := by
    rw [← hw]
    unfold State.onTables
    dsimp only
    rw [Tables.joinChain_eq]
    exact ⟨rfl, rfl⟩
  have hwc : ∀ d, w.cont d = s.cont d := fun d => congrArg (fun m => getKey m d) hwt.2
  have hitem : (s.lastItem a).applyItem (.entry c e) = (w.liveRaise c (fpLength e.fp)).idxAnswer .ok :=
    (State.applyItem_new hk hn hcreate).2 (.inl rfl)
  have hframe := w.modCont_eq c fun r => { r with live := r.live + fpLength e.fp }
  obtain ⟨hhere, hother⟩ := w.liveRaise_spec c (fpLength e.fp)
  obtain ⟨hkey, hkeys⟩ := Tables.getKey_of_entries hwt.1
  obtain ⟨t, hexec, -, hent, hcont, hatt, hmem⟩ := exec_replayApply_of_last (b := { a with items := [] }) hr hitem
    (by rw [State.liveRaise, hframe, ← hw]; rfl) hr.2.2.1 rfl
  rw [State.liveRaise, hframe] at hent hmem
  have htc : ∀ d, t.cont d = (w.liveRaise c (fpLength e.fp)).cont d := fun d => congrArg (fun m => getKey m d) hcont
  refine ⟨t, hexec, ?_, fun p hp => ?_, fun v hv => ?_, fun d hd => ?_, hatt, ?_⟩
  · rw [hent]
    exact hkey
  · rw [hent]
    exact hkeys p hp
  · rw [htc]
    exact hhere v ((hwc c).trans hv)
  · rw [htc, hother d hd, hwc]
  · rw [hmem, ← hw]
    rfl

theorem replayRuns_conflict (s : State) (a : Attach) (c : Nat) (e : DirEntry) (x : IdxEntry) (hr : s.replays a (.entry c e))
    (hk : e.kind = 0) (hn : e.handle ≠ noHandle) (hh : s.tables.isHandle e.handle = true)
    (hl : s.tables.lostPart e.handle = false) (he : s.tables.entry e.handle = some x) :
    Completes .replayApply s fun t =>
        t.tables.entries = s.tables.entries ∧ t.tables.containers = s.tables.containers ∧
        t.ckr.attach = some { a with stage := .walks, items := [], figures := { a.figures with
          conflicts := if x.fp = e.fp then a.figures.conflicts else tallyUp 63 a.figures.conflicts } } := by
  have hcreate := State.idxCreate_of_entry (s := s.lastItem a) (c := c) (off := e.offset) (f := e.fp) hh hl he
  by_cases hf : x.fp = e.fp
  · rw [if_pos hf] at hcreate ⊢
    obtain ⟨t, hexec, -, hent, hcont, hatt, -⟩ := exec_replayApply_of_last (b := { a with items := [] }) hr
      ((State.applyItem_new hk hn hcreate).2 (.inr rfl)) rfl hr.2.2.1 rfl
    exact ⟨t, hexec, hent, hcont, hatt⟩
  · rw [if_neg hf] at hcreate ⊢
    have hitem := (State.applyItem_new hk hn hcreate).1 (.inl rfl)
    rw [State.countAnswer_conflict rfl] at hitem
    obtain ⟨t, hexec, -, hent, hcont, hatt, -⟩ := exec_replayApply_of_last (b := { a with
      items := [], figures := { a.figures with conflicts := tallyUp 63 a.figures.conflicts } }) hr hitem rfl hr.2.2.1 rfl
    exact ⟨t, hexec, hent, hcont, hatt⟩

theorem replayRuns_lost (s : State) (a : Attach) (c : Nat) (e : DirEntry) (hr : s.replays a (.entry c e)) (hk : e.kind = 0)
    (hn : e.handle ≠ noHandle) (hh : s.tables.isHandle e.handle = true) (hl : s.tables.lostPart e.handle = true) :
    Completes .replayApply s fun t =>
      t.tables.entries = s.tables.entries ∧ t.tables.containers = s.tables.containers ∧
      t.ckr.attach = some { a with
        stage := .walks, items := [], figures := { a.figures with lost := tallyUp 64 a.figures.lost } } := by
  have hcreate := State.idxCreate_of_lost (s := s.lastItem a) (c := c) (off := e.offset) (f := e.fp) hh hl
  have hitem := (State.applyItem_new hk hn hcreate).1 (.inr rfl)
  rw [State.countAnswer_lost rfl] at hitem
  obtain ⟨t, hexec, -, hent, hcont, hatt, -⟩ := exec_replayApply_of_last (b := { a with
    items := [], figures := { a.figures with lost := tallyUp 64 a.figures.lost } }) hr hitem rfl hr.2.2.1 rfl
  exact ⟨t, hexec, hent, hcont, hatt⟩

theorem State.applyItem_moved {s : State} {c : Nat} {e : DirEntry} (hk : e.kind = 1) (hn : e.handle ≠ noHandle) :
    s.applyItem (.entry c e) = s.idxReplayMove e.handle e.fp c e.offset := by
  have happly : s.applyItem (.entry c e) = s.applyEntry c e := rfl
  rw [happly]
  unfold State.applyEntry
  rw [if_neg hn]
  simp only [hk]

theorem replayRuns_moved (s : State) (a : Attach) (c : Nat) (e : DirEntry) (x : IdxEntry) (v w : Container)
    (hr : s.replays a (.entry c e)) (hk : e.kind = 1) (hn : e.handle ≠ noHandle) (hl : s.tables.lostPart e.handle = false)
    (he : s.tables.entry e.handle = some x) (hf : x.fp = e.fp) (hxc : x.container ≠ c) (hw : s.cont c = some w)
    (hv : s.cont x.container = some v) (hlive : v.live - fpLength e.fp ≠ 0) (hkind : v.kind = .data) :
    Completes .replayApply s fun t =>
        t.tables.entry e.handle = some { x with container := c, offset := e.offset } ∧
        (∀ p, p ≠ e.handle → getKey t.tables.entries p = getKey s.tables.entries p) ∧
        t.cont c = some { w with live := w.live + fpLength e.fp } ∧
        t.cont x.container = some { v with live := v.live - fpLength e.fp } ∧
        (∀ d, d ≠ c → d ≠ x.container → t.cont d = s.cont d) ∧
        t.ckr.attach = some { a with stage := .walks, items := [] } := by
  have hitem := (State.applyItem_moved (s := s.lastItem a) (c := c) hk hn).trans
    ((State.idxReplayMove_of_entry (s := s.lastItem a) (c := c) (off := e.offset) (f := e.fp) hl he).trans (if_pos hf))
  obtain ⟨hentry, hother, hcont⟩ := (s.lastItem a).rewritten_spec he { x with container := c, offset := e.offset }
  generalize hu : ((s.lastItem a).onTables fun t => t.setEntry e.handle (some { x with container := c, offset := e.offset })) = u at *
  rw [State.liveRaise, State.modCont_of_cont (v := w) ((hcont c).trans hw), State.liveLower_of_kept (v := v)
      ((State.cont_setCont_other _ hxc _).trans ((hcont x.container).trans hv)) hkind hlive] at hitem
  obtain ⟨ha, hstage, hwalk, hitems⟩ := hr
  have hexec := exec_replayApply_of_single ha hstage hwalk hitems
  rw [show s.setAttach { a with items := [] } = s.lastItem a from rfl, hitem] at hexec
  generalize hz : (((u.setCont c (some { w with live := w.live + fpLength e.fp })).setCont x.container
    (some { v with live := v.live - fpLength e.fp })).idxAnswer .ok) = z at hexec
  have hkeep : ∀ d, z.cont d = ((u.setCont c (some { w with live := w.live + fpLength e.fp })).setCont x.container
      (some { v with live := v.live - fpLength e.fp })).cont d := fun d => by
    rw [← hz]
    rfl
  obtain ⟨bd, y, hend, -⟩ := State.endReplay_spec (s := z) (b := { a with items := [] }) (by rw [← hz, ← hu]; rfl) hwalk rfl
  rw [hend] at hexec
  refine ⟨_, hexec, ?_, fun p hp => ?_, ?_, ?_, fun d hc hd => ?_, rfl⟩
  · rw [← hz]
    exact hentry
  · rw [← hz]
    exact hother p hp
  · exact (hkeep c).trans ((State.cont_setCont_other _ (Ne.symm hxc) _).trans (State.cont_setCont_same ..))
  · exact (hkeep x.container).trans (State.cont_setCont_same ..)
  · exact (hkeep d).trans ((State.cont_setCont_other _ hd _).trans ((State.cont_setCont_other _ hc _).trans (hcont d)))

theorem State.idxReplayMove_of_ignored {s : State} {h c off : Nat} {f : Fp}
    (hi : s.tables.lostPart h = true ∨ ((s.tables.entry h).any fun x => x.fp = f) = false) :
    ∃ x, s.idxReplayMove h f c off = s.idxAnswer x := by
  unfold State.idxReplayMove
  split
  · exact ⟨_, rfl⟩
  · next hl =>
    split
    · exact ⟨_, rfl⟩
    · next x hx =>
      have hne := hi.resolve_left hl
      rw [hx] at hne
      exact ⟨_, if_neg fun hf => Bool.false_ne_true (hne.symm.trans (decide_eq_true hf))⟩

theorem replayRuns_ignored (s : State) (a : Attach) (c : Nat) (e : DirEntry) (hr : s.replays a (.entry c e)) (hk : e.kind = 1)
    (hn : e.handle ≠ noHandle)
    (hi : s.tables.lostPart e.handle = true ∨ ((s.tables.entry e.handle).any fun x => x.fp = e.fp) = false) :
    Completes .replayApply s fun t =>
        t.tables.entries = s.tables.entries ∧ t.tables.containers = s.tables.containers ∧
        t.ckr.attach = some { a with stage := .walks, items := [] } := by
  obtain ⟨x, hx⟩ := State.idxReplayMove_of_ignored (s := s.lastItem a) (c := c) (off := e.offset) hi
  obtain ⟨t, hexec, -, hent, hcont, hatt, -⟩ := exec_replayApply_of_last (b := { a with items := [] }) hr
    ((State.applyItem_moved hk hn).trans hx) rfl hr.2.2.1 rfl
  exact ⟨t, hexec, hent, hcont, hatt⟩

/-! ## SEGMENT records applied (R193) -/

/-- A raise below the pinned count, answered OK, of which nothing is counted (R37, R193). -/
theorem State.idxRaise_counted {s : State} {h : Nat} {e : IdxEntry} (hl : s.tables.lostPart h = false)
    (he : s.tables.entry h = some e) (hp : e.refcount < pinned) : (s.idxRaise h).countAnswer =
      (s.onTables fun t => t.setEntry h (some { e with refcount := e.refcount + 1 })).idxAnswer .ok := by
  have hraise := State.idxRaise_of_entry hl he
  rw [if_neg (Nat.ne_of_lt hp), show raiseCount e.refcount = e.refcount + 1 from if_pos hp] at hraise
  rw [hraise]
  exact State.countAnswer_ok rfl

/-- Raises of the handles of a record, none of which comes to the pinned count: each entry is raised as often as it is named. -/
theorem State.raises_spec (hs : List Nat) : ∀ s : State, (∀ h ∈ hs, s.tables.lostPart h = false ∧
      ((s.tables.entry h).any fun e => e.refcount + hs.count h ≤ 65535) = true) →
    ∃ es bd x, hs.foldl (fun s h => (s.idxRaise h).countAnswer) s = { s with
        tables := { s.tables with entries := es, bad := bd }, idx := { s.idx with answer := x } } ∧
      (∀ h e, s.tables.entry h = some e → ({ s.tables with entries := es, bad := bd } : Tables).entry h =
        some { e with refcount := e.refcount + hs.count h }) ∧
      ∀ p, p ∉ hs → getKey es p = getKey s.tables.entries p := by
  induction hs with
  | nil => exact fun s _ => ⟨s.tables.entries, s.tables.bad, s.idx.answer, rfl, fun h e he => he, fun p _ => rfl⟩
  | cons h hs ih =>
    intro s hall
    obtain ⟨hlost, hany⟩ := hall h List.mem_cons_self
    cases he : s.tables.entry h with
    | none => rw [he] at hany; exact absurd hany Bool.false_ne_true
    | some e =>
      rw [he, List.count_cons_self] at hany
      have hroom : e.refcount + (hs.count h + 1) ≤ 65535 := of_decide_eq_true hany
      have hraise := State.idxRaise_counted hlost he (show e.refcount < 65535 by omega)
      generalize hu : (s.onTables fun t => t.setEntry h (some { e with refcount := e.refcount + 1 })).idxAnswer .ok = u at hraise
      have hhere : u.tables.entry h = some { e with refcount := e.refcount + 1 } := by
        rw [← hu]
        exact Tables.entry_setEntry_of_entry he _
      have hother : ∀ p, p ≠ h → u.tables.entry p = s.tables.entry p := fun p hp => by
        rw [← hu]
        exact Tables.entry_setEntry_other hp _
      obtain ⟨es, bd, x, hfold, hcounts, hkeys⟩ := ih u fun p hp => by
        obtain ⟨hl, ha⟩ := hall p (List.mem_cons_of_mem _ hp)
        refine ⟨by rw [← hu]; exact hl, ?_⟩
        by_cases hph : p = h
        · subst hph
          rw [hhere]
          exact decide_eq_true (by show e.refcount + 1 + hs.count p ≤ 65535; omega)
        · rw [hother p hph]
          rwa [List.count_cons_of_ne (Ne.symm hph)] at ha
      refine ⟨es, bd, x, ?_, fun p d hd => ?_, fun p hp => ?_⟩
      · rw [List.foldl_cons, hraise, hfold, ← hu]
        rfl
      · by_cases hph : p = h
        · subst hph
          obtain rfl : e = d := Option.some.inj (he.symm.trans hd)
          have hcount := hcounts p _ hhere
          rw [← hu] at hcount
          rw [List.count_cons_self, Nat.add_comm (hs.count p) 1, ← Nat.add_assoc]
          exact hcount
        · have hcount := hcounts p d ((hother p hph).trans hd)
          rw [← hu] at hcount
          rw [List.count_cons_of_ne (Ne.symm hph)]
          exact hcount
      · rw [hkeys p fun hc => hp (List.mem_cons_of_mem _ hc), ← hu]
        exact Tables.getKey_setEntry_other _ (fun hc => hp (by rw [hc]; exact List.mem_cons_self)) _

theorem State.countReplay_of_attach {s : State} {a : Attach} (ha : s.ckr.attach = some a) (f : Figures → Figures) :
    s.countReplay f = s.setAttach { a with figures := f a.figures } := by
  unfold State.countReplay State.setAttach State.onCkr
  dsimp only
  rw [ha]
  rfl

/-- The state with the object of a SEGMENT record there, created and counted if there was none (R193). -/
def State.segmentObject (s : State) (o : Nat) : State :=
  if (s.obj o).isSome ∨ o = 0 then s
  else (s.setObj o (some Obj.replayed)).countReplay fun f => { f with created := tallyUp 67 f.created }

theorem State.segmentObject_spec {s : State} {a : Attach} {o : Nat} {r : Obj} (ha : s.ckr.attach = some a) (h0 : o ≠ 0)
    (hr : s.obj o = some r ∨ (s.obj o = none ∧ r = Obj.replayed)) :
    (s.segmentObject o).obj o = some r ∧ (∀ p, p ≠ o → (s.segmentObject o).obj p = s.obj p) ∧
      ∃ ob bd, s.segmentObject o = { s with
        tables := { s.tables with objects := ob, bad := bd },
        ckr := { s.ckr with attach := some { a with figures := { a.figures with
          created := if (s.obj o).isSome then a.figures.created else tallyUp 67 a.figures.created } } } } := by
  rcases hr with hr | ⟨hr, rfl⟩
  · have hsame : s.segmentObject o = s := if_pos (.inl (by rw [hr]; rfl))
    rw [hsame, hr]
    refine ⟨rfl, fun _ _ => rfl, s.tables.objects, s.tables.bad, ?_⟩
    rw [if_pos (by rfl), ← ha]
  · have hnew : s.segmentObject o =
        (s.setObj o (some Obj.replayed)).countReplay fun f => { f with created := tallyUp 67 f.created } :=
      if_neg fun hc => hc.elim (fun hs => by rw [hr] at hs; exact Bool.noConfusion hs) h0
    rw [hnew, hr]
    refine ⟨State.obj_setObj_same .., fun p hp => State.obj_setObj_other s hp _,
      setKey s.tables.objects o (some Obj.replayed), (s.setObj o (some Obj.replayed)).tables.bad, ?_⟩
    rw [State.countReplay_of_attach (s := s.setObj o (some Obj.replayed)) (a := a) ha]
    rfl

/-- A SEGMENT record that continues an OPEN object's map (R193). -/
theorem State.applySegment_of_next {s : State} {c off o ord : Nat} {hs : List Nat} {r : Obj}
    (ho : (s.segmentObject o).obj o = some r) (hopen : r.state = .opened) (hord : ord = r.map.length) :
    s.applySegment c off o ord hs = hs.foldl (fun s h => (s.idxRaise h).countAnswer)
      (((s.segmentObject o).setObj o (some { r with
        recorded := true, map := r.map ++ [{ container := c, offset := off }] })).segRefRaise c) := by
  have hobject : (if (s.obj o).isSome ∨ o = 0 then s
    else (s.setObj o (some Obj.replayed)).countReplay fun f => { f with created := tallyUp 67 f.created }) =
      s.segmentObject o := rfl
  unfold State.applySegment
  dsimp only
  rw [hobject, ho]
  dsimp only
  rw [if_pos hopen, if_pos hord.symm]

theorem replayRuns_segment (s : State) (a : Attach) (c off o ord : Nat) (hs : List Nat) (r : Obj) (v : Container)
    (hr : s.replays a (.record c off (some (.segment o ord hs)))) (h0 : o ≠ 0)
    (hobj : s.obj o = some r ∨ (s.obj o = none ∧ r = {
      kind := 2, owner := 0, state := .opened, length := 0, chunks := 0, albums := 0, created := 0, sealedAt := 0,
      map := [], stream := none, walk := none, tail := none, recorded := true })) (hopen : r.state = .opened)
    (hord : ord = r.map.length) (hv : s.cont c = some v)
    (hall : ∀ h ∈ hs, s.tables.lostPart h = false ∧
      ((s.tables.entry h).any fun e => e.refcount + hs.count h ≤ 65535) = true) :
    Completes .replayApply s fun t =>
      t.obj o = some { r with state := .releasing, stream := none, tail := none, recorded := true,
                              map := r.map ++ [{ container := c, offset := off }],
                              walk := some { phase := .segments, ordinal := 0, index := 0, lowered := 0 } } ∧
      (∀ p, p ≠ o → t.obj p = (s.obj p).map Obj.adjusted) ∧ o ∈ t.oru.queue ∧
      t.cont c = some { v with segRefs := v.segRefs + 1 } ∧ (∀ d, d ≠ c → t.cont d = s.cont d) ∧
      (∀ h ∈ hs, ∀ e, s.tables.entry h = some e →
        t.tables.entry h = some { e with refcount := e.refcount + hs.count h }) ∧
      (∀ p, p ∉ hs → getKey t.tables.entries p = getKey s.tables.entries p) ∧
      t.ckr.attach = some { a with stage := .walks, items := [], figures := { a.figures with
        created := if (s.obj o).isSome then a.figures.created else tallyUp 67 a.figures.created } } := by
  obtain ⟨ha, hstage, hwalk, hitems⟩ := hr
  have hexec := exec_replayApply_of_single ha hstage hwalk hitems
  rw [show s.setAttach { a with items := [] } = s.lastItem a from rfl] at hexec
  obtain ⟨hhere, hothers, ob, bd, hframe⟩ := State.segmentObject_spec (s := s.lastItem a) (a := { a with items := [] }) (o := o)
    (r := r) rfl h0 hobj
  have hitem : (s.lastItem a).applyItem (.record c off (some (.segment o ord hs))) = _ :=
    State.applySegment_of_next hhere hopen hord
  generalize hu : (s.lastItem a).segmentObject o = u at hhere hothers hframe hitem
  generalize hrec : ({ r with recorded := true, map := r.map ++ [{ container := c, offset := off }] } : Obj) = rec at hitem
  have hucont : ∀ d, (u.setObj o (some rec)).cont d = s.cont d := fun d => by rw [hframe]; rfl
  have hmod := (u.setObj o (some rec)).modCont_eq c fun r => { r with segRefs := r.segRefs + 1 }
  have hcont : ∀ d, ((u.setObj o (some rec)).segRefRaise c).cont d = if d = c then some { v with segRefs := v.segRefs + 1 }
      else s.cont d := fun d => by
    refine (State.cont_modCont ..).trans ?_
    rw [hucont, hucont, hv]
    rfl
  generalize hw : (u.setObj o (some rec)).segRefRaise c = w at hitem hcont
  rw [show (u.setObj o (some rec)).modCont c _ = w from hw] at hmod
  obtain ⟨es, bd', x, hfold, hcounts, hkeys⟩ := State.raises_spec hs w (by rw [hmod, hframe]; exact hall)
  rw [hitem, hfold] at hexec
  generalize hz : ({ w with tables := { w.tables with entries := es, bad := bd' }, idx := { w.idx with answer := x } } : State) = z
    at hexec
  have hzo : z.obj o = some rec := by
    rw [← hz, hmod]
    exact State.obj_setObj_same u o (some rec)
  have hzp : ∀ p, p ≠ o → z.obj p = s.obj p := fun p hp => by
    rw [← hz, hmod]
    exact (State.obj_setObj_other u hp (some rec)).trans (hothers p hp)
  have hro : rec.state = .opened := by rw [← hrec]; exact hopen
  obtain ⟨bd'', y, hend, hobjs, hqueue, -⟩ := State.endReplay_spec (s := z) (b := { a with items := [], figures := { a.figures with
      created := if (s.obj o).isSome then a.figures.created else tallyUp 67 a.figures.created } })
    (by rw [← hz, hmod, hframe]; rfl) hwalk rfl
  have hentry : ∀ h, z.endReplay.tables.entry h = ({ w.tables with entries := es, bad := bd' } : Tables).entry h := fun h => by
    rw [hend, ← hz]
    rfl
  refine ⟨_, hexec, ?_, fun p hp => ?_, hqueue o rec hzo hro, ?_, fun d hd => ?_, fun h hh e he => ?_, fun p hp => ?_, ?_⟩
  · rw [hobjs, hzo, Option.map_some, Obj.adjusted_of_opened hro, ← hrec]
    rfl
  · rw [hobjs, hzp p hp]
  · have h := hcont c
    rw [if_pos rfl] at h
    rw [hend, ← hz]
    exact h
  · have h := hcont d
    rw [if_neg hd] at h
    rw [hend, ← hz]
    exact h
  · rw [hentry]
    exact hcounts h e (by rw [hmod, hframe]; exact he)
  · have h := hkeys p hp
    rw [hend, ← hz]
    refine h.trans ?_
    rw [hmod, hframe]
    rfl
  · rw [hend]

/-! ## RELEASE records applied (R193) -/

/-- The slot of an object with no segment freed, no stream's abort waiting for it (R62). -/
theorem State.finishRelease_of_empty {s : State} {o : Nat} {r : Obj} (ho : s.obj o = some r) (hr : r.map = [])
    (hn : s.abortingStreamOf o = none) : ∃ rq, s.finishRelease o =
      { ((s.setObj o none).onOru fun u => u.released o) with
        lnk := { s.lnk with replyQueue := rq },
        ing := { s.ing with streams := s.ing.streams.map fun t => t.objectFreed o } } := by
  unfold State.finishRelease
  rw [ho]
  dsimp only
  rw [hn, hr]
  cases hm : getKey s.oru.marks o with
  | none => exact ⟨s.lnk.replyQueue, rfl⟩
  | some tag =>
    dsimp only [Option.filter]
    rw [State.answer_eq]
    exact ⟨_, rfl⟩

theorem replayRuns_freed (s : State) (a : Attach) (c off o : Nat) (r : Obj)
    (hr : s.replays a (.record c off (some (.release o)))) (ho : s.obj o = some r)
    (hab : ∀ i < 8, (s.stream i).state ≠ .aborting)
    (hstate : r.state = .lost ∨ (r.state = .releasing ∧ r.walkEnded = true)) (hmap : r.map = []) :
    Completes .replayApply s fun t =>
      t.obj o = none ∧ (∀ p, p ≠ o → t.obj p = (s.obj p).map Obj.adjusted) ∧ o ∉ t.oru.queue ∧
      t.tables.entries = s.tables.entries ∧ t.tables.containers = s.tables.containers ∧
      t.ckr.attach = some { a with
        stage := .walks, items := [], figures := { a.figures with released := tallyUp 60 a.figures.released } } := by
  obtain ⟨ha, hstage, hwalk, hitems⟩ := hr
  have hexec := exec_replayApply_of_single ha hstage hwalk hitems
  rw [show s.setAttach { a with items := [] } = s.lastItem a from rfl] at hexec
  generalize hu : (s.lastItem a).countReplay (fun f => { f with released := tallyUp 60 f.released }) = u
  have hitem : (s.lastItem a).applyItem (.record c off (some (.release o))) = u.finishRelease o := by
    change (s.lastItem a).applyRelease o = _
    unfold State.applyRelease
    rw [show (s.lastItem a).obj o = some r from ho]
    dsimp only
    rw [if_pos hstate, ← hu]
    rfl
  obtain ⟨rq, hfinish⟩ := State.finishRelease_of_empty (s := u) (o := o) (r := r) (by rw [← hu]; exact ho) hmap
    (State.abortingStreamOf_of_none (by rw [← hu]; exact hab))
  rw [hitem] at hexec
  generalize hz : u.finishRelease o = z at hexec hfinish
  have hzo : z.obj o = none := by
    rw [hfinish]
    exact State.obj_setObj_same u o none
  have hzp : ∀ p, p ≠ o → z.obj p = s.obj p := fun p hp => by
    rw [hfinish]
    exact (State.obj_setObj_other u hp none).trans (by rw [← hu]; rfl)
  obtain ⟨bd, y, hend, hobjs, -, hqueue⟩ := State.endReplay_spec (s := z) (b := { a with
    items := [], figures := { a.figures with released := tallyUp 60 a.figures.released } })
    (by rw [hfinish, ← hu]; rfl) hwalk rfl
  refine ⟨_, hexec, by rw [hobjs, hzo]; rfl, fun p hp => by rw [hobjs, hzp p hp], hqueue o hzo, ?_, ?_, by rw [hend]⟩
  all_goals
    rw [hend, hfinish, ← hu]
    rfl

/-- An object that is to be walked before the next record (R193). -/
theorem State.applyRelease_of_walked {s : State} {a : Attach} {o : Nat} {r v : Obj} (ha : s.ckr.attach = some a)
    (ho : s.obj o = some r) (hn : ¬ (r.state = .lost ∨ (r.state = .releasing ∧ r.walkEnded = true)))
    (hv : (if r.state = .releasing then r
      else { r with state := .releasing, stream := none, walk := some Walk.start, tail := none }) = v) :
    s.applyRelease o = (s.setObj o (some v)).setAttach { a with walking := some o } := by
  unfold State.applyRelease
  rw [ho]
  dsimp only
  rw [if_neg hn, hv]
  unfold State.setAttach State.onCkr
  dsimp only
  rw [show (s.setObj o (some v)).ckr = s.ckr from rfl, ha]
  rfl

theorem replayRuns_walked (s : State) (a : Attach) (c off o : Nat) (r v : Obj)
    (hr : s.replays a (.record c off (some (.release o)))) (ho : s.obj o = some r)
    (hn : ¬ (r.state = .lost ∨ (r.state = .releasing ∧ r.walkEnded = true)))
    (hv : (if r.state = .releasing then r
      else { r with state := .releasing, stream := none, walk := some Walk.start, tail := none }) = v) :
    Completes .replayApply s fun t =>
      t.obj o = some v ∧ (∀ p, p ≠ o → t.obj p = s.obj p) ∧ t.ckr.attach = some { a with items := [], walking := some o } ∧
      t.tables.entries = s.tables.entries ∧ t.tables.containers = s.tables.containers := by
  obtain ⟨ha, hstage, hwalk, hitems⟩ := hr
  have hexec := exec_replayApply_of_single ha hstage hwalk hitems
  have hitem : (s.setAttach { a with items := [] }).applyItem (.record c off (some (.release o))) = _ :=
    State.applyRelease_of_walked (s := s.lastItem a) (a := { a with items := [] }) rfl ho hn hv
  rw [hitem, State.endReplay_of_walking (b := { a with items := [], walking := some o }) rfl rfl] at hexec
  exact ⟨_, hexec, State.obj_setObj_same (s.lastItem a) o (some v), fun p hp => State.obj_setObj_other (s.lastItem a) hp _,
    rfl, rfl, rfl⟩

/-! ## The scan (R192) -/

theorem exec_replayScanRead_of_back {s : State} {a : Attach} {c : Nat} (ha : s.ckr.attach = some a) (hstage : a.stage = .scan)
    (hc : a.scanning = some c) (hback : s.stillOut (fun j => j = .scanRead) = false) :
    exec .replayScanRead s = .next ((s.dropReturned fun j => j = .scanRead).scanned a c
      (s.returned fun j => j = .scanRead)) := by
  change execReplayScanRead s = _
  unfold execReplayScanRead
  rw [ha]
  dsimp only
  rw [hc]
  dsimp only
  rw [if_pos ⟨hstage, hback⟩]

/-- An area that is accepted carries its repair along; one that is not carries none. -/
theorem bind_map_pair {α β γ : Type} (m : Option (α × β)) (f : α → Option γ) :
    (m.bind fun e => (f e.1).map fun x => (x, e.2)) = none ↔ (m.bind fun e => f e.1) = none := by
  cases m with
  | none => exact ⟨fun _ => rfl, fun _ => rfl⟩
  | some e => exact Option.map_eq_none_iff

theorem bind_map_pair_of_some {α β γ : Type} {m : Option (α × β)} {f : α → Option γ} {y : α} {z : β} {x : γ}
    (hm : m = some (y, z)) (hx : f y = some x) : (m.bind fun e => (f e.1).map fun x => (x, e.2)) = some (x, z) := by
  subst hm
  exact congrArg (Option.map fun x => (x, z)) hx

theorem State.scanned_of_rejected {s : State} {a : Attach} {c : Nat} {rs : List Returned}
    (h : ((Stripe.scanArea { layout := s.layout, container := c, units := scanUnits rs }).bind fun e =>
      acceptArea s.layout c s.ckr.q e.1) = none) :
    s.scanned a c rs = s.scanNext { a with
      misses := a.misses + 1, figures := { a.figures with scanned := tallyUp 61 a.figures.scanned } } := by
  unfold State.scanned
  dsimp only
  rw [(bind_map_pair _ fun e => acceptArea s.layout c s.ckr.q e).2 h]

theorem State.scanNext_of_more {s : State} {a : Attach} {d : Nat} {rest : List Nat} (hr : a.rest = d :: rest)
    (hm : a.misses < 4) : ∃ ch pw rt, s.scanNext a = { s with
      ckr := { s.ckr with attach := some { a with stage := .scan, scanning := some d, rest := rest } },
      chans := ch, pwc := pw, returns := rt } := by
  unfold State.scanNext
  rw [hr]
  dsimp only
  rw [if_neg (Nat.not_le.2 hm)]
  obtain ⟨ch, pw, rt, h⟩ := State.portsOnly_submitAll (s.setAttach { a with stage := .scan, scanning := some d, rest := rest })
    ((s.positions.filter fun p => !s.lostPosition p).map fun p => (p, readOp .read d 0 unitSize .ckr .scanRead))
  exact ⟨ch, pw, rt, h⟩

theorem State.scanNext_of_done {s : State} {a : Attach} (h : a.rest = [] ∨ 4 ≤ a.misses) : s.scanNext a = s.endScan a := by
  unfold State.scanNext
  split
  · next c rest hr => exact if_pos (h.resolve_left fun hn => by rw [hn] at hr; cases hr)
  · rfl

theorem replayRuns_passed (s : State) (a : Attach) (c d : Nat) (rest : List Nat) (ha : s.ckr.attach = some a)
    (hstage : a.stage = .scan) (hc : a.scanning = some c) (hback : s.stillOut (fun j => j = .scanRead) = false)
    (hrest : a.rest = d :: rest) (hm : a.misses < 3)
    (hno : ((Stripe.scanArea
      { layout := s.layout, container := c, units := scanUnits (s.returned fun j => j = .scanRead) }).bind fun e =>
        acceptArea s.layout c s.ckr.q e.1) = none) :
    Completes .replayScanRead s fun t =>
      t.ckr.attach = some { a with
        misses := a.misses + 1, scanning := some d, rest := rest,
        figures := { a.figures with scanned := tallyUp 61 a.figures.scanned } } ∧ t.tables = s.tables := by
  have hexec := exec_replayScanRead_of_back ha hstage hc hback
  rw [State.scanned_of_rejected (s := s.dropReturned fun j => j = .scanRead) hno] at hexec
  obtain ⟨ch, pw, rt, hnext⟩ := State.scanNext_of_more (s := s.dropReturned fun j => j = .scanRead) (a := { a with
    misses := a.misses + 1, figures := { a.figures with scanned := tallyUp 61 a.figures.scanned } }) hrest
    (show a.misses + 1 < 4 by omega)
  rw [hnext, ← hstage] at hexec
  exact ⟨_, hexec, rfl, rfl⟩

theorem replayRuns_scanned (s : State) (a : Attach) (c : Nat) (ha : s.ckr.attach = some a) (hstage : a.stage = .scan)
    (hc : a.scanning = some c) (hback : s.stillOut (fun j => j = .scanRead) = false) (hm : a.misses = 3)
    (hacc : a.accepted = [])
    (hno : ((Stripe.scanArea
      { layout := s.layout, container := c, units := scanUnits (s.returned fun j => j = .scanRead) }).bind fun e =>
        acceptArea s.layout c s.ckr.q e.1) = none) :
    Completes .replayScanRead s fun t =>
      (t.ckr.attach.map fun a => (a.stage, a.items, a.applied, a.scanning)) = some (.apply, [], [], none) ∧
      t.tables = { s.tables with array := (s.tables.array.map fun r => { r with seq := s.ckr.q + 1 }),
                                 bad := t.tables.bad } := by
  have hexec := exec_replayScanRead_of_back ha hstage hc hback
  rw [State.scanned_of_rejected (s := s.dropReturned fun j => j = .scanRead) hno, State.scanNext_of_done (.inr (by show 4 ≤ a.misses + 1; omega)),
    State.endScan_of_none (by exact hacc)] at hexec
  exact ⟨_, hexec, rfl, rfl⟩

/-- An accepted area joins the accepted ones, with a repair write for a unit that was wrong (R192). -/
theorem State.scanned_of_accepted {s : State} {a : Attach} {c : Nat} {rs : List Returned} {area : List Byte}
    {fix : Option (Nat × List Byte)} {x : Accepted}
    (harea : Stripe.scanArea { layout := s.layout, container := c, units := scanUnits rs } = some (area, fix))
    (hx : acceptArea s.layout c s.ckr.q area = some x) :
    ∃ ops, s.scanned a c rs = (s.submitAll ops).scanNext { a with
      misses := 0, accepted := a.accepted ++ [x],
      figures := { a.figures with scanned := tallyUp 61 a.figures.scanned,
                                  accepted := tallyUp 62 a.figures.accepted } } := by
  unfold State.scanned
  dsimp only
  rw [bind_map_pair_of_some harea hx]
  cases fix with
  | none => exact ⟨[], rfl⟩
  | some e => exact ⟨[(e.1, writeOp .scrub c 0 e.2 .ckr .repair)], rfl⟩

theorem replayRuns_accepted (s : State) (a : Attach) (c d : Nat) (rest : List Nat) (area : List Byte)
    (fix : Option (Nat × List Byte)) (x : Accepted) (ha : s.ckr.attach = some a) (hstage : a.stage = .scan)
    (hc : a.scanning = some c) (hback : s.stillOut (fun j => j = .scanRead) = false) (hrest : a.rest = d :: rest)
    (harea : Stripe.scanArea { layout := s.layout, container := c, units := scanUnits (s.returned fun j => j = .scanRead) } =
      some (area, fix)) (hx : acceptArea s.layout c s.ckr.q area = some x) :
    Completes .replayScanRead s fun t =>
      t.ckr.attach = some { a with
        misses := 0, scanning := some d, rest := rest, accepted := a.accepted ++ [x],
        figures := { a.figures with scanned := tallyUp 61 a.figures.scanned,
                                    accepted := tallyUp 62 a.figures.accepted } } ∧ t.tables = s.tables := by
  have hexec := exec_replayScanRead_of_back ha hstage hc hback
  generalize hu : (s.dropReturned fun j => j = .scanRead) = u at hexec
  obtain ⟨ops, hscan⟩ := State.scanned_of_accepted (s := u) (a := a) (c := c) (rs := s.returned fun j => j = .scanRead)
    (area := area) (fix := fix) (x := x) (by rw [← hu]; exact harea) (by rw [← hu]; exact hx)
  obtain ⟨ch, pw, rt, hsub⟩ := u.portsOnly_submitAll ops
  rw [hscan, hsub] at hexec
  obtain ⟨ch', pw', rt', hnext⟩ := State.scanNext_of_more (s := { u with chans := ch, pwc := pw, returns := rt }) (a := { a with
      misses := 0, accepted := a.accepted ++ [x],
      figures := { a.figures with scanned := tallyUp 61 a.figures.scanned,
                                  accepted := tallyUp 62 a.figures.accepted } }) hrest (show 0 < 4 by decide)
  rw [hnext, ← hstage] at hexec
  refine ⟨_, hexec, rfl, ?_⟩
  rw [← hu]
  rfl

/-! ## The walks ended (R194) -/

theorem Container.adjusted_data {v : Container} (hk : v.kind = .data) (hl : v.live ≠ 0) : v.adjusted.spent = false := by
  refine Container.not_spent_of_live ?_ ?_
  · unfold Container.adjusted
    split <;> exact hk
  · unfold Container.adjusted
    split <;> exact hl

/-- The adjustment of one container that holds live bytes (R194). -/
theorem State.adjustContainers_of_single {s : State} {c : Nat} {v : Container} (hs : s.tables.containers = [(c, v)])
    (hk : v.kind = .data) (hl : v.live ≠ 0) : ∃ es bd, s.adjustContainers = { s with
      tables := { s.tables with entries := es, containers := [(c, v.adjusted)], bad := bd },
      ctm := { s.ctm with buffers := Vector.replicate 4 none, reloc := none } } := by
  generalize hu : ((s.onTables Tables.dropMoves).onTables fun t =>
    t.write (fun w => t.containers.any fun e => decide (e.2.adjusted ≠ e.2) && wordTouches (t.contAt e.1) 32 w)
      { t with containers := t.containers.map fun e => (e.1, e.2.adjusted) }).onCtm
        (fun m => { m with buffers := Vector.replicate 4 none, reloc := none }) = u
  have hcs : u.tables.containers = [(c, v.adjusted)] := by
    rw [← hu]
    show s.tables.containers.map (fun e => (e.1, e.2.adjusted)) = _
    rw [hs]
    rfl
  have hheld : u.testFree c = u := State.testFree_of_held (v := v.adjusted)
    (by unfold State.cont; rw [hcs]; exact if_pos rfl) (by rw [Container.adjusted_data hk hl]; rfl)
  have hadjust : s.adjustContainers = u := by
    unfold State.adjustContainers
    dsimp only
    rw [hu, hcs]
    exact hheld
  refine ⟨u.tables.entries, u.tables.bad, hadjust.trans ?_⟩
  rw [← hcs, ← hu]
  rfl

theorem State.pauseWalks_eq (s : State) : ∃ x, s.pauseWalks = { s with oru := x } ∧ x.paused = true := by
  unfold State.pauseWalks
  split
  · next h => exact ⟨s.oru, rfl, h⟩
  · exact ⟨_, rfl, rfl⟩

theorem exec_replayWalksDone_of_done {s : State} {a : Attach} (ha : s.ckr.attach = some a) (hstage : a.stage = .walks)
    (hdone : s.walksDone = true) : exec .replayWalksDone s = .next (s.nextDirectory { a with directories := a.dataApplied }) := by
  change execReplayWalksDone s = _
  unfold execReplayWalksDone
  rw [ha]
  dsimp only
  rw [if_pos hstage, if_pos hdone]

theorem replayRuns_closes (s : State) (a : Attach) (c : Nat) (v : Container) (ha : s.ckr.attach = some a)
    (hstage : a.stage = .walks) (hdone : s.walksDone = true) (happ : a.applied = []) (hs : s.tables.containers = [(c, v)])
    (hk : v.kind = .data) (hl : v.live ≠ 0) :
    Completes .replayWalksDone s fun t =>
      t.tables.containers = [(c, v.adjusted)] ∧
      (t.ckr.attach.map fun a => (a.stage, a.derived)) = some (.closing, s.derived) ∧
      (t.ckr.ckpt.map fun c => (c.why, c.phase)) = some (.closing, .sealing) ∧
      t.ctm.sealReqs = s.ctm.sealReqs ++ [.checkpoint] ∧ t.oru.paused = true ∧ t.mem = s.mem := by
  have hexec := exec_replayWalksDone_of_done ha hstage hdone
  have hnone : a.dataApplied = [] := by
    unfold Attach.dataApplied
    rw [happ]
    rfl
  rw [hnone, show s.nextDirectory { a with directories := [] } = s.closeAttach { a with directories := [] } from rfl] at hexec
  obtain ⟨es, bd, hadjust⟩ := State.adjustContainers_of_single hs hk hl
  unfold State.closeAttach at hexec
  dsimp only at hexec
  generalize hu : s.adjustContainers.onCkr (fun k => { k with
    attach := some { a with directories := [], stage := .closing, derived := s.adjustContainers.derived } }) = u at hexec
  obtain ⟨x, hpause, hx⟩ := u.pauseWalks_eq
  have hderived : s.adjustContainers.derived = s.derived := by
    rw [hadjust]
    rfl
  rw [hderived, hadjust] at hu
  rw [hpause] at hexec
  refine ⟨_, hexec, ?_, ?_, rfl, ?_, hx, ?_⟩
  all_goals
    rw [← hu]
    rfl

theorem replayRuns_directory (s : State) (a : Attach) (c : Nat) (rest : List Nat) (ha : s.ckr.attach = some a)
    (hstage : a.stage = .walks) (hdone : s.walksDone = true) (happ : a.dataApplied = c :: rest) :
    Completes .replayWalksDone s fun t =>
      t.ckr.attach = some { a with stage := .directories, directories := rest } ∧
      (∃ j, t.readJob s.ctm.nextRead = some j ∧ j.who = .attachDirectory ∧ j.container = c ∧
        j.offset = s.layout.chunkSpace ∧ j.length = directorySize ∧ j.check = .directory) ∧
      t.tables.entries = s.tables.entries ∧ t.mem = s.mem := by
  have hexec := exec_replayWalksDone_of_done ha hstage hdone
  generalize hu : s.setAttach { a with stage := .directories, directories := rest } = u
  have hnext : s.nextDirectory { a with directories := c :: rest } =
      u.newRead .attachDirectory none .read c s.layout.chunkSpace directorySize .directory := by
    rw [← hu]
    rfl
  rw [happ, hnext] at hexec
  obtain ⟨le, bq, rd, rp, dg, ch, it, sa, rt, hframe, j, hj, hsame⟩ :=
    u.newRead_spec .attachDirectory none .read c s.layout.chunkSpace directorySize .directory
  obtain ⟨-, hwho, -, -, hcont, hoff, hlen, hcheck⟩ := hsame
  have hentries : (u.readRaise c).tables.entries = u.tables.entries := by rw [State.readRaise, State.modCont_eq]
  refine ⟨_, hexec, ?_, ⟨j, ?_, hwho, hcont, hoff, hlen, hcheck⟩, ?_, ?_⟩
  · rw [hframe, ← hu]
    rfl
  · rw [← hu] at hj ⊢
    exact hj
  · rw [hframe]
    exact hentries.trans (by rw [← hu]; rfl)
  · rw [hframe, ← hu]
    rfl

/-! ## The end of the closing checkpoint (R189, R194) -/

theorem State.arrayUp_frame (s : State) (st : ArrayState) : ∃ fs mk i x g, s.arrayUp st = { s with
      ctm := { s.ctm with state := st }, lnk := s.lnk.raised slotArray fs, mec := { s.mec with marker := mk },
      pwc := { s.pwc with bayLampsDriven := true }, ing := i, idx := x, igu := g } := ⟨_, _, _, _, _, rfl⟩

theorem replayRuns_ends (s : State) (a : Attach) (c : Ckpt) (hc : s.ckr.ckpt = some c) (hwhy : c.why = .closing)
    (hrel : c.released = true) (hb : s.headersBack c = true) (hg : 0 < s.headersGood) (ha : s.ckr.attach = some a)
    (hw : s.ctm.waiting = []) (hok : ∀ r ∈ s.returned (fun j => j = .ckptHeader), r.result ≠ .error) :
    Completes .checkpointEnd s fun t =>
      t.ctm.state = a.derived ∧ t.ckr = { s.ckr with slot := some c.slot, seq := c.seq, q := c.q, op := .none,
                                                     ckpt := none, attach := none, figures := a.figures } ∧
      t.tables = s.tables ∧
      t.lnk.replyQueue = (s.lnk.answered (.attachArray a.tag) (ownerReply a.tag 0x19 .ok
        ([⟨6, c.seq⟩, ⟨6, c.q⟩] ++ a.figures.fields))).replyQueue := by
  have hexec := exec_checkpointEnd_of_good hc hb hg hok
  unfold State.ckptSucceeds at hexec
  dsimp only at hexec
  rw [if_pos hrel, hwhy] at hexec
  dsimp only at hexec
  generalize hu : (s.dropReturned fun j => j = .ckptHeader).onCkr (fun k =>
    { k with slot := some c.slot, seq := c.seq, q := c.q, op := .none, ckpt := none }) = u at hexec
  obtain ⟨ss, hresume⟩ := u.resume_eq
  generalize hv : u.resume = v at hexec hresume
  generalize hx : (v.onCkr fun k => { k with op := .none, attach := none, figures := a.figures }) = x
  obtain ⟨fs, mk, i, y, g, hup⟩ := x.arrayUp_frame a.derived
  have hend : v.attachEnd = (x.arrayUp a.derived).answer a.tag kindAttachArray .ok
      ([⟨6, c.seq⟩, ⟨6, c.q⟩] ++ a.figures.fields) := by
    unfold State.attachEnd
    rw [show v.ckr.attach = some a by rw [hresume, ← hu]; exact ha]
    dsimp only
    rw [hx, show (x.arrayUp a.derived).ckr.seq = c.seq by rw [hup, ← hx, hresume, ← hu]; rfl,
      show (x.arrayUp a.derived).ckr.q = c.q by rw [hup, ← hx, hresume, ← hu]; rfl]
    refine State.retryWaiting_of_none ?_
    rw [State.answer_eq, hup, ← hx, hresume, ← hu]
    exact hw
  rw [hend, State.answer_eq, hup] at hexec
  refine ⟨_, hexec, rfl, ?_, ?_, ?_⟩
  all_goals
    rw [← hx, hresume, ← hu]
    rfl

/-- Settles O60. -/
theorem replayRuns : Obligations.ReplayRuns := by
  unfold Obligations.ReplayRuns
  refine ⟨replayRuns_passed, replayRuns_scanned, replayRuns_accepted, replayRuns_closing, replayRuns_albums,
    fun s a c e hr hk hn => ⟨replayRuns_new s a c e hr hk hn, fun x => replayRuns_conflict s a c e x hr hk hn,
      replayRuns_lost s a c e hr hk hn⟩,
    fun s a c e hr hk hn => ⟨fun x v w hl he hf hxc hw hv => replayRuns_moved s a c e x v w hr hk hn hl he hf hxc hw hv,
      replayRuns_ignored s a c e hr hk hn⟩,
    replayRuns_segment, fun s a c off o r hr ho hab => ⟨replayRuns_freed s a c off o r hr ho hab, fun hrel hwalk => ?_,
      fun hstate => ?_⟩,
    replayRuns_closes, replayRuns_directory, replayRuns_ends⟩
  · refine replayRuns_walked s a c off o r r hr ho (fun h => h.elim (fun hl => ?_) fun h => ?_) (if_pos hrel)
    · rw [hrel] at hl
      exact ObjState.noConfusion hl
    · exact Bool.false_ne_true (hwalk.symm.trans h.2)
  · have hne : r.state ≠ .lost ∧ r.state ≠ .releasing := by
      rcases hstate with h | h | h <;> rw [h] <;> decide
    exact replayRuns_walked s a c off o r _ hr ho (fun h => h.elim hne.1 fun h => hne.2 h.1) (if_neg hne.2)

end Sys2Proof.Machine
